-- ==== Sys2Proof/Word.lean ====
section
/-! DEFINITION. The word types of the part (little-endian words, R3) and the sparse table that every memory and
register file of the model is kept in. -/

namespace Sys2Proof

abbrev Byte := BitVec 8
abbrev Word := BitVec 32
abbrev W64 := BitVec 64
/-- The 512 payload bits of a flit (R209), which are also the 64 bytes of a cell (R96). -/
abbrev Payload := BitVec 512
/-- A block tag (R38) or a frame epoch (R251). -/
abbrev Tag := BitVec 16
/-- One bundle of program memory (R133). -/
abbrev Bundle := BitVec 128
/-- A sparse table: keys strictly rising, no entry equal to what an unlisted key reads as. -/
abbrev Tbl (α : Type) := List (Nat × α)

end Sys2Proof
end

