-- ==== Sys2Proof/Syntax/Objects.lean ====
section
/-! DEFINITION. The structured operands of the commands: signed objects (R445, R446), load images (R415), Rhizoid
images (R368 to R379), owner records (R451), debug tokens (R480), camera and profile packets. What R415, R445, R451 and R480 lay
out in bytes stands here in bytes, unlisted ones being 0 (Machine/Images.lean reads them). The byte layout of the sections of
an image is not in the spec; a command carries their contents (log 11). -/

namespace Sys2Proof

/-- What a verifier sees of a signed object (R445, R446): the bytes of its header, its length, the key hash of its signer, and
the facts `rsaOk`, `slhOk` and `digestOk` that checks 4, 5 and 6 of R446 find. -/
structure SignedObj where
  header : Tbl Byte
  objLen : Nat
  keyHash : BitVec 384
  rsaOk : Bool
  slhOk : Bool
  digestOk : Bool
  deriving DecidableEq, Repr

/-- A pipeline entry of a manifest, 64 bytes (R415). -/
structure PipeEntry where
  bytes : Tbl Byte
  deriving DecidableEq, Repr

/-- A stop image: the register writes (offset in the window, value) and the program of one stop (R415, section 2). -/
structure StopImage where
  stop : Nat
  pipe : Nat
  regs : List (Nat × Word)
  program : List (Nat × Bundle)
  bar2 : List (Nat × Byte)
  workBytes : Nat
  deriving DecidableEq, Repr

/-- A chain message (R65). -/
structure ChainMsg where
  mtype : Nat
  firstPos : Nat
  lastPos : Nat
  group : Nat
  wsGran : Nat
  ngran : Nat
  sigEn : Bool
  syncObj : Nat
  syncAdd : Nat
  msgId : Nat
  data : Tbl Byte
  deriving DecidableEq, Repr

/-- What a link of the weight chain changes of a 32-bit word of a message, words counted from the header's first (R67): the
bits that arrive inverted, and whether the word's parity bit does. -/
structure Flip where
  word : Nat
  bits : Word
  par : Bool
  deriving DecidableEq, Repr

/-- What happens while a LOAD runs (R416, R67): whether the second pass meets a changed image, and what the links of the weight chain
change of each message. -/
structure LoadRun where
  changed : Bool
  flips : List (List Flip)
  deriving DecidableEq, Repr

/-- A flit that moves: its place among those under way and the bits that the link inverts (R213). -/
structure Hop where
  k : Nat
  flips : List Nat
  deriving DecidableEq, Repr

/-- A line as a camera's link brings it: its bytes, the links on which a packet's CRC failed, and the line-buffer words with an
uncorrectable error (R289, R305). -/
structure LineData where
  bytes : List Byte
  crcs : List Nat
  bad : List Nat
  deriving DecidableEq, Repr

/-- A leave notice on a port, and the part that leaves (R325). -/
structure LeaveWord where
  port : Nat
  origin : Nat
  deriving DecidableEq, Repr

/-- A flow of the flow list (R214, R215). -/
structure FlowDef where
  flow : Nat
  src : Nat
  dst : Nat
  pipe : Nat
  slots : List Nat
  deriving DecidableEq, Repr

/-- A job bound to an engine's slot (R262). -/
structure JobBind where
  stop : Nat
  slot : Nat
  pipe : Nat
  desc : Nat
  deriving DecidableEq, Repr

/-- A skew queue with its computed minimum (R237). -/
structure SkewQueue where
  stop : Nat
  q : Nat
  minimum : Nat
  deriving DecidableEq, Repr

/-- What the manifest's flow graph says of one queue (R241): the tile that fills it and the tile that empties it.
`queue` is a global queue number. -/
structure QueueEnds where
  queue : Nat
  producer : Nat
  consumer : Nat
  deriving DecidableEq, Repr

/-- The kinds of HBM region that an image places beside its spill reserve (R15). -/
inductive RegionKind where
  | ring | overflow | staging
  deriving DecidableEq, Repr

/-- An HBM region of a pipeline (R15, R16). -/
structure HbmRegion where
  pipe : Nat
  base : Nat
  len : Nat
  kind : RegionKind
  deriving DecidableEq, Repr

/-- The body of a TJL load image (R415): the 32-byte entries of its section directory, the bytes of its manifest's fixed part, the
pipeline entries, what its sections hold, and the facts of R38 and R416 that the loader finds in them. `peers` lists the parts that
a pipeline's channels reach, as (pipeline, device id) (R321). -/
structure Tjl where
  dir : List (Tbl Byte)
  manifest : Tbl Byte
  formErr : Option Nat
  digestErr : Option Nat
  peers : List (Nat × Nat)
  blocksFit : Bool
  pipes : List PipeEntry
  stops : List StopImage
  weights : List (Nat × ChainMsg)
  flows : List FlowDef
  jobs : List JobBind
  sram : List (Nat × Nat × Byte)
  hbm : List (Nat × Byte)
  globals : List (Nat × Word)
  skew : List SkewQueue
  ends : List QueueEnds
  signals : List (Nat × Nat)
  syncInit : List (Nat × Word)
  regions : List HbmRegion
  deriving DecidableEq, Repr

/-- A literal of a product term: the block's routing input and its polarity (R368). -/
structure Literal where
  input : Nat
  neg : Bool
  deriving DecidableEq, Repr

/-- A flit of the mesh (R212). `hdrErr` is 0 for a good header, 1 for a single-bit error and 2 for an uncorrectable
one; `par` are the bits of the payload parity that disagree with the payload (log 27); `entered` is the CK_MESH cycle in which it entered (R218). -/
structure Flit where
  dst : Nat
  src : Nat
  rsv : Bool
  vc : Bool
  typ : Nat
  dstQ : Nat
  op : Nat
  tag : Tag
  epoch : Tag
  flow : Nat
  payload : Payload
  hdrErr : Nat
  par : BitVec 8
  entered : Nat
  deriving DecidableEq, Repr

/-- What the JOIN exchange sends of a part (R323). -/
structure JoinInfo where
  devId : Nat
  port : Nat
  serial : W64
  digest : BitVec 256
  profile : Nat
  firmware : Word
  protocol : Nat
  stepOk : Bool
  hasUp : Bool
  runs : Bool
  declaredLost : Bool
  hasLeft : Bool
  deriving DecidableEq, Repr

/-- What a control flit of a Riham link carries (R317, R319, R323, R325, R327, R332, R427). -/
inductive Control where
  /-- a link credit for a channel (R319) -/
  | credit (chan : Nat)
  /-- a leave notice: the part that leaves (R325) -/
  | leave (origin : Nat)
  /-- a heartbeat: origin, its serial, number, hop count and time parent (R327) -/
  | heartbeat (origin : Nat) (serial : W64) (hb hops parent : Nat)
  /-- a peer's vote on D_LNK, set or withdrawn (R427) -/
  | vote (hold : Bool)
  /-- the peer's next expected number after a retrain (R317) -/
  | resume (e : Nat)
  /-- what the JOIN exchange sends (R323) -/
  | join (info : JoinInfo)
  /-- a forwarded command: its target, the part whose host sent it, its submission ring and the 64 bytes (R332) -/
  | command (target origin ring : Nat) (entry : Payload)
  /-- a completion that returns to the part whose host sent the command (R332) -/
  | completion (origin ring : Nat) (entry : Payload)
  deriving DecidableEq, Repr

/-- A link flit (R313): `ltype` 0 data, 1 control, 2 idle, 3 NAK. -/
structure LinkFlit where
  lseq : Nat
  lack : Nat
  ltype : Nat
  chan : Nat
  flit : Flit
  control : Option Control
  deriving DecidableEq, Repr

/-- A link flit on the wire (R312): its 640 bits as the FEC gives them; `chk` is 0 where the check bits of its header agree, 1 for
a single-bit error and 2 for an uncorrectable one; `control` is what a control flit carries in a layout that the spec does not
give. -/
structure LinkWord where
  bits : BitVec 640
  chk : Nat
  control : Option Control
  deriving DecidableEq, Repr

/-- One of the two clock choices of R372: `sel` 0-3 global, 4-5 local line, `inv` inverts. -/
structure ClockSel where
  sel : Nat
  inv : Bool
  deriving DecidableEq, Repr

/-- The configuration of one macrocell (R368 to R372, R374). `chain` is j of a mux chain whose last macrocell this
is, or 0. -/
structure MacroCfg where
  terms : List (List Literal)
  steer : Nat
  pol : Bool
  xorT : Bool
  ffk : Nat
  outReg : Bool
  aset : Bool
  ares : Bool
  clk : ClockSel
  chain : Nat
  initQ : Bool
  deriving DecidableEq, Repr

/-- A block: its 40 routing inputs, by routing-wire number, and its two local clock inputs (R368, R372). -/
structure BlockCfg where
  inputs : List Nat
  local4 : Nat
  local5 : Nat
  deriving DecidableEq, Repr

/-- A routing wire: what it carries (R375). Wire kinds: 0 macrocell output, 1 pin input, 2 tri-state line, 3 block RAM
output bit (72 r + 36 port + bit), 4 gateway register bit (32 n + bit), 5 decoder position bit (32 n + bit), 6 decoder
direction, 7 registered or plain hop output, 8 bit of the last word popped from queue n (32 n + bit), 9 constant 0. -/
structure Wire where
  kind : Nat
  index : Nat
  deriving DecidableEq, Repr

/-- A hop point (R375): its source wire, whether it is registered, its global clock and its initial value. -/
structure HopCfg where
  src : Nat
  reg : Bool
  clk : Nat
  init : Bool
  deriving DecidableEq, Repr

/-- One port of a block RAM (R376). Address, data and enables are routing wires, bit 0 first; `clkWire` is the wire that a
local clock choice takes. -/
structure RamPort where
  clk : ClockSel
  clkWire : Nat
  width : Nat
  en : Nat
  we : Nat
  addr : List Nat
  data : List Nat
  wmode : Nat
  deriving DecidableEq, Repr

structure RamCfg where
  a : RamPort
  b : RamPort
  init : Tbl (BitVec 36)
  deriving DecidableEq, Repr

/-- A driver of a tri-state line (R378): macrocell, line, and the enabling wire (none: unconditional). -/
structure TriDriver where
  cell : Nat
  line : Nat
  en : Option Nat
  deriving DecidableEq, Repr

/-- The options of a user pin (R379): the macrocell that drives it and the output enable (`oe` 0 never, 1 always, 2
wire `oeWire`). -/
structure PinCfg where
  pin : Nat
  weak : Nat
  slew : Nat
  drive : Nat
  schmitt : Bool
  oe : Nat
  oeWire : Nat
  drivers : List Nat
  deriving DecidableEq, Repr

/-- A Rhizoid image: the user design and its gateway bindings. Lists of macrocells, blocks, hops and RAMs are keyed by
number. `badFrame` is the frame whose read-back differs from the image (rule 10 of R387). A term that a macrocell does not list is 0. -/
structure RhzDesign where
  frames : Nat
  blocks : Tbl BlockCfg
  cells : Tbl MacroCfg
  wires : Tbl Wire
  hops : Tbl HopCfg
  rams : Tbl RamCfg
  tris : List TriDriver
  pins : List PinCfg
  selects : Tbl (List Nat)
  trig : List (Nat × Nat)
  tscSrc : List (Nat × Nat)
  gclk : List (Nat × Word)
  gclkWire : List (Nat × Nat)
  loadctl : Word
  qcfg : List (Nat × Word)
  gregOut : List (Nat × List Nat)
  voteWires : List (Nat × Nat)
  refuseWires : List (Nat × Nat)
  capWire : Nat
  bankV : Nat
  badFrame : Option Nat
  deriving DecidableEq, Repr

/-- The 128 bytes of an owner record's body (R451). -/
structure OwnerBody where
  bytes : Tbl Byte
  deriving DecidableEq, Repr

/-- The 96 bytes of a debug token's body (R480). -/
structure TokenBody where
  bytes : Tbl Byte
  deriving DecidableEq, Repr

/-- A received Ethernet frame (R294): its destination MAC and IPv4 addresses and UDP port, the bytes of its IP packet, whether it
is sound and holds a GVSP packet; of that packet, whether its identifiers are extended, its kind (0 leader, 1 payload, 2 trailer),
whether a leader or trailer names the payload type Image, the block and packet identifiers and the payload's bytes. -/
structure GvspFrame where
  mac : Nat
  ip : Word
  udp : Nat
  size : Nat
  gvsp : Bool
  ext : Bool
  part : Nat
  image : Bool
  block : Nat
  packet : Nat
  data : List Byte
  deriving DecidableEq, Repr

/-- A frame that a profile port receives (R346). -/
structure PortFrame where
  port : Nat
  frame : GvspFrame
  deriving DecidableEq, Repr

/-- What a leader of a profile port says (R346): the pixel format (0 Coord3D_C16, 1 Mono16), the points of a profile and the profiles of
its block. -/
structure ProfileLead where
  fmt : Nat
  points : Nat
  lines : Nat
  deriving DecidableEq, Repr

/-- A point that the Capsule's segmentation assigns to a parcel, in micrometres of belt coordinates (R348). -/
structure Point3 where
  x : Int
  y : Int
  z : Int
  deriving DecidableEq, Repr

/-- What the Capsule image programs a tile with (R24, R27, R338): operand mode, signedness, zero points, bounds, monitor slot, and for
each column its bias, mantissa and shift. -/
structure CapCfg where
  zpMode : Nat := 0
  actSigned : Bool := false
  outSigned : Bool := false
  zpA : Nat := 0
  zpOut : Nat := 0
  qLo : Nat := 0
  qHi : Nat := 0
  mon : Nat := 0
  cols : List (Int × Nat × Nat) := []
  deriving DecidableEq, Repr

/-- What the Capsule image does while it measures (R338, R339): it programs a tile, gives it a row of weights or an activation vector
(its number in the pass, its codes, whether the accumulators start with it and are narrowed after it), or writes working memory
or SRAM; `decay` is the working-memory device changing bits of a byte on its own. -/
inductive CapWork where
  | setup (tile : Nat) (cfg : CapCfg)
  | weights (tile row : Nat) (data : List Byte)
  | vector (tile v : Nat) (codes : List Byte) (first last : Bool)
  | store (addr : Nat) (data : List Byte)
  | sram (addr : Nat) (data : List Byte)
  | decay (addr : Nat) (bits : Byte)
  deriving DecidableEq, Repr

/-- What the Capsule image finds of a closed window (R348, R350): the work of its segmentation, the parcel's points, whether it cannot
part two objects, and the blocks of working memory and words of SRAM that the measurement used (R339). -/
structure ParcelFacts where
  work : List CapWork
  points : List Point3
  notSeparated : Bool
  blocks : List Nat
  words : List Nat
  deriving DecidableEq, Repr

/-- What the checks of a signature find of an object (R446): the hash of its signer's key, and whether checks 4, 5 and 6 pass. -/
structure Verdict where
  keyHash : BitVec 384
  rsaOk : Bool
  slhOk : Bool
  digestOk : Bool
  deriving DecidableEq, Repr

end Sys2Proof
end

