-- ==== Sys2Proof/Syntax.lean ====
section
/-! DEFINITION. The commands of the block: one constructor for each row of the operation table, with the data that the
sender gives it. A stop is its linear id (R7), a `k` is a position in the list of things in flight that the command
takes one from. -/

namespace Sys2Proof

/-- The commands. Each docstring names the row's rule and what the operands are. -/
inductive Instr where
  /-- LOAD (R416). k-th fetched command of HST; the object read, its image, what happens while it runs. -/
  | load (k : Nat) (obj : SignedObj) (img : Tjl) (run : LoadRun)
  /-- LOAD_RHIZOID_IMAGE (R389). -/
  | loadRhizoidImage (k : Nat) (obj : SignedObj) (img : RhzDesign)
  /-- CONFIGURATION_UPDATE (R254). -/
  | configurationUpdate (k : Nat) (obj : SignedObj) (img : Tjl)
  /-- START (R412). -/
  | start (k : Nat)
  /-- STOP (R412). -/
  | stop (k : Nat)
  /-- STOP_COMPLETE (R417). -/
  | stopComplete (p : Nat)
  /-- CANCEL (R251). -/
  | cancel (k : Nat)
  /-- CANCEL_HALTED (R251). -/
  | cancelHalted (p : Nat)
  /-- CANCEL_DRAINED (R251). -/
  | cancelDrained (p : Nat)
  /-- CANCEL_RESTART (R251). -/
  | cancelRestart (p : Nat)
  /-- INJECT (R299). -/
  | inject (k : Nat) (lines : List (List Byte))
  /-- READ_COUNTERS (R414). -/
  | readCounters (k : Nat)
  /-- VOTE (R411). -/
  | vote (k : Nat)
  /-- JOIN (R325). -/
  | join (k : Nat)
  /-- CAPTURE (R391). -/
  | capture (k : Nat)
  /-- UPDATE_ARMED (R254). -/
  | updateArmed (p : Nat)
  /-- UPDATE_ARM_TIMEOUT (R256). -/
  | updateArmTimeout (p : Nat)
  /-- SQ_TAIL_WRITE (R405). -/
  | sqTailWrite (n : Nat) (v : Word)
  /-- COMMAND_FETCH (R405). -/
  | commandFetch (n : Nat) (entry : Option Payload)
  /-- FORWARDED_COMMAND (R332). -/
  | forwardedCommand (origin ring : Nat) (entry : Payload)
  /-- COMPLETION_WRITE (R406). -/
  | completionWrite (n : Nat) (ok : Bool)
  /-- CQ_HEAD_WRITE (R407). -/
  | cqHeadWrite (n : Nat) (v : Word)
  /-- RR_HEAD_WRITE (R407). -/
  | rrHeadWrite (n : Nat) (v : Word)
  /-- RECORD_WRITE (R417). -/
  | recordWrite (n : Nat) (ok : Bool)
  /-- RING_ENABLE (R408). -/
  | ringEnable (kind n : Nat) (v : Word)
  /-- RING_DISABLE (R408). -/
  | ringDisable (kind n : Nat) (v : Word)
  /-- INTERRUPT_COALESCE_TIMEOUT (R421). -/
  | interruptCoalesceTimeout (kind n : Nat)
  /-- FUNCTION_LEVEL_RESET (R400). -/
  | functionLevelReset
  /-- PCIE_PERST (R468). -/
  | pciePerst
  /-- REGISTER_WRITE (R5). -/
  | registerWrite (addr : Nat) (v : W64) (size : Nat)
  /-- BAR2_READ (R491). -/
  | bar2Read (addr len : Nat)
  /-- BAR2_WRITE (R491). -/
  | bar2Write (addr : Nat) (data : List Byte)
  /-- GET (R419). -/
  | get (tid : Nat)
  /-- SET (R419). -/
  | set (tid : Nat)
  /-- PROBE (R419). -/
  | probe
  /-- GOVERNOR_EVENT (R420). -/
  | governorEvent (k : Nat)
  /-- VOTE_W1C (R427). -/
  | voteW1c (d : Nat) (v : Word)
  /-- HOST_HANDLE_RETURN (R115). -/
  | hostHandleReturn (stop : Nat) (h : Word)
  /-- GO (R155). -/
  | go (stop : Nat)
  /-- HALT (R155). -/
  | halt (stop : Nat)
  /-- CANCEL_ACKNOWLEDGED (R155). -/
  | cancelAcknowledged (stop : Nat)
  /-- NOP (R140). -/
  | nop (stop : Nat)
  /-- LITERAL (R143). -/
  | literal (stop : Nat)
  /-- LOOP (R138). -/
  | loop (stop : Nat)
  /-- LOOPC (R138). -/
  | loopc (stop : Nat)
  /-- SIG (R145). -/
  | sig (stop : Nat)
  /-- RST (R151). -/
  | rst (stop : Nat)
  /-- WAITS (R147). -/
  | waits (stop : Nat)
  /-- ARM (R148). -/
  | arm (stop : Nat)
  /-- WAITA (R148). -/
  | waita (stop : Nat)
  /-- WAITQ (R147). -/
  | waitq (stop : Nat)
  /-- WAITH (R147). -/
  | waith (stop : Nat)
  /-- CADD (R145). -/
  | cadd (stop : Nat)
  /-- END (R138). -/
  | endSchedule (stop : Nat)
  /-- WAIT_SATISFIED (R147). -/
  | waitSatisfied (stop : Nat)
  /-- SYNC_REPLY (R148). -/
  | syncReply (k : Nat)
  /-- WAIT_WATCHDOG (R150). -/
  | waitWatchdog (stop : Nat)
  /-- VEC (R166). -/
  | vec (stop : Nat)
  /-- LOADW (R167). -/
  | loadw (stop : Nat)
  /-- DROP (R168). -/
  | drop (stop : Nat)
  /-- SENDV (R169). -/
  | sendv (stop : Nat)
  /-- EXPAND (R196). -/
  | expand (stop : Nat)
  /-- EXPANDER_FLUSH (R197). -/
  | expanderFlush (stop : Nat)
  /-- FETCH (R172). none: the bundle at the stop's pc; some s: a host write of `start` to slot s. -/
  | fetch (stop : Nat) (slot : Option Nat)
  /-- SHALT (R172). -/
  | shalt (stop : Nat) (slot : Option Nat)
  /-- HPOP (R173). -/
  | hpop (stop : Nat)
  /-- HRET (R174). -/
  | hret (stop : Nat)
  /-- SENDQ (R175). -/
  | sendq (stop : Nat)
  /-- SENDA (R176). -/
  | senda (stop : Nat)
  /-- SENDB (R177). -/
  | sendb (stop : Nat)
  /-- CVTA (R180). -/
  | cvta (stop : Nat)
  /-- CVTB (R180). -/
  | cvtb (stop : Nat)
  /-- RAW (R180). -/
  | raw (stop : Nat)
  /-- LDV (R180). -/
  | ldv (stop : Nat)
  /-- ADD (R181). -/
  | add (stop : Nat)
  /-- MUL (R181). -/
  | mul (stop : Nat)
  /-- MAX (R181). -/
  | max (stop : Nat)
  /-- TBL (R82). -/
  | tbl (stop : Nat)
  /-- SOFTMAX (R84). -/
  | softmax (stop : Nat)
  /-- LNORM (R85). -/
  | lnorm (stop : Nat)
  /-- GN_STAT (R183). -/
  | gnStat (stop : Nat)
  /-- GN_APPLY (R85). -/
  | gnApply (stop : Nat)
  /-- MAXPOOL (R87). -/
  | maxpool (stop : Nat)
  /-- AVGPOOL (R87). -/
  | avgpool (stop : Nat)
  /-- RESIZE_N (R88). -/
  | resizeN (stop : Nat)
  /-- RESIZE_B (R88). -/
  | resizeB (stop : Nat)
  /-- TOPK (R89). -/
  | topk (stop : Nat)
  /-- DWCONV (R90). -/
  | dwconv (stop : Nat)
  /-- NSEND (R185). -/
  | nsend (stop : Nat)
  /-- STV (R185). -/
  | stv (stop : Nat)
  /-- SENDM (R185). -/
  | sendm (stop : Nat)
  /-- CMON_TAG_READ (R48). -/
  | cmonTagRead (stop slot : Nat)
  /-- CMON_LOST_READ (R48). -/
  | cmonLostRead (stop slot : Nat)
  /-- PUSH (R107). -/
  | push (stop : Nat)
  /-- PUSH_EOP (R105). -/
  | pushEop (stop : Nat)
  /-- PUSH_ABORT (R106). -/
  | pushAbort (stop : Nat)
  /-- FETCH_RESERVE (R121). -/
  | fetchReserve (stop slot : Nat)
  /-- FETCH_READ_ISSUE (R122). -/
  | fetchReadIssue (stop : Nat)
  /-- HBM_READ_ADMIT (R123). -/
  | hbmReadAdmit (port : Nat)
  /-- REGULATOR_TICK (R124). -/
  | regulatorTick
  /-- FETCH_READ_RETURN (R119). -/
  | fetchReadReturn (k : Nat)
  /-- RING_WRITER_FLIT (R193). -/
  | ringWriterFlit (stop : Nat)
  /-- RING_WRITER_CELL_WRITE (R191). -/
  | ringWriterCellWrite (stop w : Nat)
  /-- LANDING_QUEUE_ARRIVAL (R224). -/
  | landingQueueArrival (stop : Nat)
  /-- EPOCH_CHANGE (R251). slot: the job slot of an engine, ignored elsewhere. -/
  | epochChange (stop slot : Nat)
  /-- CHAIN_MESSAGE (R66). -/
  | chainMessage (k : Nat) (flips : List Flip)
  /-- PROBE_PERIOD_EXPIRY (R239). -/
  | probePeriodExpiry (p : Nat)
  /-- QUIESCENCE_PROBE (R240). -/
  | quiescenceProbe (p : Nat)
  /-- PROBE_SECOND_WAVE (R241). -/
  | probeSecondWave (p : Nat)
  /-- AGING_WINDOW_EXPIRY (R243). -/
  | agingWindowExpiry
  /-- SPILL_WRITE_ACK (R244). -/
  | spillWriteAck (stop q : Nat)
  /-- RESTORE_RETURN (R245). -/
  | restoreReturn (stop q : Nat)
  /-- INJECTION_FIFO_ENTRY (R216). -/
  | injectionFifoEntry (stop rt : Nat)
  /-- INJECTION_DEPART (R216). -/
  | injectionDepart (stop rt : Nat)
  /-- FLIT_HOP (R210). -/
  | flitHop (hop : Hop)
  /-- ARRIVAL_BUFFER_ENTRY (R223). -/
  | arrivalBufferEntry (hop : Hop)
  /-- ARRIVAL_BUFFER_DEPART (R223). -/
  | arrivalBufferDepart (stop : Nat)
  /-- TRACE_RECORD_WRITE (R483). -/
  | traceRecordWrite (t : Nat)
  /-- SYNC_SIGNAL (R151). -/
  | syncSignal (k : Nat)
  /-- SYNC_RESET (R151). -/
  | syncReset (k : Nat)
  /-- SYU_VAL_WRITE (R151). -/
  | syuValWrite (n : Nat) (v : Word)
  /-- SYU_ADD_WRITE (R151). -/
  | syuAddWrite (n : Nat) (v : Word)
  /-- WAIT_REQUEST (R151). -/
  | waitRequest (k : Nat)
  /-- WAIT_CANCEL (R151). -/
  | waitCancel (k : Nat)
  /-- NOTICE (R281). -/
  | notice (k : Nat)
  /-- CROZIER_FIRST (R269). -/
  | crozierFirst (stop slot : Nat)
  /-- CROZIER_LAST (R271). -/
  | crozierLast (stop slot : Nat)
  /-- SORUS_DETECT (R274). -/
  | sorusDetect (stop slot : Nat)
  /-- SORUS_PASS (R283). -/
  | sorusPass (stop slot : Nat)
  /-- REGION_CLOSE (R279). -/
  | regionClose (stop slot : Nat)
  /-- REGION_RECORDS (R281). -/
  | regionRecords (stop slot : Nat)
  /-- LINE_START (R292). -/
  | lineStart (cam : Nat)
  /-- LINE_COMPLETE (R296). data: the line as its link carried it; flags: `line_gap` of R306 in bit 1, the last line of an image in
  bit 8; crcs: the links that a packet of the line with a bad CRC came by, one entry for each packet; bad: the 64-bit words of the
  line buffer that fail. -/
  | lineComplete (cam : Nat) (data : LineData) (flags : Nat)
  /-- FRAME_STORE_WRITE_ACK (R295). -/
  | frameStoreWriteAck (cam : Nat)
  /-- TRIGGER_EDGE (R293). -/
  | triggerEdge (cam : Nat) (rising : Bool)
  /-- TRIGGER_PACKET_SENT (R293). -/
  | triggerPacketSent (cam : Nat)
  /-- GVSP_PACKET (R294). -/
  | gvspPacket (port : Nat) (f : GvspFrame)
  /-- CXP_CONTROL_PACKET (R289). -/
  | cxpControlPacket (link : Nat) (words : List Word)
  /-- CTL_TX_WRITE (R308). -/
  | ctlTxWrite (link : Nat) (w : Word)
  /-- CTL_RX_READ (R308). -/
  | ctlRxRead (link : Nat)
  /-- FABRIC_STOP (R389). -/
  | fabricStop
  /-- FABRIC_VERIFY (R387). -/
  | fabricVerify
  /-- RUN (R388). -/
  | run
  /-- FABRIC_RELEASE (R388). -/
  | fabricRelease
  /-- GATEWAY_REGISTER_WRITE (R380). -/
  | gatewayRegisterWrite (n : Nat) (v : Word)
  /-- FABRIC_QUEUE_PUSH (R381). -/
  | fabricQueuePush (n : Nat) (w : Word)
  /-- FABRIC_QUEUE_POP (R381). -/
  | fabricQueuePop (n : Nat)
  /-- HOST_QUEUE_POP (R381). -/
  | hostQueuePop (n : Nat)
  /-- HOST_QUEUE_PUSH (R381). -/
  | hostQueuePush (n : Nat) (w : Word)
  /-- QUADRATURE_TRANSITION (R383). -/
  | quadratureTransition (n : Nat) (a b : Bool)
  /-- Z_EDGE (R383). -/
  | zEdge (n : Nat)
  /-- TIMESTAMP_CAPTURE (R384). -/
  | timestampCapture (n : Nat) (rising : Bool)
  /-- TSC_EVENT_READ (R396). -/
  | tscEventRead (n : Nat)
  /-- PIN_HOLD_WRITE (R386). -/
  | pinHoldWrite (n : Nat) (v : Word)
  /-- SNAPSHOT (R391). -/
  | snapshot
  /-- CAP_FREE (R391). -/
  | capFree
  /-- CAPSULE_START (R345). -/
  | capsuleStart
  /-- CAPSULE_STOP (R345). -/
  | capsuleStop
  /-- READ_RECORD (R352). -/
  | readRecord
  /-- READ_LOG (R344). -/
  | readLog
  /-- READ_SWID (R344). -/
  | readSwid
  /-- READ_EVENT_COUNTER (R344). -/
  | readEventCounter
  /-- CGW_COMMAND_REFUSED (R344). -/
  | cgwCommandRefused (opc : Nat)
  /-- PARAM_READ (R357). -/
  | paramRead (id idx : Nat)
  /-- PARAM_WRITE (R358). -/
  | paramWrite (id idx : Nat) (v : Word)
  /-- IMAGE_BEGIN (R356). -/
  | imageBegin (size : Nat)
  /-- IMAGE_DATA (R356). -/
  | imageData (off : Nat) (data : List Byte)
  /-- IMAGE_END (R364). `factory` the image's factory parameters, by id × 256 + index. -/
  | imageEnd (verdict : Verdict) (version : Word) (memNeed : Nat) (factory : Tbl Word)
  /-- STATUS (R356). -/
  | status
  /-- BAD_SERVICE_FRAME (R356). -/
  | badServiceFrame (crcOk : Bool) (cmd : Nat)
  /-- NOR_OPERATION_COMPLETE (R361). -/
  | norOperationComplete
  /-- PROFILE_PACKET (R346). -/
  | profilePacket (f : PortFrame) (lead : ProfileLead)
  /-- CAPSULE_ENCODER_TRANSITION (R347). -/
  | capsuleEncoderTransition (n : Nat) (a b : Bool)
  /-- PARCEL_WINDOW_OPEN (R347). -/
  | parcelWindowOpen (belt : Nat)
  /-- PARCEL_WINDOW_CLOSE (R348). -/
  | parcelWindowClose (belt : Nat) (facts : ParcelFacts)
  /-- RECORD_FORWARD (R353). -/
  | recordForward
  /-- TIME_MAP_SAMPLE (R354). -/
  | timeMapSample
  /-- SEAL_SAMPLE (R355). -/
  | sealSample (pinHigh : Bool)
  /-- CAPSULE_RESET (R337). -/
  | capsuleReset
  /-- CAPSULE_BOOT (R364). -/
  | capsuleBoot (pinHigh : Bool) (memSize : Nat) (sfdp : Word)
  /-- SIGNAL_DETECT (R322). -/
  | signalDetect (p : Nat)
  /-- TRAINING_LOCK (R322). -/
  | trainingLock (p : Nat)
  /-- TRAINING_TIMEOUT (R322). -/
  | trainingTimeout (p : Nat)
  /-- TRAIN_RETRY (R322). -/
  | trainRetry (p : Nat)
  /-- LOCK_LOST (R322). -/
  | lockLost (p : Nat)
  /-- JOIN_EXCHANGE (R323). offset: the measured time offset in ns. -/
  | joinExchange (p : Nat) (peer : JoinInfo) (stamps : List (Int × Int × Int × Int))
  /-- CODEWORD_RECEIVE (R315). Symbols in error among the codeword's 512 of data and its 32 of parity (R312); its flits. -/
  | codewordReceive (p : Nat) (data parity : Nat) (flits : List LinkWord)
  /-- NAK (R316). -/
  | nak (p n : Nat)
  /-- GO_BACK_TIMEOUT (R316). -/
  | goBackTimeout (p : Nat)
  /-- LEAVE_NOTICE (R325). -/
  | leaveNotice (w : LeaveWord)
  /-- HEARTBEAT_SEND (R327). t1 to t4 of the exchange with the parent (R330). -/
  | heartbeatSend (stamps : Option (Int × Int × Int × Int))
  /-- HEARTBEAT_RECEIVE (R327). -/
  | heartbeatReceive (p origin : Nat) (serial : W64) (hb hops parent : Nat)
  /-- PEER_LOST (R328). -/
  | peerLost (origin : Nat)
  /-- CHANNEL_TRANSMIT (R318). -/
  | channelTransmit (p c : Nat)
  /-- LINK_CREDIT (R319). -/
  | linkCredit (p c : Nat)
  /-- CHANNEL_RECEIVE_DEPART (R319). -/
  | channelReceiveDepart (p c : Nat)
  /-- CREDIT_OBJECT_REREAD (R319). -/
  | creditObjectReread (p c : Nat)
  /-- DOMAIN_ENTRY (R428). -/
  | domainEntry (d : Nat)
  /-- QUIESCE_DRAINED (R430). -/
  | quiesceDrained (d : Nat)
  /-- QUIESCE_TIMEOUT (R430). -/
  | quiesceTimeout (d : Nat)
  /-- ENTRY_STEP_COMPLETE (R430). -/
  | entryStepComplete (d : Nat)
  /-- DOMAIN_EXIT (R433). -/
  | domainExit (d : Nat)
  /-- EXIT_COMPLETE (R433). -/
  | exitComplete (d : Nat)
  /-- SUPPLY_FAILURE (R434). -/
  | supplyFailure (d : Nat)
  /-- FAULT_CLEAR (R434). -/
  | faultClear (d : Nat)
  /-- PAD_RELEASE (R435). -/
  | padRelease (d : Nat)
  /-- WAKE_PORT_WRITE (R439). -/
  | wakePortWrite (addr : Nat) (bytes : List Byte)
  /-- WAKE_PORT_READ (R439). -/
  | wakePortRead (addr : Nat)
  /-- RHIZOID_WAKE_PIN (R438). -/
  | rhizoidWakePin (pin : Nat) (rising : Bool)
  /-- RIHAM_WAKE (R438). -/
  | rihamWake (p : Nat)
  /-- CAPSULE_WAKE (R438). -/
  | capsuleWake
  /-- PCIE_WAKE (R438). -/
  | pcieWake
  /-- OPERATING_POINT_CHANGE (R441). -/
  | operatingPointChange (point : Nat)
  /-- VOK_CONFIRM (R442). -/
  | vokConfirm
  /-- VOK_TIMEOUT (R442). -/
  | vokTimeout
  /-- THROTTLE (R221). -/
  | throttle (island m : Nat)
  /-- CLOCK_LOST (R470). -/
  | clockLost (c : Nat)
  /-- CLOCK_RETURN (R470). -/
  | clockReturn (c : Nat)
  /-- THERMAL_TRIP (R475). -/
  | thermalTrip (site : Nat)
  /-- THERMAL_TRIP_RELEASE (R475). -/
  | thermalTripRelease
  /-- THM_PEAK_READ (R476). -/
  | thmPeakRead
  /-- AON_RESET (R455). straps: DEV_ID_3 to DEV_ID_0 in bits [3:0]; bit 4 + d: a rail of domain d lies outside its range (R466). -/
  | aonReset (straps : Nat)
  /-- AON_BROWNOUT (R467). straps as for AON_RESET. -/
  | aonBrownout (straps : Nat)
  /-- FIRMWARE_STARTUP_COMPLETE (R452). -/
  | firmwareStartupComplete
  /-- STAGE_FIRMWARE (R456). -/
  | stageFirmware (obj : SignedObj)
  /-- STAGE_RHIZOID_IMAGE (R456). -/
  | stageRhizoidImage (obj : SignedObj) (img : RhzDesign)
  /-- STAGE_OWNER_RECORD (R451). -/
  | stageOwnerRecord (obj : SignedObj) (body : OwnerBody)
  /-- ATTESTATION (R458). -/
  | attestation
  /-- TOKEN_VERIFY (R480). -/
  | tokenVerify (obj : SignedObj) (body : TokenBody)
  /-- LOCK (R481). -/
  | lock
  /-- BIST (R485). -/
  | bist
  /-- BIST_STEP (R486). -/
  | bistStep (failed : Bool)
  /-- HZ_LOST_READ (R236). -/
  | hzLostRead (stop : Nat)
  /-- EXTEST (R479). bits: the boundary register's contents when the instruction is updated. -/
  | extest (bits : BitVec 325)
  /-- IDCODE (R477). -/
  | idcode
  /-- SAMPLE_PRELOAD (R477). pins: the values at the cells; bits: the values shifted in, to preload. -/
  | samplePreload (pins : BitVec 325) (bits : Option (BitVec 325))
  /-- HIGHZ (R479). -/
  | highz
  /-- CLAMP (R479). -/
  | clamp
  /-- BYPASS (R477). -/
  | bypass (opc : Nat)
  /-- TEST_LOGIC_RESET (R477). -/
  | testLogicReset
  /-- CAPSULE_COMMAND_COMPLETE (R344). -/
  | capsuleCommandComplete
  /-- MAILBOX_COMPLETE (R419). -/
  | mailboxComplete
  /-- STAGING_COMPLETE (R456). -/
  | stagingComplete (flashOk unchanged : Bool)
  /-- ATTESTATION_COMPLETE (R458). -/
  | attestationComplete
  /-- TOKEN_VERIFY_COMPLETE (R480). -/
  | tokenVerifyComplete
  /-- JOIN_COMMAND_TIMEOUT (R411). -/
  | joinCommandTimeout
  /-- CAPSULE_WITHDRAW_REQUEST (R427). -/
  | capsuleWithdrawRequest
  /-- PCIE_L2_ENTRY (R428). -/
  | pcieL2Entry
  /-- FABRIC_ACTIVE_CLOCK_EDGE (R370). near: less than 2 ns after the edge before it (R377, R378). -/
  | fabricActiveClockEdge (clk : Nat) (rising : Bool) (near : Bool)
  /-- RHZ_PIN_INPUT_EDGE (R379). -/
  | rhzPinInputEdge (pin : Nat) (v : Bool)
  /-- PLL_LOCK_CHANGE (R373). -/
  | pllLockChange (n : Nat) (v : Bool)
  /-- CXP_LINK_UP_CHANGE (R308). -/
  | cxpLinkUpChange (link : Nat) (up : Bool)
  deriving DecidableEq, Repr

end Sys2Proof
end

