-- ==== Sys2Proof/Decode.lean ====
section
/-! DEFINITION. Words of commands. The operation table gives no row any bits: the block's commands come as register writes,
packets and events, not as encoded words, so no word spells a command. -/

namespace Sys2Proof

/-- The command that a word spells by the table's bits: none, since no row of the table has bits. -/
def decodeTableWord (_nbits _w : Nat) : Option Instr := none

end Sys2Proof
end

