-- ==== Sys2Proof/Machine/Float.lean ====
section
/-! DEFINITION. FP32 arithmetic of the special-function tiles and the Sorus engines (R36): round to nearest even,
subnormal operands and results replaced by zeros of their sign, tininess judged after rounding, one quiet NaN. A finite
value is a sign, a magnitude and a power of two, and every operation forms the exact result before `FV.pack` rounds. -/

namespace Sys2Proof.Machine

/-- A value of FP32; `fin neg m e` is (−1)^neg × m × 2^e, a zero when m = 0. -/
inductive FV where
  | nan
  | inf (neg : Bool)
  | fin (neg : Bool) (m : Nat) (e : Int)
  deriving DecidableEq, Repr

/-- The one NaN result of R36. -/
def qnan : Word := 0x7FC00000

/-- Reads an operand; a subnormal one is a zero of its sign (R36). -/
def FV.unpack (w : Word) : FV :=
  let n := w.toNat
  let neg : Bool := n / 2 ^ 31 % 2 == 1
  let ex : Nat := n / 2 ^ 23 % 256
  let fr : Nat := n % 2 ^ 23
  if ex == 255 then (if fr == 0 then .inf neg else .nan)
  else if ex == 0 then .fin neg 0 0
  else .fin neg (2 ^ 23 + fr) ((ex : Int) - 150)

/-- m ÷ 2^s rounded to the nearest integer, ties to even. -/
def rneNat (m s : Nat) : Nat :=
  let q := m / 2 ^ s
  let r := m % 2 ^ s
  if s == 0 then m
  else if 2 * r > 2 ^ s ∨ (2 * r == 2 ^ s ∧ q % 2 == 1) then q + 1 else q

def signBit (neg : Bool) : Nat := if neg then 2 ^ 31 else 0

/-- Rounds m × 2^e to FP32 (R36). The exponent range is unbounded while rounding; what then lies below 2^−126 is a zero
of its sign and what lies above the largest finite value is infinite. -/
def roundDy (neg : Bool) (m : Nat) (e : Int) : Word :=
  if m == 0 then BitVec.ofNat 32 (signBit neg) else
  let len := Nat.log2 m + 1
  let sh := len - 24
  let q0 := if len ≤ 24 then m * 2 ^ (24 - len) else rneNat m sh
  let e0 : Int := e + (len : Int) - 24
  let (q, e1) := if q0 == 2 ^ 24 then (2 ^ 23, e0 + 1) else (q0, e0)
  let ex : Int := e1 + 150
  if ex > 254 then BitVec.ofNat 32 (signBit neg + 255 * 2 ^ 23)
  else if ex < 1 then BitVec.ofNat 32 (signBit neg)
  else BitVec.ofNat 32 (signBit neg + ex.toNat * 2 ^ 23 + (q - 2 ^ 23))

def FV.pack : FV → Word
  | .nan => qnan
  | .inf neg => BitVec.ofNat 32 (signBit neg + 255 * 2 ^ 23)
  | .fin neg m e => roundDy neg m e

/-- The exact sum of two finite values over the smaller exponent. A sum of zero is +0, but −0 + −0 is −0. -/
def addFin (n1 : Bool) (m1 : Nat) (e1 : Int) (n2 : Bool) (m2 : Nat) (e2 : Int) : FV :=
  let e := min e1 e2
  let a : Int := (m1 : Int) * 2 ^ (e1 - e).toNat * (if n1 then -1 else 1)
  let b : Int := (m2 : Int) * 2 ^ (e2 - e).toNat * (if n2 then -1 else 1)
  let c := a + b
  if m1 == 0 ∧ m2 == 0 then .fin (n1 && n2) 0 0
  else if m1 == 0 then .fin n2 m2 e2
  else if m2 == 0 then .fin n1 m1 e1
  else .fin (decide (c < 0)) c.natAbs e

def FV.add : FV → FV → FV
  | .nan, _ => .nan
  | _, .nan => .nan
  | .inf a, .inf b => if a == b then .inf a else .nan
  | .inf a, .fin _ _ _ => .inf a
  | .fin _ _ _, .inf b => .inf b
  | .fin n1 m1 e1, .fin n2 m2 e2 => addFin n1 m1 e1 n2 m2 e2

def FV.neg : FV → FV
  | .nan => .nan
  | .inf a => .inf (!a)
  | .fin n m e => .fin (!n) m e

def FV.mul : FV → FV → FV
  | .nan, _ => .nan
  | _, .nan => .nan
  | .inf a, .inf b => .inf (a != b)
  | .inf a, .fin n m _ => if m == 0 then .nan else .inf (a != n)
  | .fin n m _, .inf b => if m == 0 then .nan else .inf (n != b)
  | .fin n1 m1 e1, .fin n2 m2 e2 => .fin (n1 != n2) (m1 * m2) (e1 + e2)

/-- Quotient with 60 more bits than the operands and a last bit that says whether it was cut. -/
def FV.div : FV → FV → FV
  | .nan, _ => .nan
  | _, .nan => .nan
  | .inf _, .inf _ => .nan
  | .inf a, .fin n _ _ => .inf (a != n)
  | .fin n _ _, .inf b => .fin (n != b) 0 0
  | .fin n1 m1 e1, .fin n2 m2 e2 =>
    if m2 == 0 then (if m1 == 0 then .nan else .inf (n1 != n2))
    else
      let q := m1 * 2 ^ 60 / m2
      let r := m1 * 2 ^ 60 % m2
      .fin (n1 != n2) (2 * q + (if r == 0 then 0 else 1)) (e1 - e2 - 61)

/-- Integer square root by trial of one bit at a time from bit `k`. -/
def isqrtFrom (n : Nat) : Nat → Nat → Nat
  | 0, r => r
  | k + 1, r => let t := r + 2 ^ k; isqrtFrom n k (if t * t ≤ n then t else r)

def isqrt (n : Nat) : Nat := isqrtFrom n 64 0

def FV.sqrt : FV → FV
  | .nan => .nan
  | .inf neg => if neg then .nan else .inf false
  | .fin neg m e =>
    if m == 0 then .fin neg 0 0
    else if neg then .nan
    else
      let odd := e % 2 != 0
      let m' := if odd then m * 2 ^ 61 else m * 2 ^ 60
      let e' : Int := if odd then e - 61 else e - 60
      let r := isqrt m'
      .fin false (2 * r + (if r * r == m' then 0 else 1)) (e' / 2 - 1)

def fadd (a b : Word) : Word := (FV.add (.unpack a) (.unpack b)).pack
def fsub (a b : Word) : Word := (FV.add (.unpack a) (FV.unpack b).neg).pack
def fmul (a b : Word) : Word := (FV.mul (.unpack a) (.unpack b)).pack
def fdiv (a b : Word) : Word := (FV.div (.unpack a) (.unpack b)).pack
def fsqrt (a : Word) : Word := (FV.sqrt (.unpack a)).pack

/-- An order key of the values that are no NaN: zeros are equal, −∞ below and +∞ above every finite value. -/
def FV.key : FV → Option Int
  | .nan => none
  | .inf neg => some (if neg then -(2 ^ 300) else 2 ^ 300)
  | .fin neg m e =>
    let v : Int := (m : Int) * 2 ^ (e + 150).toNat
    some (if neg then -v else v)

/-- R36: a result: subnormals are zeros of their sign, every NaN the one quiet NaN. -/
def fcanon (w : Word) : Word := (FV.unpack w).pack

/-- x < y; false where either is a NaN. -/
def flt (x y : Word) : Bool :=
  match (FV.unpack x).key, (FV.unpack y).key with
  | some a, some b => decide (a < b)
  | _, _ => false

def fge (x y : Word) : Bool :=
  match (FV.unpack x).key, (FV.unpack y).key with
  | some a, some b => decide (a ≥ b)
  | _, _ => false

def isNan (x : Word) : Bool := FV.unpack x == .nan

def isZero (x : Word) : Bool :=
  match FV.unpack x with
  | .fin _ m _ => m == 0
  | _ => false

/-- The maximum of R181: a NaN operand gives the NaN, and +0 is above −0. -/
def fmax (x y : Word) : Word :=
  if isNan x || isNan y then qnan
  else if isZero x && isZero y then (if x.getMsbD 0 && y.getMsbD 0 then 0x80000000 else 0)
  else if flt x y then (FV.unpack y).pack else (FV.unpack x).pack

/-- floor of a finite value, as an integer; 0 for the others. -/
def ffloor (x : Word) : Int :=
  match FV.unpack x with
  | .fin neg m e =>
    let v : Int := if neg then -(m : Int) else m
    if e ≥ 0 then v * 2 ^ e.toNat else v / 2 ^ (-e).toNat
  | _ => 0

/-- An integer converted to FP32. -/
def fofInt (n : Int) : Word := roundDy (decide (n < 0)) n.natAbs 0

def fone : Word := 0x3F800000
def fhalf : Word := 0x3F000000
def fnegInf : Word := 0xFF800000

/-- R35: a code to FP32, exact. -/
def fofCode (a zp : Int) (m s : Nat) : Word :=
  let p := (a - zp) * (m : Int)
  if p == 0 then 0 else roundDy (decide (p < 0)) p.natAbs (-(s : Int))

end Sys2Proof.Machine
end

