-- ==== Sys2Proof/Machine/Flags.lean ====
section
/-! DEFINITION. Narrowing to a code and what each narrowing counts (R24 to R31, R37). A narrowing is a pure function:
its result is the code and the case that the monitor counts. -/

namespace Sys2Proof.Machine

/-- What one narrowing adds to its monitor slot (R30, R37): in range with its e8², below, above, or a NaN. -/
inductive MonCase where
  | inRange (sq : Nat)
  | low
  | high
  | nan
  deriving DecidableEq, Repr

structure Narrowed where
  y : Int
  cas : MonCase
  ovf : Bool
  deriving DecidableEq, Repr

/-- R25: INT32 saturation. -/
def sat32 (v : Int) : Int :=
  if v > 2147483647 then 2147483647 else if v < -2147483648 then -2147483648 else v

/-- R29: p ÷ 2^s rounded to the nearest integer, ties to even. -/
def rneShift (p : Int) (s : Nat) : Int :=
  if s = 0 then p
  else
    let q := p / 2 ^ s
    let r := p - q * 2 ^ s
    let half : Int := 2 ^ (s - 1)
    if r > half ∨ (r = half ∧ q % 2 = 1) then q + 1 else q

/-- R29: exact minus rounded, in units of 2^−s. -/
def rneRem (p : Int) (s : Nat) : Int := p - rneShift p s * 2 ^ s

/-- The rounding error in 2^−8 codes, truncated toward zero, squared (R29). -/
def e8Sq (rem : Int) (s : Nat) : Nat :=
  let e := (rem * 256).tdiv (2 ^ s)
  (e * e).natAbs

/-- The clamp of R29: the comparison against `lo` comes first. -/
def clampCode (u lo hi : Int) (sq : Nat) : Int × MonCase :=
  if u < lo then (lo, .low) else if u > hi then (hi, .high) else (u, .inRange sq)

/-- R29, R30: narrowing of an accumulator. -/
def narrowAcc (acc : Int) (accOvf : Bool) (bias : Int) (m s : Nat) (zp lo hi : Int) : Narrowed :=
  let v := sat32 (acc + bias)
  let p := v * (m : Int)
  let (y, c) := clampCode (zp + rneShift p s) lo hi (e8Sq (rneRem p s) s)
  { y := y, cas := c, ovf := accOvf || v != acc + bias }

/-- R31: narrowing of an outlier channel. -/
def narrowWide (acc : Int) (accOvf : Bool) (bias : Int) (m s : Nat) : Narrowed :=
  narrowAcc acc accOvf bias m s 0 (-32768) 32767

/-- R37: narrowing of an FP32 value. -/
def narrowFp (x outScale : Word) (zp lo hi : Int) : Narrowed :=
  match FV.unpack (fmul x outScale) with
  | .nan => { y := (clampCode zp lo hi 0).1, cas := .nan, ovf := false }
  | .inf neg => if neg then { y := lo, cas := .low, ovf := false } else { y := hi, cas := .high, ovf := false }
  | .fin neg m e =>
    let v : Int := if neg then -(m : Int) else m
    let s := (-e).toNat
    let p := if e ≥ 0 then v * 2 ^ e.toNat else v
    let (y, c) := clampCode (zp + rneShift p s) lo hi (e8Sq (rneRem p s) s)
    { y := y, cas := c, ovf := false }

/-- R22: a code or a zero point read in its tensor's signedness. -/
def codeOf (signed : Bool) (b : Nat) : Int := if signed && b % 256 ≥ 128 then (b % 256 : Int) - 256 else b % 256

def int8 (b : Nat) : Int := codeOf true b
def int16 (b : Nat) : Int := if b % 65536 ≥ 32768 then (b % 65536 : Int) - 65536 else b % 65536
def int32 (w : Word) : Int := w.toInt
def byteOf (v : Int) : Byte := BitVec.ofInt 8 v

/-- R24: the activation operand. -/
def operandA (zpMode : Nat) (a zpA : Int) : Int := if zpMode = 0 then a else a - zpA

/-- R24: the weight operand; mode 3 acts as mode 2. -/
def operandW (zpMode : Nat) (w zpW : Int) : Int := if zpMode ≥ 2 then w - zpW else w

/-- R23: the index that a 4-bit container selects under a weight format (1 CB4, 2 CB3, 3 CB2). -/
def codeIndex (wfmt container : Nat) : Nat :=
  if wfmt = 1 then container % 16 else if wfmt = 2 then container % 8 else container % 4

/-- R25, R26: an accumulator entry takes or adds a column sum; the overflow bit clears when it starts anew. -/
def accAdd (first : Bool) (old : Int × Bool) (sum : Int) : Int × Bool :=
  if first then (sum, false)
  else (sat32 (old.1 + sum), old.2 || sat32 (old.1 + sum) != old.1 + sum)

end Sys2Proof.Machine
end

