-- ==== Sys2Proof/Machine/Units.lean ====
section
/-! DEFINITION. The mesh's stops and their units (R7), the BAR0 window of a stop (R8), indexes of memory tiles (R112),
and the bit fields of words. -/

namespace Sys2Proof.Machine

/-- The kinds of unit at a mesh stop (R7). -/
inductive Kind where
  | at | mt | sft | hbp | cz | sor | ing | lnk | syu | gov | hst | eth | cgw | rgw | trc
  deriving DecidableEq, Repr

/-- Row 13 of R7, for the die-local column u of die A (0) or B (1). -/
def serviceKind (die u : Nat) : Kind :=
  if u ≤ 1 then .cz else if u = 2 then .sor else if u ≤ 4 then .ing else if u ≤ 6 then .lnk
  else if u ≤ 8 then .syu else if u = 9 then .gov
  else if u = 10 then (if die = 0 then .hst else .cgw)
  else if u = 11 then (if die = 0 then .eth else .rgw)
  else if u = 12 then .trc else if u = 13 then .sor else .cz

/-- The unit kind at a stop (R7). -/
def kindOf (stop : Nat) : Kind :=
  let x := stop % 32
  let y := stop / 32
  let u := x % 16
  if y = 0 then (if 4 ≤ u ∧ u ≤ 11 then .hbp else .sft)
  else if y = 13 then serviceKind (x / 16) u
  else if (x + y) % 2 = 0 then .at
  else if (y = 2 ∨ y = 8) ∧ u % 4 = 3 then .sft
  else if (y = 5 ∨ y = 11) ∧ u % 4 = 0 then .sft
  else .mt

/-- A tile runs a schedule (R133). -/
def isTile (stop : Nat) : Bool := stop < 448 && (kindOf stop == .at || kindOf stop == .mt || kindOf stop == .sft)
/-- A tile or engine with landing queues (R224, R264). -/
def isEngine (stop : Nat) : Bool := stop < 448 && (kindOf stop == .cz || kindOf stop == .sor)

def dieOf (stop : Nat) : Nat := stop % 32 / 16
def atXY (x y : Nat) : Nat := y * 32 + x

def stopsOf (k : Kind) : List Nat := (List.range 448).filter fun n => kindOf n == k

/-- R112: memory tile index of a stop: die A's memory tiles by rising stop id, then die B's. -/
def mtIndex (stop : Nat) : Nat :=
  let before := (List.range stop).filter fun n => kindOf n == .mt && dieOf n == dieOf stop
  before.length + (if dieOf stop = 0 then 0 else 80)

/-- The stop of the memory tile with index k (R112). -/
def mtStop (k : Nat) : Option Nat :=
  ((stopsOf .mt).filter fun n => dieOf n == k / 80)[k % 80]?

/-- R7: the number of a special unit among those of its kind, die A first. -/
def unitIndex (stop : Nat) : Nat :=
  ((List.range 448).filter fun n => kindOf n == kindOf stop &&
    (decide (dieOf n < dieOf stop) || (dieOf n == dieOf stop && decide (n < stop)))).length

/-- The stop of the n-th unit of a kind (R7). -/
def unitStop (k : Kind) (n : Nat) : Nat :=
  let a := (stopsOf k).filter fun m => dieOf m == 0
  let b := (stopsOf k).filter fun m => dieOf m == 1
  (a ++ b).getD n 448

def govStop : Nat := 425
def hstStop : Nat := 426
def ethStop : Nat := 427

/-- R7: the stop of sync unit u. -/
def syuStop (u : Nat) : Nat := [423, 424, 439, 440].getD u 423

/-- R7: the sync unit of an object. -/
def syuOf (obj : Nat) : Nat := obj % 65536 / 16384

/-- R7: the stop of HBM port n. -/
def hbpStop (n : Nat) : Nat := if n < 8 then 4 + n else 12 + n

/-- R8: start of a stop's BAR0 window, and the register at an offset in it. -/
def reg (stop off : Nat) : Nat := 0x01000000 + stop * 0x10000 + off

/-- Field of `n` bits from bit `lo`. -/
def bitsOf (w : Word) (lo n : Nat) : Nat := (w.extractLsb' lo n).toNat

def bitOf (w : Word) (i : Nat) : Bool := w.getLsbD i

/-- `w` with the field of `n` bits from bit `lo` set to `v` (taken modulo its width). -/
def setBits (w : Word) (lo n v : Nat) : Word :=
  (w &&& ~~~(BitVec.ofNat 32 (2 ^ n - 1) <<< lo)) ||| (BitVec.ofNat 32 (v % 2 ^ n) <<< lo)

/-- A count that holds at the top of its width. -/
def holdAt (top v : Nat) : Nat := if v > top then top else v

/-- Little-endian bytes of a number (R3). -/
def leBytes (n : Nat) : Nat → List Byte
  | 0 => []
  | k + 1 => BitVec.ofNat 8 n :: leBytes (n / 256) k

/-- Little-endian number of a list of bytes (R3). -/
def leNat : List Byte → Nat
  | [] => 0
  | b :: bs => b.toNat + 256 * leNat bs

/-- Byte `i` of a payload (R3). -/
def byteAt (p : Payload) (i : Nat) : Byte := p.extractLsb' (8 * i) 8

def payloadBytes (p : Payload) : List Byte := (List.range 64).map (byteAt p)

def payloadOf (bs : List Byte) : Payload := BitVec.ofNat 512 (leNat (bs.take 64))

end Sys2Proof.Machine
end

