-- ==== Sys2Proof/Machine/RegMap.lean ====
section
/-! DEFINITION. Every register of BAR0: where it lies, its reset value and which of its bits the host writes (RW) or
clears by writing 1 (W1C), as the register tables of the spec give them (R5, R6). Bits in neither mask are RO, WO, RC
or reserved. Offsets of a stop's registers are in its window (R8). -/

namespace Sys2Proof.Machine

/-- A register, or an array of n1 × n2 registers at strides s1 and s2: first address, counts and strides, reset value,
RW bits, W1C bits. -/
structure RegRow where
  base : Nat
  n1 : Nat
  s1 : Nat
  n2 : Nat
  s2 : Nat
  reset : Nat
  rw : Nat
  w1c : Nat
  deriving DecidableEq, Repr

/-- The row names the address. -/
def RegRow.has (r : RegRow) (a : Nat) : Bool :=
  r.base ≤ a && (a - r.base) / r.s1 < r.n1 && (a - r.base) % r.s1 % r.s2 == 0 && (a - r.base) % r.s1 / r.s2 < r.n2

def regs_at_0 : List RegRow := [
  ⟨0xe100, 1, 0x4, 1, 0x4, 0x0, 0x4, 0x3⟩,
  ⟨0xe104, 1, 0x4, 1, 0x4, 0x0, 0x0, 0x0⟩,
  ⟨0xe108, 1, 0x4, 1, 0x4, 0x0, 0x0, 0x0⟩,
  ⟨0xe000, 4, 0x40, 1, 0x4, 0x0, 0x1, 0x2⟩,
  ⟨0xe004, 4, 0x40, 1, 0x4, 0x0, 0x3fffff, 0x0⟩,
  ⟨0xe008, 4, 0x40, 1, 0x4, 0x0, 0x0, 0x0⟩,
  ⟨0xe00c, 4, 0x40, 1, 0x4, 0x0, 0x0, 0x0⟩,
  ⟨0xe010, 4, 0x40, 1, 0x4, 0x0, 0x0, 0x0⟩,
  ⟨0xe014, 4, 0x40, 1, 0x4, 0x0, 0x0, 0x0⟩,
  ⟨0xe018, 4, 0x40, 1, 0x4, 0x0, 0x0, 0x0⟩,
  ⟨0xe01c, 4, 0x40, 1, 0x4, 0x0, 0x0, 0x0⟩,
  ⟨0xe020, 4, 0x40, 1, 0x4, 0x0, 0x0, 0x0⟩,
  ⟨0xe024, 4, 0x40, 1, 0x4, 0x0, 0x0, 0x0⟩,
  ⟨0xe028, 4, 0x40, 1, 0x4, 0x0, 0x0, 0x0⟩,
  ⟨0x0, 1, 0x4, 1, 0x4, 0xb001, 0x0, 0x0⟩,
  ⟨0x4, 1, 0x4, 1, 0x4, 0x0, 0x8000003f, 0x0⟩,
  ⟨0x10, 1, 0x4, 1, 0x4, 0x0, 0x0, 0x0⟩,
  ⟨0x100, 4, 0x20, 1, 0x4, 0x0, 0xffffffff, 0x0⟩,
  ⟨0x104, 4, 0x20, 1, 0x4, 0xff00, 0xffffff, 0x0⟩,
  ⟨0x108, 4, 0x20, 4, 0x4, 0x0, 0xffffffff, 0x0⟩,
  ⟨0x80, 1, 0x4, 1, 0x4, 0x0, 0x8007ffff, 0x0⟩,
  ⟨0x84, 1, 0x4, 1, 0x4, 0x0, 0x0, 0x0⟩,
  ⟨0x200, 1, 0x4, 1, 0x4, 0x0, 0x0, 0x1f⟩,
  ⟨0x204, 1, 0x4, 1, 0x4, 0x0, 0x0, 0x0⟩,
  ⟨0x208, 1, 0x4, 1, 0x4, 0x0, 0x0, 0x0⟩,
  ⟨0x20c, 1, 0x4, 1, 0x4, 0x0, 0x0, 0x0⟩,
  ⟨0x1000, 128, 0x4, 1, 0x4, 0xe4000, 0x3fffff, 0x0⟩,
  ⟨0x1400, 128, 0x4, 1, 0x4, 0xe4000, 0x3fffff, 0x0⟩,
  ⟨0x2000, 128, 0x4, 1, 0x4, 0x0, 0xffffffff, 0x0⟩,
  ⟨0x2400, 128, 0x4, 1, 0x4, 0x0, 0xffffffff, 0x0⟩,
  ⟨0xd000, 1, 0x4, 1, 0x4, 0x0, 0xfff0000, 0x0⟩,
  ⟨0xd004, 1, 0x4, 1, 0x4, 0x0, 0x0, 0x0⟩,
  ⟨0xd008, 1, 0x4, 1, 0x4, 0x0, 0x0, 0x3f⟩,
  ⟨0xd00c, 1, 0x4, 1, 0x4, 0x0, 0xffffffff, 0x0⟩,
  ⟨0xd010, 1, 0x4, 1, 0x4, 0x0, 0x0, 0x0⟩,
  ⟨0xd014, 1, 0x4, 1, 0x4, 0x0, 0x0, 0x0⟩,
  ⟨0xd018, 1, 0x4, 1, 0x4, 0x0, 0x0, 0x0⟩,
  ⟨0xd01c, 1, 0x4, 1, 0x4, 0x0, 0x0, 0x0⟩,
  ⟨0xd100, 32, 0x4, 1, 0x4, 0x0, 0xffffffff, 0x0⟩,
  ⟨0xd200, 4, 0x8, 1, 0x4, 0x0, 0x0, 0x0⟩]

def regs_at_1 : List RegRow := [
  ⟨0xd204, 4, 0x8, 1, 0x4, 0x0, 0x0, 0x0⟩,
  ⟨0xd240, 4, 0x4, 1, 0x4, 0x0, 0x0, 0x0⟩,
  ⟨0x8, 1, 0x4, 1, 0x4, 0x0, 0x0, 0x0⟩,
  ⟨0x210, 1, 0x4, 1, 0x4, 0x0, 0x0, 0x9f⟩,
  ⟨0x214, 1, 0x4, 1, 0x4, 0x0, 0x0, 0x0⟩,
  ⟨0x218, 1, 0x4, 1, 0x4, 0x10000, 0x0, 0x0⟩,
  ⟨0x500, 16, 0x10, 1, 0x4, 0x0, 0x80007fff, 0x0⟩,
  ⟨0x504, 16, 0x10, 1, 0x4, 0x0, 0x1fff, 0x0⟩,
  ⟨0x508, 16, 0x10, 1, 0x4, 0x0, 0xffffffff, 0x0⟩,
  ⟨0x50c, 16, 0x10, 1, 0x4, 0x0, 0xffffffff, 0x0⟩,
  ⟨0x400, 8, 0x10, 1, 0x4, 0x0, 0xffff0001, 0x0⟩,
  ⟨0x404, 8, 0x10, 1, 0x4, 0x0, 0x0, 0x0⟩,
  ⟨0x408, 8, 0x10, 1, 0x4, 0x0, 0x0, 0x0⟩,
  ⟨0xd400, 1, 0x4, 1, 0x4, 0x0, 0xffff, 0x0⟩,
  ⟨0xd404, 1, 0x4, 1, 0x4, 0x2, 0x0, 0x0⟩,
  ⟨0x20, 1, 0x4, 1, 0x4, 0x0, 0x0, 0x0⟩,
  ⟨0x180, 4, 0x20, 1, 0x4, 0x0, 0xffffffff, 0x0⟩,
  ⟨0x184, 4, 0x20, 1, 0x4, 0xff00, 0xffffff, 0x0⟩,
  ⟨0x188, 4, 0x20, 4, 0x4, 0x0, 0xffffffff, 0x0⟩,
  ⟨0x3000, 128, 0x4, 1, 0x4, 0xe4000, 0x3fffff, 0x0⟩,
  ⟨0x3400, 128, 0x4, 1, 0x4, 0xe4000, 0x3fffff, 0x0⟩,
  ⟨0x3800, 128, 0x4, 1, 0x4, 0x0, 0xffffffff, 0x0⟩,
  ⟨0x3c00, 128, 0x4, 1, 0x4, 0x0, 0xffffffff, 0x0⟩]

def regs_at : List RegRow := regs_at_0 ++ regs_at_1

def regs_sft_0 : List RegRow := [
  ⟨0xe100, 1, 0x4, 1, 0x4, 0x0, 0x4, 0x3⟩,
  ⟨0xe104, 1, 0x4, 1, 0x4, 0x0, 0x0, 0x0⟩,
  ⟨0xe108, 1, 0x4, 1, 0x4, 0x0, 0x0, 0x0⟩,
  ⟨0xe000, 4, 0x40, 1, 0x4, 0x0, 0x1, 0x2⟩,
  ⟨0xe004, 4, 0x40, 1, 0x4, 0x0, 0x3fffff, 0x0⟩,
  ⟨0xe008, 4, 0x40, 1, 0x4, 0x0, 0x0, 0x0⟩,
  ⟨0xe00c, 4, 0x40, 1, 0x4, 0x0, 0x0, 0x0⟩,
  ⟨0xe010, 4, 0x40, 1, 0x4, 0x0, 0x0, 0x0⟩,
  ⟨0xe014, 4, 0x40, 1, 0x4, 0x0, 0x0, 0x0⟩,
  ⟨0xe018, 4, 0x40, 1, 0x4, 0x0, 0x0, 0x0⟩,
  ⟨0xe01c, 4, 0x40, 1, 0x4, 0x0, 0x0, 0x0⟩,
  ⟨0xe020, 4, 0x40, 1, 0x4, 0x0, 0x0, 0x0⟩,
  ⟨0xe024, 4, 0x40, 1, 0x4, 0x0, 0x0, 0x0⟩,
  ⟨0xe028, 4, 0x40, 1, 0x4, 0x0, 0x0, 0x0⟩,
  ⟨0x0, 1, 0x4, 1, 0x4, 0xb002, 0x0, 0x0⟩,
  ⟨0x4, 1, 0x4, 1, 0x4, 0x0, 0x8000003f, 0x0⟩,
  ⟨0x10, 1, 0x4, 1, 0x4, 0x0, 0x0, 0x0⟩,
  ⟨0x100, 4, 0x20, 1, 0x4, 0x0, 0xffffff7f, 0x0⟩,
  ⟨0x104, 4, 0x20, 1, 0x4, 0xff00, 0xffffffff, 0x0⟩,
  ⟨0x108, 4, 0x20, 1, 0x4, 0x3f800000, 0xffffffff, 0x0⟩,
  ⟨0x10c, 4, 0x20, 1, 0x4, 0x0, 0xffffffff, 0x0⟩,
  ⟨0x110, 4, 0x20, 1, 0x4, 0x0, 0x7fff, 0x0⟩,
  ⟨0x200, 1, 0x4, 1, 0x4, 0x0, 0x0, 0x3⟩,
  ⟨0x204, 1, 0x4, 1, 0x4, 0x0, 0x0, 0x0⟩,
  ⟨0x208, 1, 0x4, 1, 0x4, 0x0, 0x0, 0x0⟩,
  ⟨0x20c, 1, 0x4, 1, 0x4, 0x0, 0x0, 0x0⟩,
  ⟨0x1000, 256, 0x4, 1, 0x4, 0xe4000, 0x3fffff, 0x0⟩,
  ⟨0xd000, 1, 0x4, 1, 0x4, 0x0, 0xfff0000, 0x0⟩,
  ⟨0xd004, 1, 0x4, 1, 0x4, 0x0, 0x0, 0x0⟩,
  ⟨0xd008, 1, 0x4, 1, 0x4, 0x0, 0x0, 0x3f⟩,
  ⟨0xd00c, 1, 0x4, 1, 0x4, 0x0, 0xffffffff, 0x0⟩,
  ⟨0xd010, 1, 0x4, 1, 0x4, 0x0, 0x0, 0x0⟩,
  ⟨0xd014, 1, 0x4, 1, 0x4, 0x0, 0x0, 0x0⟩,
  ⟨0xd018, 1, 0x4, 1, 0x4, 0x0, 0x0, 0x0⟩,
  ⟨0xd01c, 1, 0x4, 1, 0x4, 0x0, 0x0, 0x0⟩,
  ⟨0xd100, 32, 0x4, 1, 0x4, 0x0, 0xffffffff, 0x0⟩,
  ⟨0xd200, 4, 0x8, 1, 0x4, 0x0, 0x0, 0x0⟩,
  ⟨0xd204, 4, 0x8, 1, 0x4, 0x0, 0x0, 0x0⟩,
  ⟨0xd240, 4, 0x4, 1, 0x4, 0x0, 0x0, 0x0⟩,
  ⟨0x8, 1, 0x4, 1, 0x4, 0x0, 0x0, 0x0⟩]

def regs_sft_1 : List RegRow := [
  ⟨0x214, 1, 0x4, 1, 0x4, 0x0, 0x0, 0x0⟩,
  ⟨0x218, 1, 0x4, 1, 0x4, 0x10000, 0x0, 0x0⟩,
  ⟨0x210, 1, 0x4, 1, 0x4, 0x0, 0x0, 0xbf⟩,
  ⟨0x500, 16, 0x10, 1, 0x4, 0x0, 0x80007fff, 0x0⟩,
  ⟨0x504, 16, 0x10, 1, 0x4, 0x0, 0x1fff, 0x0⟩,
  ⟨0x508, 16, 0x10, 1, 0x4, 0x0, 0xffffffff, 0x0⟩,
  ⟨0x50c, 16, 0x10, 1, 0x4, 0x0, 0xffffffff, 0x0⟩,
  ⟨0x400, 8, 0x10, 1, 0x4, 0x0, 0xffff0001, 0x0⟩,
  ⟨0x404, 8, 0x10, 1, 0x4, 0x0, 0x0, 0x0⟩,
  ⟨0x408, 8, 0x10, 1, 0x4, 0x0, 0x0, 0x0⟩,
  ⟨0xd400, 1, 0x4, 1, 0x4, 0x0, 0xffffffff, 0x0⟩,
  ⟨0xd404, 1, 0x4, 1, 0x4, 0x2, 0x0, 0x0⟩,
  ⟨0x20, 1, 0x4, 1, 0x4, 0x0, 0x0, 0x0⟩,
  ⟨0x180, 4, 0x20, 1, 0x4, 0x0, 0xffffff7f, 0x0⟩,
  ⟨0x184, 4, 0x20, 1, 0x4, 0xff00, 0xffffffff, 0x0⟩,
  ⟨0x188, 4, 0x20, 1, 0x4, 0x3f800000, 0xffffffff, 0x0⟩,
  ⟨0x18c, 4, 0x20, 1, 0x4, 0x0, 0xffffffff, 0x0⟩,
  ⟨0x190, 4, 0x20, 1, 0x4, 0x0, 0x7fff, 0x0⟩,
  ⟨0x2000, 256, 0x4, 1, 0x4, 0xe4000, 0x3fffff, 0x0⟩]

def regs_sft : List RegRow := regs_sft_0 ++ regs_sft_1

def regs_mt_0 : List RegRow := [
  ⟨0x0, 1, 0x4, 1, 0x4, 0xb003, 0x0, 0x0⟩,
  ⟨0x4, 1, 0x4, 1, 0x4, 0x0, 0x8000003f, 0x0⟩,
  ⟨0x8, 1, 0x4, 1, 0x4, 0x0, 0x0, 0x0⟩,
  ⟨0xc, 1, 0x4, 1, 0x4, 0x0, 0x0, 0x0⟩,
  ⟨0x10, 1, 0x4, 1, 0x4, 0x0, 0x0, 0x0⟩,
  ⟨0x40, 8, 0x8, 1, 0x4, 0x0, 0x7fff7fff, 0x0⟩,
  ⟨0x44, 8, 0x8, 1, 0x4, 0x0, 0x7, 0x0⟩,
  ⟨0x80, 1, 0x4, 1, 0x4, 0x0, 0x0, 0x0⟩,
  ⟨0x200, 1, 0x4, 1, 0x4, 0x0, 0x0, 0x7f⟩,
  ⟨0x204, 1, 0x4, 1, 0x4, 0x0, 0x0, 0x0⟩,
  ⟨0x208, 1, 0x4, 1, 0x4, 0x0, 0x0, 0x0⟩,
  ⟨0x20c, 1, 0x4, 1, 0x4, 0x0, 0x0, 0x0⟩,
  ⟨0x210, 1, 0x4, 1, 0x4, 0x0, 0x0, 0x0⟩,
  ⟨0x214, 1, 0x4, 1, 0x4, 0x0, 0x0, 0x0⟩,
  ⟨0x218, 1, 0x4, 1, 0x4, 0x0, 0x0, 0x0⟩,
  ⟨0x21c, 1, 0x4, 1, 0x4, 0x0, 0x0, 0x0⟩,
  ⟨0x220, 1, 0x4, 1, 0x4, 0x0, 0x0, 0x0⟩,
  ⟨0x1000, 64, 0x20, 1, 0x4, 0x0, 0xffff001f, 0x0⟩,
  ⟨0x1004, 64, 0x20, 1, 0x4, 0x0, 0xffff, 0x0⟩,
  ⟨0x1008, 64, 0x20, 1, 0x4, 0x0, 0x0, 0x0⟩,
  ⟨0x100c, 64, 0x20, 1, 0x4, 0x0, 0x0, 0x0⟩,
  ⟨0x1010, 64, 0x20, 1, 0x4, 0x0, 0x0, 0x0⟩,
  ⟨0x1014, 64, 0x20, 1, 0x4, 0x0, 0x0, 0x0⟩,
  ⟨0x1018, 64, 0x20, 1, 0x4, 0x0, 0x0, 0x1f⟩,
  ⟨0x101c, 64, 0x20, 1, 0x4, 0x0, 0x0, 0x0⟩,
  ⟨0x2000, 16, 0x40, 16, 0x4, 0x0, 0xffffffff, 0x0⟩,
  ⟨0x2400, 16, 0x10, 1, 0x4, 0x0, 0x0, 0x0⟩,
  ⟨0x2404, 16, 0x10, 1, 0x4, 0x0, 0x0, 0x6⟩,
  ⟨0x2408, 16, 0x10, 1, 0x4, 0xffffff, 0x0, 0x0⟩,
  ⟨0x4000, 1024, 0x8, 1, 0x4, 0x0, 0xfffffff, 0x0⟩,
  ⟨0x4004, 1024, 0x8, 1, 0x4, 0x0, 0x3f, 0x0⟩,
  ⟨0xd000, 1, 0x4, 1, 0x4, 0x0, 0xfff0000, 0x0⟩,
  ⟨0xd004, 1, 0x4, 1, 0x4, 0x0, 0x0, 0x0⟩,
  ⟨0xd008, 1, 0x4, 1, 0x4, 0x0, 0x0, 0x3f⟩,
  ⟨0xd00c, 1, 0x4, 1, 0x4, 0x0, 0xffffffff, 0x0⟩,
  ⟨0xd010, 1, 0x4, 1, 0x4, 0x0, 0x0, 0x0⟩,
  ⟨0xd014, 1, 0x4, 1, 0x4, 0x0, 0x0, 0x0⟩,
  ⟨0xd018, 1, 0x4, 1, 0x4, 0x0, 0x0, 0x0⟩,
  ⟨0xd01c, 1, 0x4, 1, 0x4, 0x0, 0x0, 0x0⟩,
  ⟨0xd100, 32, 0x4, 1, 0x4, 0x0, 0xffffffff, 0x0⟩]

def regs_mt_1 : List RegRow := [
  ⟨0xd200, 4, 0x8, 1, 0x4, 0x0, 0x0, 0x0⟩,
  ⟨0xd204, 4, 0x8, 1, 0x4, 0x0, 0x0, 0x0⟩,
  ⟨0xd240, 4, 0x4, 1, 0x4, 0x0, 0x0, 0x0⟩,
  ⟨0x224, 1, 0x4, 1, 0x4, 0x0, 0x0, 0x7⟩,
  ⟨0x3000, 16, 0x8, 1, 0x4, 0x0, 0xff3fffff, 0x0⟩,
  ⟨0x3004, 16, 0x8, 1, 0x4, 0x0, 0x807fffff, 0x0⟩,
  ⟨0x3080, 1, 0x4, 1, 0x4, 0x40, 0xf7fff7f, 0x0⟩,
  ⟨0x3084, 1, 0x4, 1, 0x4, 0x0, 0x0, 0x0⟩,
  ⟨0x3088, 1, 0x4, 1, 0x4, 0x0, 0x0, 0x7⟩,
  ⟨0x308c, 1, 0x4, 1, 0x4, 0x0, 0x0, 0x0⟩,
  ⟨0x3100, 4, 0x20, 1, 0x4, 0x0, 0x7ffffff, 0x0⟩,
  ⟨0x3104, 4, 0x20, 1, 0x4, 0x0, 0xff3fffff, 0x0⟩,
  ⟨0x3108, 4, 0x20, 1, 0x4, 0x0, 0xfff1fff, 0x0⟩,
  ⟨0x310c, 4, 0x20, 1, 0x4, 0x0, 0xfff1fff, 0x0⟩,
  ⟨0x3110, 4, 0x20, 1, 0x4, 0x0, 0x3fffff, 0x0⟩,
  ⟨0x3114, 4, 0x20, 1, 0x4, 0x0, 0x0, 0x0⟩,
  ⟨0x3118, 4, 0x20, 1, 0x4, 0x0, 0x0, 0x0⟩,
  ⟨0x311c, 4, 0x20, 1, 0x4, 0x0, 0x0, 0x0⟩,
  ⟨0x500, 16, 0x10, 1, 0x4, 0x0, 0x80007fff, 0x0⟩,
  ⟨0x504, 16, 0x10, 1, 0x4, 0x0, 0x1fff, 0x0⟩,
  ⟨0x508, 16, 0x10, 1, 0x4, 0x0, 0xffffffff, 0x0⟩,
  ⟨0x50c, 16, 0x10, 1, 0x4, 0x0, 0xffffffff, 0x0⟩,
  ⟨0xd400, 1, 0x4, 1, 0x4, 0x0, 0xffff, 0x0⟩,
  ⟨0xd404, 1, 0x4, 1, 0x4, 0x2, 0x0, 0x0⟩,
  ⟨0x6000, 64, 0x8, 1, 0x4, 0x0, 0x0, 0x0⟩,
  ⟨0x6004, 64, 0x8, 1, 0x4, 0x0, 0x0, 0x0⟩,
  ⟨0x6200, 1, 0x4, 1, 0x4, 0x80, 0x0, 0x0⟩]

def regs_mt : List RegRow := regs_mt_0 ++ regs_mt_1

def regs_g_0 : List RegRow := [
  ⟨0x300f000, 1, 0x4, 1, 0x4, 0x4000c00, 0x0, 0x0⟩,
  ⟨0x300f004, 1, 0x4, 1, 0x4, 0x4000c00, 0x0, 0x0⟩,
  ⟨0x300f008, 1, 0x4, 1, 0x4, 0x8001800, 0x0, 0x0⟩,
  ⟨0x300f00c, 1, 0x4, 1, 0x4, 0x0, 0x0, 0x0⟩,
  ⟨0x300f010, 1, 0x4, 1, 0x4, 0x0, 0x0, 0x0⟩,
  ⟨0x300f014, 1, 0x4, 1, 0x4, 0x0, 0x0, 0x0⟩,
  ⟨0x300f018, 1, 0x4, 1, 0x4, 0x0, 0x0, 0x0⟩,
  ⟨0x800000, 65536, 0x4, 1, 0x4, 0x0, 0xffffffff, 0x0⟩,
  ⟨0x840000, 65536, 0x4, 1, 0x4, 0x0, 0x0, 0x0⟩,
  ⟨0x880000, 4, 0x10, 1, 0x4, 0x0, 0x0, 0x0⟩,
  ⟨0x880004, 4, 0x10, 1, 0x4, 0x0, 0x0, 0x0⟩,
  ⟨0x8000, 1, 0x4, 1, 0x4, 0x0, 0x0, 0x0⟩,
  ⟨0x8004, 1, 0x4, 1, 0x4, 0x0, 0x0, 0x0⟩,
  ⟨0x8008, 1, 0x4, 1, 0x4, 0x0, 0x0, 0x0⟩,
  ⟨0x800c, 1, 0x4, 1, 0x4, 0x0, 0x0, 0x7⟩,
  ⟨0x8010, 1, 0x4, 1, 0x4, 0x0, 0x0, 0x0⟩,
  ⟨0x8100, 64, 0x4, 1, 0x4, 0x0, 0x0, 0x0⟩,
  ⟨0x400000, 32, 0x100, 1, 0x4, 0x0, 0x7fffffff, 0x0⟩,
  ⟨0x400004, 32, 0x100, 1, 0x4, 0x0, 0x3fffffff, 0x0⟩,
  ⟨0x400008, 32, 0x100, 1, 0x4, 0x0, 0xffffff, 0x0⟩,
  ⟨0x40000c, 32, 0x100, 1, 0x4, 0x0, 0xffffffff, 0x0⟩,
  ⟨0x400010, 32, 0x100, 1, 0x4, 0x0, 0xffff, 0x0⟩,
  ⟨0x400020, 32, 0x100, 1, 0x4, 0xffffffff, 0x0, 0x0⟩,
  ⟨0x400024, 32, 0x100, 1, 0x4, 0x0, 0x0, 0x0⟩,
  ⟨0x400028, 32, 0x100, 1, 0x4, 0x0, 0x0, 0x0⟩,
  ⟨0x40002c, 32, 0x100, 1, 0x4, 0x0, 0x0, 0xff⟩,
  ⟨0x400030, 32, 0x100, 2, 0x4, 0x0, 0x0, 0x0⟩,
  ⟨0x400038, 32, 0x100, 1, 0x4, 0x0, 0x0, 0x0⟩,
  ⟨0x400040, 32, 0x100, 4, 0x10, 0x0, 0xfff, 0x0⟩,
  ⟨0x400044, 32, 0x100, 4, 0x10, 0x0, 0xffffffff, 0x0⟩,
  ⟨0x400048, 32, 0x100, 4, 0x10, 0x0, 0x0, 0x0⟩,
  ⟨0x404000, 16, 0x20, 1, 0x4, 0x0, 0x1e, 0x0⟩,
  ⟨0x404004, 16, 0x20, 1, 0x4, 0x0, 0x0, 0x0⟩,
  ⟨0x404008, 16, 0x20, 1, 0x4, 0x0, 0x0, 0x0⟩,
  ⟨0x40400c, 16, 0x20, 1, 0x4, 0x0, 0x0, 0x0⟩,
  ⟨0x404010, 16, 0x20, 1, 0x4, 0x0, 0x0, 0x0⟩,
  ⟨0x404014, 16, 0x20, 1, 0x4, 0x0, 0x0, 0x0⟩,
  ⟨0x406000, 2, 0x40, 1, 0x4, 0x0, 0xffffffff, 0x0⟩,
  ⟨0x406004, 2, 0x40, 1, 0x4, 0x0, 0xffff, 0x0⟩,
  ⟨0x406008, 2, 0x40, 1, 0x4, 0x0, 0xffffffff, 0x0⟩]

def regs_g_1 : List RegRow := [
  ⟨0x406010, 2, 0x40, 8, 0x4, 0x0, 0x8000ffff, 0x0⟩,
  ⟨0x406030, 2, 0x40, 1, 0x4, 0x0, 0x0, 0x0⟩,
  ⟨0x3000000, 16, 0x100, 1, 0x4, 0x0, 0x0, 0x0⟩,
  ⟨0x3000004, 16, 0x100, 1, 0x4, 0x0, 0x0, 0x0⟩,
  ⟨0x3000008, 16, 0x100, 1, 0x4, 0x0, 0x0, 0x0⟩,
  ⟨0x300000c, 16, 0x100, 1, 0x4, 0x0, 0x0, 0x0⟩,
  ⟨0x500000, 8, 0x100, 1, 0x4, 0x0, 0x0, 0x0⟩,
  ⟨0x500004, 8, 0x100, 1, 0x4, 0x0, 0x0, 0x0⟩,
  ⟨0x500008, 8, 0x100, 1, 0x4, 0x0, 0x0, 0x0⟩,
  ⟨0x50000c, 8, 0x100, 1, 0x4, 0x0, 0x0, 0x0⟩,
  ⟨0x500010, 8, 0x100, 1, 0x4, 0x0, 0x0, 0x0⟩,
  ⟨0x500014, 8, 0x100, 1, 0x4, 0x0, 0x0, 0x0⟩,
  ⟨0x500018, 8, 0x100, 1, 0x4, 0x0, 0x0, 0x0⟩,
  ⟨0x50001c, 8, 0x100, 1, 0x4, 0x0, 0x0, 0x3f⟩,
  ⟨0x500020, 8, 0x100, 1, 0x4, 0x0, 0xffff, 0x0⟩,
  ⟨0x500024, 8, 0x100, 1, 0x4, 0x0, 0x0, 0x0⟩,
  ⟨0x504000, 256, 0x20, 1, 0x4, 0x0, 0xffff00ff, 0x0⟩,
  ⟨0x504004, 256, 0x20, 1, 0x4, 0x0, 0x3fffff, 0x0⟩,
  ⟨0x504008, 256, 0x20, 1, 0x4, 0x0, 0x1fff, 0x0⟩,
  ⟨0x50400c, 256, 0x20, 2, 0x4, 0x0, 0xffffffff, 0x0⟩,
  ⟨0x504014, 256, 0x20, 1, 0x4, 0x0, 0xffffffff, 0x0⟩,
  ⟨0x504018, 256, 0x20, 1, 0x4, 0x0, 0x0, 0x0⟩,
  ⟨0x50401c, 256, 0x20, 1, 0x4, 0x100000, 0x0, 0x0⟩,
  ⟨0x508000, 1, 0x4, 1, 0x4, 0x0, 0x0, 0x0⟩,
  ⟨0x508004, 1, 0x4, 1, 0x4, 0x1, 0x0, 0x0⟩,
  ⟨0x508008, 1, 0x4, 1, 0x4, 0x0, 0x0, 0x0⟩,
  ⟨0x50800c, 1, 0x4, 1, 0x4, 0x0, 0x0, 0x0⟩,
  ⟨0x508010, 1, 0x4, 1, 0x4, 0x0, 0x0, 0x0⟩,
  ⟨0x508014, 1, 0x4, 1, 0x4, 0x0, 0x0, 0x0⟩,
  ⟨0x508018, 1, 0x4, 1, 0x4, 0x0, 0x0, 0x7⟩,
  ⟨0x508020, 8, 0x4, 1, 0x4, 0x0, 0x0, 0x0⟩,
  ⟨0x700000, 1, 0x4, 1, 0x4, 0x0, 0x0, 0x0⟩,
  ⟨0x700004, 1, 0x4, 1, 0x4, 0x0, 0xffffffff, 0x0⟩,
  ⟨0x700008, 1, 0x4, 1, 0x4, 0x0, 0x0, 0x0⟩,
  ⟨0x70000c, 1, 0x4, 1, 0x4, 0x0, 0x0, 0x0⟩,
  ⟨0x700010, 1, 0x4, 1, 0x4, 0xffffffff, 0x0, 0x0⟩,
  ⟨0x700014, 1, 0x4, 1, 0x4, 0x0, 0x0, 0x0⟩,
  ⟨0x700018, 1, 0x4, 1, 0x4, 0x0, 0x0, 0x0⟩,
  ⟨0x70001c, 1, 0x4, 1, 0x4, 0x0, 0x0, 0x0⟩,
  ⟨0x700020, 2, 0x4, 1, 0x4, 0x0, 0x0, 0x0⟩]

def regs_g_2 : List RegRow := [
  ⟨0x700028, 2, 0x4, 1, 0x4, 0x0, 0x0, 0x0⟩,
  ⟨0x700030, 1, 0x4, 1, 0x4, 0x0, 0x7f, 0x0⟩,
  ⟨0x700034, 1, 0x4, 1, 0x4, 0x0, 0x0, 0x0⟩,
  ⟨0x700040, 16, 0x4, 1, 0x4, 0x0, 0x0, 0x0⟩,
  ⟨0x700100, 64, 0x4, 1, 0x4, 0x0, 0x3fff, 0x0⟩,
  ⟨0x710000, 65536, 0x4, 1, 0x4, 0x0, 0x0, 0x0⟩,
  ⟨0x600000, 1, 0x4, 1, 0x4, 0x0, 0x0, 0x0⟩,
  ⟨0x600004, 1, 0x4, 1, 0x4, 0x0, 0x0, 0x0⟩,
  ⟨0x600008, 1, 0x4, 1, 0x4, 0x0, 0x0, 0x0⟩,
  ⟨0x60000c, 1, 0x4, 1, 0x4, 0x0, 0x7e, 0x0⟩,
  ⟨0x600010, 1, 0x4, 1, 0x4, 0x0, 0x0, 0x0⟩,
  ⟨0x600014, 1, 0x4, 1, 0x4, 0x0, 0x0, 0x0⟩,
  ⟨0x600018, 1, 0x4, 1, 0x4, 0x0, 0x0, 0x0⟩,
  ⟨0x60001c, 1, 0x4, 1, 0x4, 0x0, 0x0, 0x1ffff⟩,
  ⟨0x600020, 1, 0x4, 1, 0x4, 0x0, 0x0, 0x0⟩,
  ⟨0x600024, 1, 0x4, 1, 0x4, 0x0, 0x0, 0x0⟩,
  ⟨0x600040, 4, 0x4, 1, 0x4, 0x0, 0xfff, 0x0⟩,
  ⟨0x600100, 96, 0x4, 1, 0x4, 0x4, 0xf, 0x0⟩,
  ⟨0x600280, 3, 0x4, 1, 0x4, 0x0, 0x0, 0x0⟩,
  ⟨0x600400, 16, 0x4, 1, 0x4, 0x0, 0x0, 0x0⟩,
  ⟨0x600440, 16, 0x4, 1, 0x4, 0x0, 0x0, 0x0⟩,
  ⟨0x600500, 2, 0x10, 1, 0x4, 0x0, 0x0, 0x0⟩,
  ⟨0x600520, 2, 0x10, 1, 0x4, 0x0, 0x0, 0x0⟩,
  ⟨0x600504, 4, 0x10, 1, 0x4, 0x0, 0x0, 0x30000⟩,
  ⟨0x600508, 2, 0x10, 1, 0x4, 0x0, 0xffff0001, 0x0⟩,
  ⟨0x600528, 2, 0x10, 1, 0x4, 0x0, 0x0, 0x0⟩,
  ⟨0x600580, 1, 0x4, 1, 0x4, 0x0, 0x0, 0x0⟩,
  ⟨0x600600, 8, 0x20, 1, 0x4, 0x0, 0x3ffff, 0x0⟩,
  ⟨0x600604, 8, 0x20, 1, 0x4, 0x0, 0x0, 0x0⟩,
  ⟨0x600608, 8, 0x20, 1, 0x4, 0x0, 0x0, 0x0⟩,
  ⟨0x60060c, 8, 0x20, 1, 0x4, 0x0, 0x0, 0x0⟩,
  ⟨0x600610, 8, 0x20, 1, 0x4, 0x0, 0x0, 0x0⟩,
  ⟨0x600614, 8, 0x20, 1, 0x4, 0x0, 0x0, 0x0⟩,
  ⟨0x600700, 8, 0x10, 1, 0x4, 0x0, 0xfffffff, 0x0⟩,
  ⟨0x600704, 8, 0x10, 1, 0x4, 0x0, 0x0, 0x0⟩,
  ⟨0x600708, 8, 0x10, 1, 0x4, 0x0, 0xffffffff, 0x0⟩,
  ⟨0x60070c, 8, 0x10, 1, 0x4, 0x0, 0x0, 0x0⟩,
  ⟨0x600900, 1, 0x4, 1, 0x4, 0x0, 0x1f, 0x0⟩,
  ⟨0x600908, 2, 0x4, 1, 0x4, 0x0, 0xffffffff, 0x0⟩,
  ⟨0x600910, 1, 0x4, 1, 0x4, 0x0, 0x0, 0x0⟩]

def regs_g_3 : List RegRow := [
  ⟨0x600918, 2, 0x4, 1, 0x4, 0x0, 0x0, 0x0⟩,
  ⟨0x300f00, 1, 0x4, 1, 0x4, 0x0, 0x0, 0x0⟩,
  ⟨0x300f08, 2, 0x4, 1, 0x4, 0x0, 0x0, 0x0⟩,
  ⟨0x100000, 64, 0x40, 1, 0x4, 0x0, 0xffffffc0, 0x0⟩,
  ⟨0x100004, 64, 0x40, 1, 0x4, 0x0, 0xffffffff, 0x0⟩,
  ⟨0x100008, 64, 0x40, 1, 0x4, 0x10000, 0x0, 0x0⟩,
  ⟨0x10000c, 64, 0x40, 1, 0x4, 0x0, 0x0, 0x0⟩,
  ⟨0x100010, 64, 0x40, 1, 0x4, 0x0, 0x0, 0x0⟩,
  ⟨0x100014, 64, 0x40, 1, 0x4, 0x8, 0x0, 0x1⟩,
  ⟨0x101000, 64, 0x40, 1, 0x4, 0x0, 0xffffffc0, 0x0⟩,
  ⟨0x101004, 64, 0x40, 1, 0x4, 0x0, 0xffffffff, 0x0⟩,
  ⟨0x101008, 64, 0x40, 1, 0x4, 0x10000, 0x0, 0x0⟩,
  ⟨0x10100c, 64, 0x40, 1, 0x4, 0x0, 0x0, 0x0⟩,
  ⟨0x101010, 64, 0x40, 1, 0x4, 0x0, 0x0, 0x0⟩,
  ⟨0x101014, 64, 0x40, 1, 0x4, 0x8, 0x0, 0x1⟩,
  ⟨0x102000, 64, 0x40, 1, 0x4, 0x0, 0xffffffc0, 0x0⟩,
  ⟨0x102004, 64, 0x40, 1, 0x4, 0x0, 0xffffffff, 0x0⟩,
  ⟨0x102008, 64, 0x40, 1, 0x4, 0x10000, 0x0, 0x0⟩,
  ⟨0x10200c, 64, 0x40, 1, 0x4, 0x0, 0x0, 0x0⟩,
  ⟨0x102010, 64, 0x40, 1, 0x4, 0x0, 0x0, 0x0⟩,
  ⟨0x102014, 64, 0x40, 1, 0x4, 0x8, 0x0, 0x1⟩,
  ⟨0x10e000, 256, 0x10, 3, 0x4, 0x0, 0xffffffff, 0x0⟩,
  ⟨0x10e00c, 256, 0x10, 1, 0x4, 0x1, 0x1, 0x0⟩,
  ⟨0x10f000, 8, 0x4, 1, 0x4, 0x0, 0x0, 0x0⟩,
  ⟨0x0, 1, 0x4, 1, 0x4, 0x0, 0x0, 0x0⟩,
  ⟨0x4, 1, 0x4, 1, 0x4, 0x0, 0xffffffff, 0x0⟩,
  ⟨0x8, 1, 0x4, 1, 0x4, 0x0, 0x0, 0x0⟩,
  ⟨0xc, 1, 0x4, 1, 0x4, 0x0, 0x1, 0x0⟩,
  ⟨0x1000, 7, 0x10, 1, 0x4, 0x0, 0x0, 0x0⟩,
  ⟨0x1004, 7, 0x10, 1, 0x4, 0x0, 0x0, 0x0⟩,
  ⟨0x1008, 7, 0x10, 1, 0x4, 0x0, 0x0, 0x0⟩,
  ⟨0x2000, 1, 0x4, 1, 0x4, 0x0, 0x3f01, 0x0⟩,
  ⟨0x2004, 1, 0x4, 1, 0x4, 0x0, 0x0, 0x0⟩,
  ⟨0x8400, 64, 0x4, 1, 0x4, 0x0, 0x0, 0x0⟩,
  ⟨0x200000, 10, 0x40, 1, 0x4, 0x100, 0x0, 0x0⟩,
  ⟨0x200280, 1, 0x4, 1, 0x4, 0x2, 0x0, 0x0⟩,
  ⟨0x200004, 10, 0x40, 1, 0x4, 0x1, 0x0, 0x38⟩,
  ⟨0x200284, 1, 0x4, 1, 0x4, 0x0, 0x0, 0x38⟩,
  ⟨0x200008, 11, 0x40, 1, 0x4, 0x0, 0x1, 0x0⟩,
  ⟨0x20000c, 11, 0x40, 1, 0x4, 0x0, 0x0, 0x0⟩]

def regs_g_4 : List RegRow := [
  ⟨0x200010, 11, 0x40, 1, 0x4, 0x0, 0x0, 0x0⟩,
  ⟨0x200014, 11, 0x40, 1, 0x4, 0x0, 0x0, 0x0⟩,
  ⟨0x200018, 11, 0x40, 1, 0x4, 0x7, 0x0, 0x0⟩,
  ⟨0x20001c, 11, 0x40, 1, 0x4, 0x0, 0x0, 0x3⟩,
  ⟨0x200020, 11, 0x40, 2, 0x4, 0x0, 0x0, 0x0⟩,
  ⟨0x200400, 5, 0x4, 1, 0x4, 0x0, 0x800007ff, 0x0⟩,
  ⟨0x200420, 4, 0x4, 1, 0x4, 0x0, 0x1ff, 0x0⟩,
  ⟨0x200440, 1, 0x4, 1, 0x4, 0x0, 0x0, 0x1f⟩,
  ⟨0x200444, 1, 0x4, 1, 0x4, 0xca, 0xff, 0x0⟩,
  ⟨0x200448, 1, 0x4, 1, 0x4, 0x0, 0x0, 0x0⟩,
  ⟨0x200600, 1, 0x4, 1, 0x4, 0xa, 0x0, 0x0⟩,
  ⟨0x200604, 1, 0x4, 1, 0x4, 0x0, 0x0, 0x0⟩,
  ⟨0x200608, 1, 0x4, 1, 0x4, 0x0, 0x0, 0x0⟩,
  ⟨0x20060c, 1, 0x4, 1, 0x4, 0x0, 0x0, 0x0⟩,
  ⟨0x200700, 1, 0x4, 1, 0x4, 0x0, 0x0, 0x0⟩,
  ⟨0x300000, 1, 0x4, 1, 0x4, 0x0, 0x0, 0x0⟩,
  ⟨0x300004, 1, 0x4, 1, 0x4, 0x0, 0x0, 0x0⟩,
  ⟨0x300008, 1, 0x4, 1, 0x4, 0x0, 0x0, 0x0⟩,
  ⟨0x300010, 4, 0x4, 1, 0x4, 0x0, 0x0, 0x0⟩,
  ⟨0x300040, 12, 0x4, 1, 0x4, 0x0, 0x0, 0x0⟩,
  ⟨0x300080, 12, 0x4, 1, 0x4, 0x0, 0x0, 0x0⟩,
  ⟨0x300100, 2, 0x4, 1, 0x4, 0x0, 0xffffffff, 0x0⟩,
  ⟨0x300108, 1, 0x4, 1, 0x4, 0x0, 0xffffffff, 0x0⟩,
  ⟨0x30010c, 1, 0x4, 1, 0x4, 0x0, 0x3, 0x0⟩,
  ⟨0x300110, 1, 0x4, 1, 0x4, 0x0, 0x0, 0x0⟩,
  ⟨0x300200, 12, 0x4, 1, 0x4, 0x0, 0xffffffff, 0x0⟩,
  ⟨0x300240, 1, 0x4, 1, 0x4, 0x0, 0x0, 0x0⟩,
  ⟨0x300244, 1, 0x4, 1, 0x4, 0x0, 0x0, 0x0⟩,
  ⟨0x310000, 16384, 0x4, 1, 0x4, 0x0, 0x0, 0x0⟩,
  ⟨0x320000, 8192, 0x4, 1, 0x4, 0x0, 0x0, 0x0⟩,
  ⟨0x200800, 1, 0x4, 1, 0x4, 0x0, 0x0, 0x1f00⟩,
  ⟨0x200804, 1, 0x4, 1, 0x4, 0x0, 0x0, 0x0⟩,
  ⟨0x200900, 1, 0x4, 1, 0x4, 0x0, 0x0, 0x0⟩,
  ⟨0x200904, 1, 0x4, 1, 0x4, 0x0, 0x0, 0x0⟩,
  ⟨0x200908, 1, 0x4, 1, 0x4, 0x0, 0x0, 0x0⟩,
  ⟨0x20090c, 1, 0x4, 1, 0x4, 0x0, 0x0, 0x0⟩,
  ⟨0x200910, 1, 0x4, 1, 0x4, 0x0, 0x0, 0x0⟩,
  ⟨0x200914, 1, 0x4, 1, 0x4, 0x0, 0x0, 0xf⟩,
  ⟨0x330000, 12, 0x4, 1, 0x4, 0x0, 0x0, 0x0⟩,
  ⟨0x330040, 2, 0x4, 1, 0x4, 0x0, 0xffffffff, 0x0⟩]

def regs_g_5 : List RegRow := [
  ⟨0x330048, 1, 0x4, 1, 0x4, 0x0, 0xffffffff, 0x0⟩,
  ⟨0x33004c, 1, 0x4, 1, 0x4, 0x0, 0x0, 0x0⟩,
  ⟨0x330050, 1, 0x4, 1, 0x4, 0x0, 0x0, 0x0⟩,
  ⟨0x330100, 1, 0x4, 1, 0x4, 0x0, 0x7ff, 0x0⟩,
  ⟨0x330104, 1, 0x4, 1, 0x4, 0x0, 0x0, 0x0⟩,
  ⟨0x330140, 16, 0x4, 1, 0x4, 0x0, 0x0, 0x0⟩,
  ⟨0x3010000, 2, 0x100, 1, 0x4, 0x60, 0x1ff, 0x10000⟩,
  ⟨0x3010008, 2, 0x100, 1, 0x4, 0x0, 0xffffffc0, 0x0⟩,
  ⟨0x301000c, 2, 0x100, 1, 0x4, 0x0, 0xffffffff, 0x0⟩,
  ⟨0x3010010, 2, 0x100, 3, 0x4, 0x0, 0xffffffff, 0x0⟩,
  ⟨0x3010020, 2, 0x100, 3, 0x4, 0x0, 0xffffffff, 0x0⟩,
  ⟨0x3010030, 2, 0x100, 1, 0x4, 0x0, 0x0, 0x0⟩,
  ⟨0x3010034, 2, 0x100, 1, 0x4, 0x0, 0x0, 0x0⟩]

def regs_g : List RegRow := regs_g_0 ++ regs_g_1 ++ regs_g_2 ++ regs_g_3 ++ regs_g_4 ++ regs_g_5

def regs_all_0 : List RegRow := [
  ⟨0xf000, 4, 0x100, 64, 0x4, 0x0, 0x9fff, 0x0⟩,
  ⟨0xf400, 1, 0x4, 1, 0x4, 0x0, 0x0, 0x7f⟩,
  ⟨0xf404, 1, 0x4, 1, 0x4, 0x0, 0x0, 0x0⟩,
  ⟨0xf408, 1, 0x4, 1, 0x4, 0x0, 0x0, 0x0⟩,
  ⟨0xf40c, 1, 0x4, 1, 0x4, 0x0, 0x0, 0x0⟩,
  ⟨0xf410, 1, 0x4, 1, 0x4, 0x0, 0x0, 0x0⟩,
  ⟨0xf414, 1, 0x4, 1, 0x4, 0x0, 0x0, 0x0⟩,
  ⟨0xf418, 1, 0x4, 1, 0x4, 0x0, 0x0, 0x0⟩,
  ⟨0xf800, 1, 0x4, 1, 0x4, 0x0, 0x7, 0x0⟩,
  ⟨0xf804, 1, 0x4, 1, 0x4, 0x0, 0xffffffff, 0x0⟩,
  ⟨0xf808, 1, 0x4, 1, 0x4, 0x0, 0xffffffff, 0x0⟩,
  ⟨0xf80c, 1, 0x4, 1, 0x4, 0x0, 0x0, 0x0⟩,
  ⟨0xf840, 16, 0x8, 1, 0x4, 0x0, 0x0, 0x0⟩,
  ⟨0xf844, 16, 0x8, 1, 0x4, 0x0, 0x0, 0x0⟩]

def regs_all : List RegRow := regs_all_0

def regs_cz_0 : List RegRow := [
  ⟨0x0, 1, 0x4, 1, 0x4, 0x0, 0x0, 0x0⟩,
  ⟨0x100, 8, 0x10, 1, 0x4, 0x0, 0x3fff7f, 0x0⟩,
  ⟨0x104, 8, 0x10, 1, 0x4, 0x0, 0x0, 0x0⟩,
  ⟨0x108, 8, 0x10, 1, 0x4, 0x0, 0x0, 0x0⟩,
  ⟨0x10c, 8, 0x10, 1, 0x4, 0x0, 0x0, 0x0⟩,
  ⟨0x200, 1, 0x4, 1, 0x4, 0x0, 0x0, 0x1f⟩,
  ⟨0x204, 1, 0x4, 1, 0x4, 0x0, 0x0, 0x0⟩,
  ⟨0x208, 1, 0x4, 1, 0x4, 0x0, 0x0, 0x0⟩,
  ⟨0x20c, 1, 0x4, 1, 0x4, 0x0, 0x0, 0x0⟩,
  ⟨0xe000, 8, 0x40, 1, 0x4, 0x0, 0x1, 0x2⟩,
  ⟨0xe004, 8, 0x40, 1, 0x4, 0x0, 0x3fffff, 0x0⟩,
  ⟨0xe008, 8, 0x40, 1, 0x4, 0x0, 0x0, 0x0⟩,
  ⟨0xe00c, 8, 0x40, 1, 0x4, 0x0, 0x0, 0x0⟩,
  ⟨0xe010, 8, 0x40, 1, 0x4, 0x0, 0x0, 0x0⟩,
  ⟨0xe014, 8, 0x40, 1, 0x4, 0x0, 0x0, 0x0⟩,
  ⟨0xe018, 8, 0x40, 1, 0x4, 0x0, 0x0, 0x0⟩,
  ⟨0xe01c, 8, 0x40, 1, 0x4, 0x0, 0x0, 0x0⟩,
  ⟨0xe020, 8, 0x40, 1, 0x4, 0x0, 0x0, 0x0⟩,
  ⟨0xe024, 8, 0x40, 1, 0x4, 0x0, 0x0, 0x0⟩,
  ⟨0xe028, 8, 0x40, 1, 0x4, 0x0, 0x0, 0x0⟩,
  ⟨0x500, 16, 0x10, 1, 0x4, 0x0, 0x80007fff, 0x0⟩,
  ⟨0x504, 16, 0x10, 1, 0x4, 0x0, 0x1fff, 0x0⟩,
  ⟨0x508, 16, 0x10, 1, 0x4, 0x0, 0xffffffff, 0x0⟩,
  ⟨0x50c, 16, 0x10, 1, 0x4, 0x0, 0xffffffff, 0x0⟩,
  ⟨0x400, 8, 0x10, 1, 0x4, 0x0, 0xffff0001, 0x0⟩,
  ⟨0x404, 8, 0x10, 1, 0x4, 0x0, 0x0, 0x0⟩,
  ⟨0x408, 8, 0x10, 1, 0x4, 0x0, 0x0, 0x0⟩]

def regs_cz : List RegRow := regs_cz_0

def regs_sor_0 : List RegRow := [
  ⟨0x0, 1, 0x4, 1, 0x4, 0x0, 0x0, 0x0⟩,
  ⟨0x100, 8, 0x10, 1, 0x4, 0x0, 0x3fff7f, 0x0⟩,
  ⟨0x104, 8, 0x10, 1, 0x4, 0x0, 0x0, 0x0⟩,
  ⟨0x108, 8, 0x10, 1, 0x4, 0x0, 0x0, 0x0⟩,
  ⟨0x10c, 8, 0x10, 1, 0x4, 0x0, 0x0, 0x0⟩,
  ⟨0x200, 1, 0x4, 1, 0x4, 0x0, 0x0, 0x3f⟩,
  ⟨0x204, 1, 0x4, 1, 0x4, 0x0, 0x0, 0x0⟩,
  ⟨0x208, 1, 0x4, 1, 0x4, 0x0, 0x0, 0x0⟩,
  ⟨0x20c, 1, 0x4, 1, 0x4, 0x0, 0x0, 0x0⟩,
  ⟨0x210, 1, 0x4, 1, 0x4, 0x0, 0x0, 0x0⟩,
  ⟨0x500, 16, 0x10, 1, 0x4, 0x0, 0x80007fff, 0x0⟩,
  ⟨0x504, 16, 0x10, 1, 0x4, 0x0, 0x1fff, 0x0⟩,
  ⟨0x508, 16, 0x10, 1, 0x4, 0x0, 0xffffffff, 0x0⟩,
  ⟨0x50c, 16, 0x10, 1, 0x4, 0x0, 0xffffffff, 0x0⟩,
  ⟨0x400, 8, 0x10, 1, 0x4, 0x0, 0xffff0001, 0x0⟩,
  ⟨0x404, 8, 0x10, 1, 0x4, 0x0, 0x0, 0x0⟩,
  ⟨0x408, 8, 0x10, 1, 0x4, 0x0, 0x0, 0x0⟩]

def regs_sor : List RegRow := regs_sor_0

def regs_ing_0 : List RegRow := [
  ⟨0x500, 16, 0x10, 1, 0x4, 0x0, 0x80007fff, 0x0⟩,
  ⟨0x504, 16, 0x10, 1, 0x4, 0x0, 0x1fff, 0x0⟩,
  ⟨0x508, 16, 0x10, 1, 0x4, 0x0, 0xffffffff, 0x0⟩,
  ⟨0x50c, 16, 0x10, 1, 0x4, 0x0, 0xffffffff, 0x0⟩]

def regs_ing : List RegRow := regs_ing_0

def regs_eth_0 : List RegRow := [
  ⟨0x500, 16, 0x10, 1, 0x4, 0x0, 0x80007fff, 0x0⟩,
  ⟨0x504, 16, 0x10, 1, 0x4, 0x0, 0x1fff, 0x0⟩,
  ⟨0x508, 16, 0x10, 1, 0x4, 0x0, 0xffffffff, 0x0⟩,
  ⟨0x50c, 16, 0x10, 1, 0x4, 0x0, 0xffffffff, 0x0⟩]

def regs_eth : List RegRow := regs_eth_0

/-- The registers in the window of a unit kind, beside the mesh registers of every stop. -/
def kindRegs : Kind → List RegRow
  | .at => regs_at
  | .sft => regs_sft
  | .mt => regs_mt
  | .cz => regs_cz
  | .sor => regs_sor
  | .ing => regs_ing
  | .eth => regs_eth
  | _ => []

/-- Stop and offset of an address in a stop's window (R8). -/
def windowOf (a : Nat) : Option (Nat × Nat) :=
  if 0x01000000 ≤ a ∧ a < 0x02C00000 then some ((a - 0x01000000) / 0x10000, (a - 0x01000000) % 0x10000) else none

/-- The register at a word address of BAR0 (none: no register there, R6). -/
def regRow (a : Nat) : Option RegRow :=
  match windowOf a with
  | some (stop, off) =>
    match (kindRegs (kindOf stop)).find? fun r => r.has off with
    | some r => some r
    | none => regs_all.find? fun r => r.has off
  | none => regs_g.find? fun r => r.has a

/-- The kind code of an ID register (R69, R93, R127, R286). -/
def kindCode : Kind → Nat
  | .at => 1 | .sft => 2 | .mt => 3 | .cz => 4 | .sor => 5 | _ => 0

/-- An ID register's value: kind, die, stepping B0 and stop. -/
def idReg (stop : Nat) : Word :=
  BitVec.ofNat 32 (kindCode (kindOf stop) + dieOf stop * 16 + 0xB0 * 256 + stop * 65536)

/-- The reset value of the register at an address (0 where there is none, R6). -/
def regReset (a : Nat) : Word :=
  match windowOf a with
  | some (stop, off) =>
    if off = 0 ∧ kindCode (kindOf stop) ≠ 0 then idReg stop
    else if off = 0x000C ∧ kindOf stop = .mt then BitVec.ofNat 32 (mtIndex stop)
    else BitVec.ofNat 32 ((regRow a).elim 0 RegRow.reset)
  | none => BitVec.ofNat 32 ((regRow a).elim 0 RegRow.reset)

end Sys2Proof.Machine
end

