-- ==== Sys2Proof/Config.lean ====
section
/-! DEFINITION. The constants that the part fixes, and the free values: constants without a body, so that nothing can
be proved of their values. -/

namespace Sys2Proof.Config

/-- R63: the product that a cell caught in a switch between direct and codebook mode adds, which the manual does not
specify. Free value (log 10); the meaning bounds it as R63 does. -/
opaque caughtProduct : Nat → Int

/-- R182: what stands in a work-memory byte that another operation touched while a RUN was using it. Free value
(log 10). -/
opaque touchedByte : Nat → Byte

/-- R449: the 64-bit serial that the part derives from its PUF array. Free value (log 9). -/
opaque serial : Nat → W64

/-- R449: the device identity, a SHA-384 digest, of the part. Free value (log 9). -/
opaque identity : Nat → BitVec 384

/-- R481: the n-th challenge that the governor's DRBG draws. Free value (log 9). -/
opaque challenge : Nat → BitVec 384

/-- R458, R459: the signature bytes of an attestation report over a body. Free value (log 9). -/
opaque reportSignature : List Byte → List Byte

/-- R452: the HMAC under the MAC key over a device block. Free value (log 9). -/
opaque deviceMac : BitVec 384 → List Nat → BitVec 384

/-- The values that the spec leaves unstated for a value of an operand, by the rule that leaves them open. Free value
(log 10). -/
opaque unstated : Nat → Nat → Nat

/-- R447, R457: the key hashes in mask ROM: the vendor's in slots 0 to 3, the Capsule's in slots 0 and 1. The spec gives
no value of them. Free values (log 9). -/
opaque vendorKey : Nat → BitVec 384
opaque capsuleKey : Nat → BitVec 384

/-- R459: the bytes of the device certificate object, written at manufacture. Free value (log 9). -/
opaque certificate : Nat → Byte

/-- Length in bytes of the signatures that follow an attestation report: RSASSA-PSS, 384, and SLH-DSA, 16,224
(R445, R459). -/
def reportSigLen : Nat := 384 + 16224

end Sys2Proof.Config
end

