-- ==== Sys2Proof/Machine/TileState.lean ====
section
/-! DEFINITION. The state of tiles that is no BAR0 register: schedules, landing queues, monitors, array, memory and
special-function tiles. Each structure's default value is its state after reset. -/

namespace Sys2Proof.Machine

/-- What a schedule holds beside its registers (R137, R146, R148, R155). `hid` is the hidden fifth arm slot: 0 idle,
1 pending, 2 set. `reqs` are the arm slots (4: hidden) with a request at a sync unit, `cancels` those whose cancel has
not been acknowledged, each with its object; `fresh` the slots whose reply crossed after the last tile cycle began; `metAt` the tile cycle in which a
WAITS was met last (R231, code 13). -/
structure Sched where
  rep : Nat := 0
  cyc : Nat := 0
  hid : Nat := 0
  waitLen : Nat := 0
  wdDone : Bool := false
  reqs : List Nat := []
  cancels : List (Nat × Nat) := []
  fresh : List Nat := []
  metAt : Option Nat := none
  pmUe : List Nat := []
  pmCe : List Nat := []
  deriving DecidableEq, Repr

/-- A flit in a landing queue with the header fields kept (R224); `op` 2 is an abort mark (R225). -/
structure LFlit where
  op : Nat := 0
  tag : Tag := 0
  epoch : Tag := 0
  payload : Payload := 0
  deriving DecidableEq, Repr

/-- A landing queue, the last flit popped from it (R164) and how many were popped (R240). -/
structure LandQ where
  q : List LFlit := []
  last : LFlit := {}
  pops : Nat := 0
  deriving DecidableEq, Repr

/-- A set of a monitor slot (R46, R48). -/
structure MonSet where
  count : Nat := 0
  sse : Nat := 0
  sseSat : Bool := false
  satLo : Nat := 0
  satHi : Nat := 0
  ovf : Nat := 0
  nan : Nat := 0
  tag : Tag := 0
  epoch : Tag := 0
  deriving DecidableEq, Repr

/-- A monitor slot: the live set (none: empty, R46) and the latched set. -/
structure Mon where
  live : Option MonSet := none
  latched : MonSet := {}
  deriving DecidableEq, Repr

/-- A vector in the array (R50). `codes` and `sides` are the values as popped; `xa` and `tab` hold what each row's west
register formed, row 0 first (`tab` empty for a direct row); `psum` holds the 128 partial sums; `res` what the columns
have narrowed, column 0 first, each with a mark for a wide column. `old` says that the vector uses the pending copy of
the configuration (R255); `par` holds the bias and scale words of the columns that narrow in the tile cycle under way, as
they stood at its start (R62). -/
structure Flight where
  t : Nat
  v : Nat
  codes : List Byte
  sides : List Int
  xa : List Int := []
  tab : List (List Int) := []
  psum : Tbl Int := []
  side : Tbl Int := []
  first : Bool
  last : Bool
  pbank : Nat
  tag : Tag
  epoch : Tag
  res : Tbl Int := []
  wide : List (Nat × Int) := []
  cb : Bool := false
  old : Bool := false
  par : List (Int × Nat × Nat) := []
  deriving DecidableEq, Repr

/-- The latest pass opened (R49): its fields and the next vector's index. -/
structure Pass where
  next : Nat
  accFirst : Bool
  accLast : Bool
  pbank : Nat
  deriving DecidableEq, Repr

/-- A LOADW under way (R59): the tile cycle in which row 0 moves and the granules named. -/
structure LoadW where
  l : Nat
  w : Nat
  k : Option Nat
  s : Option Nat
  p : Option (Nat × Nat)
  deriving DecidableEq, Repr

/-- The output register (R56): its 128 code bytes, wide values, the format of its pass, the tile cycle in which it was
presented, and whether a SENDV took it. -/
structure OutReg where
  codes : List Byte := []
  wide : List (BitVec 16) := []
  cb : Bool := false
  at_ : Option Nat := none
  taken : Bool := true
  deriving DecidableEq, Repr

/-- An array tile. Cells are keyed row × 64 + column, codebooks row × 16 + entry, side weights as in an S granule (R57),
accumulators column × 256 + entry, store words by number for the error lists; `held` counts the error notices that wait for
a VEC (R58), `chainIn` the beats of a chain message that reach the head over the mesh. -/
structure At where
  act : Tbl Byte := []
  shd : Tbl Byte := []
  cbA : Tbl Byte := []
  cbS : Tbl Byte := []
  sdA : Tbl Byte := []
  sdS : Tbl Byte := []
  acc : Tbl (Int × Bool) := []
  ws : Tbl Byte := []
  wsUe : List Nat := []
  wsCe : List Nat := []
  fl : List Flight := []
  swaps : List Nat := []
  ld : Option LoadW := none
  out : OutReg := {}
  pass : Option Pass := none
  held : Nat := 0
  chainIn : List Byte := []
  deriving DecidableEq, Repr

/-- R40, R80: a pairing under way in an array or special-function tile: the last tile cycle before `block_ok` takes the
value. -/
structure Pairing where
  at_ : Nat
  ok : Bool
  deriving DecidableEq, Repr

/-- A side-RAM entry (R102). -/
structure SideEnt where
  link : Nat := 0
  tag : Tag := 0
  sop : Bool := false
  eop : Bool := false
  deriving DecidableEq, Repr

/-- A write that takes a bank in the tile cycle under way (R97); `fe` says the fetch port, the bits of `mask` which quarters of
the word it writes. -/
structure BankWr where
  bank : Nat
  word : Nat
  data : BitVec 256
  fe : Bool
  mask : Nat := 15
  deriving DecidableEq, Repr

/-- Where the words that MO reads go: into a flit that leaves on a route, into context registers, to the fetch engine, or to a
spill segment. -/
inductive MoUse where
  /-- a flit: ready cycle, route, push type, tag, epoch, queue whose last value popped it is -/
  | send (ready rt op : Nat) (tag epoch : Tag) (lastQ : Option Nat)
  /-- a handle (half `h` of the cell, bit offset `bit`): cycle of the write, register, tag, queue -/
  | handle (at_ cr bit : Nat) (tag : Tag) (q : Nat)
  /-- a handle that the fetch engine pops for a slot: slot, bit offset, tag, queue -/
  | engine (slot bit : Nat) (tag : Tag) (q : Nat)
  /-- a cell of a queue that is on its way to a segment -/
  | spill (q : Nat)
  /-- a read of the host, already made (R99) -/
  | host
  deriving DecidableEq, Repr

/-- A read through MO (R97): the cell, which halves are read, and its use. -/
structure MoRead where
  cell : Nat
  lo : Bool
  hi : Bool
  tag : Tag
  use : MoUse
  deriving DecidableEq, Repr

/-- One expander step's read (R196): the lanes that name a bank, as (lane, bank, word), and where its segment goes. For
each position the segment takes a byte of a window lane, or the padding byte. -/
structure ExRead where
  lanes : List (Nat × Nat × Nat)
  pos : List (Option (Nat × Nat))
  zp : Byte
  buf : Nat
  row : Nat
  col : Nat
  land : Nat
  tag : Tag
  deriving DecidableEq, Repr

/-- A segment on its way to the transpose buffer (R196). -/
structure XStep where
  land : Nat
  buf : Nat
  row : Nat
  col : Nat
  seg : List Byte
  deriving DecidableEq, Repr

/-- A flush (R197): its buffer, the tile cycle in which its block's last segment lands, that of write 0, and the slot that
its cells go to. `keep` is false once a pointer return has come: the slot pointer then becomes 0 and does not advance. -/
structure Flush where
  buf : Nat
  tcl : Nat
  start : Nat
  keep : Bool
  slot : Nat := 0
  deriving DecidableEq, Repr

/-- What the accesses of the tile cycle under way are (R97, R98), and the pool cells freed in it, as (queue, cell) in the
order in which they join the free list (R102). -/
structure MtCycle where
  wr : List BankWr := []
  mi : Bool := false
  fe : Bool := false
  ex : Option ExRead := none
  mo : List MoRead := []
  frees : List (Nat × Nat) := []
  deriving DecidableEq, Repr

/-- A cell on its way to a segment (R244): the cell, for a handle queue the slots of its handles that go, and its side entry
and data once they have been read and sent. -/
structure SpCell where
  cell : Nat
  slots : List Nat := []
  sent : Option (Nat × Payload) := none
  deriving DecidableEq, Repr

/-- A spill of a queue (R244, R245): segment number, its address and size, cells written and restored, cells whose writes are
not acknowledged, cells of the staging region in order, the last cell of the head region, whether the queue has entered spilled
state, the tag of the packet that is being restored, acknowledgements that have come back and are not yet taken, and whether the
cell at the front of the segment has been asked for (1) or has come back (2). -/
structure Spill where
  seg : Nat
  base : Nat
  cells : Nat
  wr : Nat
  rd : Nat
  writing : List SpCell
  staged : List SpCell
  headLast : Nat
  entered : Bool := false
  tag : Tag := 0
  acks : Nat := 0
  asked : Nat := 0
  deriving DecidableEq, Repr

/-- What a cushion queue holds beside its descriptor: the last value popped and its tag (R107); of a handle queue where
its handles lie in order, as cell × 8 + place, and their tags (R111); the open packet's tag and the tail before it (R105,
R106); restored cells whose pop returns no credit (R246), handles that a fill placed and that return none either (R113), and
whether the rest of a discarded packet is still in the segment; pushes and pops counted for the probe (R240); its spill and the aging window of the latest one. -/
structure QX where
  last : Payload := 0
  lastTag : Tag := 0
  slots : List Nat := []
  tags : List Tag := []
  openTag : Tag := 0
  preTail : Nat := 0
  restored : List Nat := []
  filled : List Nat := []
  skip : Bool := false
  pushes : Nat := 0
  pops : Nat := 0
  spill : Option Spill := none
  lastWindow : Option Nat := none
  deriving DecidableEq, Repr

/-- A stream slot's progress (R118 to R122): the next element, the element at which the reserved packet ends, the next
cell to push, data returned as (element, bytes), the handles of packets reserved and not finished, cells reserved, a
stop under way (1 fault, 2 halt, 3 change of epoch), and whether the pop of a handle is under way. `pkt` counts the packets
pushed; `crop` is the ring, its slots and the frame of a stream that reads a frame store (R14). -/
structure Strm where
  next : Nat := 0
  resvEnd : Nat := 0
  pkt : Nat := 0
  cell : Nat := 0
  data : Tbl (List Byte) := []
  handles : List Word := []
  resv : Nat := 0
  stopping : Nat := 0
  fillStale : Bool := false
  popping : Bool := false
  crop : Option (Nat × Nat × Nat) := none
  deriving DecidableEq, Repr

/-- A gather buffer of a ring writer (R191): first position, positions gathered, bytes keyed position × 64 + plane,
whether it is complete. -/
structure Gather where
  x0 : Nat
  n : Nat
  bytes : Tbl Byte
  full : Bool
  ends : Bool
  deriving DecidableEq, Repr

/-- A ring writer (R189 to R193): its gather buffers in order, flits that have left for it, the data rows completed in
the frame, the ring row that it writes, the pad rows that wait below a frame and above one, and the cells written of the gather
buffer or pad row that is being written. -/
structure Writer where
  bufs : List Gather := []
  resv : Nat := 0
  dataRows : Nat := 0
  rho : Nat := 0
  bot : Nat := 0
  top : Nat := 0
  cell : Nat := 0
  deriving DecidableEq, Repr

/-- A memory tile. Bank words are keyed bank × 3,072 + word, quarters with errors bank word × 4 + quarter. `hrets` and `ctxw` hold
HRET pushes and handle writes that wait for their latency, `xread` the cells that the steps of the block being filled read; `curTag` is
the block tag that the latest tagged operation of the tile carried. -/
structure Mt where
  banks : Tbl (BitVec 256) := []
  bkUe : List Nat := []
  bkCe : List Nat := []
  latch : Tbl (BitVec 256) := []
  side : Tbl SideEnt := []
  sideUe : List Nat := []
  free : List Nat := []
  cy : MtCycle := {}
  qx : Tbl QX := []
  strm : Tbl Strm := []
  xb : Tbl Byte := []
  steps : List XStep := []
  flushes : List Flush := []
  xread : List Nat := []
  wrt : Tbl Writer := []
  hrets : List (Nat × Nat × Word × Tag) := []
  ctxw : List (Nat × Nat × Word × Word) := []
  curTag : Tag := 0
  deriving DecidableEq, Repr

/-- A write that waits for its latency (R178): the last tile cycle before it shows, and its target: a vector register
(0 to 7) or work-memory bytes at a local address. -/
inductive SftTarget where
  | vreg (n : Nat) (lanes : List Word)
  | bytes (addr : Nat) (data : List Byte)
  deriving DecidableEq, Repr

structure SftWrite where
  at_ : Nat
  target : SftTarget
  deriving DecidableEq, Repr

/-- A RUN under way (R182): its last tile cycle, its results as (local address, bytes), the work-memory units it reads
and writes as (first, count), and whether another operation touched one. -/
structure Run where
  last : Nat
  results : List (Nat × List Byte)
  uses : List (Nat × Nat)
  touched : Bool
  deriving DecidableEq, Repr

/-- A special-function tile: local SRAM bytes, failing 64-bit words, vector registers keyed register × 64 + lane, and the last tile
cycles of the sends in progress (R93). -/
structure Sft where
  lm : Tbl Byte := []
  lmUe : List Nat := []
  lmCe : List Nat := []
  v : Tbl Word := []
  wr : List SftWrite := []
  run : Option Run := none
  outs : List Nat := []
  deriving DecidableEq, Repr

end Sys2Proof.Machine
end

