-- ==== Sys2Proof/Machine/MeshState.lean ====
section
/-! DEFINITION. The state of the mesh, of the sync units and of what is in flight between units: sync operations,
replies, notices, events, chain messages and fetch reads. -/

namespace Sys2Proof.Machine

/-- A sync operation on its way to its unit (R151, R152). `slot` of a wait is its arm slot (4: hidden). -/
inductive SyncMsg where
  | signal (obj : Nat) (amount : Word) (src : Nat)
  | reset (obj src : Nat)
  | wait (obj : Nat) (thr : Word) (src slot : Nat)
  | cancel (obj src slot : Nat)
  deriving DecidableEq, Repr

def SyncMsg.obj : SyncMsg → Nat
  | .signal o _ _ => o
  | .reset o _ => o
  | .wait o _ _ _ => o
  | .cancel o _ _ => o

def SyncMsg.src : SyncMsg → Nat
  | .signal _ _ s => s
  | .reset _ s => s
  | .wait _ _ s _ => s
  | .cancel _ s _ => s

/-- An entry of a wait table (R153). -/
structure WaitEnt where
  obj : Nat
  thr : Word
  src : Nat
  slot : Nat
  deriving DecidableEq, Repr

/-- A reply to a wait on an object, or the acknowledgement of a cancel, on its way to its tile (R151). -/
structure Reply where
  stop : Nat
  slot : Nat
  obj : Nat
  ack : Bool
  deriving DecidableEq, Repr

/-- The notices that flag frames (R43, R58, R14). -/
inductive NoticeKind where
  | error | skew | overwrite
  deriving DecidableEq, Repr

/-- A notice: what it says, the pipeline and the tag that it names, and the Sorus engine that it goes to (R281). -/
structure Notice where
  kind : NoticeKind
  pipe : Nat
  tag : Option Tag
  dst : Nat := 0
  deriving DecidableEq, Repr

/-- An event on its way to the governor. Codes 1 to 13 are those of R420; 0 a wait watchdog (R150), 14 a hazard (R230),
15 a fault that the governor treats as R18 (R110, R134). -/
structure Event where
  code : Nat
  stop : Nat
  value : Nat
  pipe : Option Nat
  deriving DecidableEq, Repr

/-- What an unreserved flit carries: a sync operation, a reply, a notice, an event, or a spill access of a memory tile's queue, a
write or the read of a cell (R245), with its acknowledgement or return. -/
inductive UMsg where
  | op (m : SyncMsg)
  | reply (r : Reply)
  | notice (n : Notice)
  | event (e : Event)
  | spill (tile q : Nat) (read back : Bool)
  deriving DecidableEq, Repr

/-- Where an unreserved flit is (R218): with its sender, in a stop's buffer of an incoming link (4: of the stop's own unit), or on
outgoing link `out` since a CK_MESH cycle, coming from such a buffer. -/
inductive UPlace where
  | source
  | buffer (inl : Nat)
  | link (inl out enter : Nat)
  deriving DecidableEq, Repr

/-- An unreserved flit: its header, what it carries, and its place at a stop or on a link from it. -/
structure UFlit where
  flit : Flit
  msg : UMsg
  stop : Nat
  place : UPlace := .source
  deriving DecidableEq, Repr

/-- A flit in a tile-to-mesh crossing (R219): the unfrozen tile cycle from which it can be in the injection FIFO. -/
structure Xing where
  stop : Nat
  rt : Nat
  flit : Flit
  ready : Nat
  deriving DecidableEq, Repr

/-- A flit in an injection FIFO and the CK_MESH cycle of its arrival (R216). -/
structure Waiting where
  flit : Flit
  since : Nat
  deriving DecidableEq, Repr

/-- A reserved flit on a link (R210): the stop it left, the link, and the CK_MESH cycle in which it entered it, and
whether another flit needed the link in that cycle. -/
structure Flying where
  flit : Flit
  stop : Nat
  link : Nat
  enter : Nat
  collided : Bool := false
  deriving DecidableEq, Repr

/-- The mesh: crossings, injection FIFOs (stop × 16 + route), the cycle after the latest departure of each, reserved flits on links,
arrival buffers, the cycle after the latest departure of each, flits crossing from an arrival buffer into their unit, and unreserved
flits. -/
structure Mesh where
  cross : List Xing := []
  inj : Tbl (List Waiting) := []
  flying : List Flying := []
  arr : Tbl (List Flit) := []
  dep : Tbl Nat := []
  into : List (Nat × Flit) := []
  injCk : Tbl Nat := []
  uns : List UFlit := []
  deriving DecidableEq, Repr

/-- A mirrored header (R484): the 80 bits, the observing stop, the point, the CK_MESH cycle and the time. -/
structure TraceRec where
  hdr : Nat
  stop : Nat
  point : Nat
  ck : Nat
  time : Nat
  deriving DecidableEq, Repr

/-- A die's trace (R483): records held in its routers, records staged in its trace stop, and a gap to mark. -/
structure Trace where
  routers : List TraceRec := []
  stage : List TraceRec := []
  gap : Bool := false
  deriving DecidableEq, Repr

/-- A fetch read (R121 to R123): its stop and slot, the first element and how many it covers, the HBM address of its
64-byte block, the stamped key, and whether the port has admitted it. -/
structure FRead where
  stop : Nat
  slot : Nat
  el : Nat
  n : Nat
  addr : Nat
  key : Nat
  admitted : Bool
  deriving DecidableEq, Repr

/-- The regulator's accumulators (R124): stack A, stack B, global. -/
structure Bucket where
  accA : Nat := 0
  accB : Nat := 0
  accG : Nat := 0
  deriving DecidableEq, Repr

/-- A chain message on its way to a tile (R66), and the tile's port that it comes by, as `in_port` codes it (R72). -/
structure ChainFly where
  stop : Nat
  msg : ChainMsg
  port : Nat := 0
  deriving DecidableEq, Repr

/-- HBM (R15, R116): its bytes, and the 64-bit words with an uncorrectable or a correctable error. -/
structure Hbm where
  bytes : Tbl Byte := []
  ue : List Nat := []
  ce : List Nat := []
  deriving DecidableEq, Repr

/-- The four sync units: operations that have reached their unit, in the order in which it applies them (R152), wait tables (entries in
order of arrival), replies that have reached their tile; by unit, the cycle after the one in which operations reached it last and how
many of them did. -/
structure Sync where
  msgs : List SyncMsg := []
  waits : List WaitEnt := []
  replies : List Reply := []
  came : Tbl (Nat × Nat) := []
  deriving DecidableEq, Repr

/-- What a probe wave reports of one node (R240): tiles, cushion queues, landing queues, sync objects; its numbers are
those of the table. -/
structure Report where
  kind : Nat
  node : Nat
  nums : List Nat
  deriving DecidableEq, Repr

/-- A probe under way (R239, R240): its first wave and the CK_MESH cycle in which that completed. -/
structure Probe where
  on : Bool := false
  wave : Option (List Report × Nat) := none
  deriving DecidableEq, Repr

end Sys2Proof.Machine
end

