-- ==== Sys2Proof/Machine/BootState.lean ====
section
/-! DEFINITION. The boot flash and the boot state (R445 to R460), the power controller's state (R424 to R444). -/

namespace Sys2Proof.Machine

/-- A committed firmware bank (R448): its object and its stage generation. -/
structure FwBank where
  obj : SignedObj
  gen : Nat
  deriving DecidableEq, Repr

/-- A committed owner slot (R452): the record, and the device block's generation, minima (types 1, 2, 4, 6) and HMAC. -/
structure OwnerSlot where
  obj : SignedObj
  body : OwnerBody
  gen : Nat
  minima : List Nat
  mac : BitVec 384
  deriving DecidableEq, Repr

/-- The boot flash and what the boot ROM and the governor hold beside the SEC registers. `helper` says that the device
area holds good helper data; `started` that the firmware's start-up is complete; `fwRatchet` that the firmware booted has
`ratchet` set; `vendorMask` is the mask in force; `owner` the slot in force; `stageObj` to `stageErr`
are staging under way: its type, object, contents and what is wrong with it; `attBody` the body of a report being built and
`attAt` the time it was begun, `report` the latest report. -/
structure Boot where
  bank0 : Option FwBank := none
  bank1 : Option FwBank := none
  defRhz : Option (SignedObj × RhzDesign) := none
  slots : Tbl (Option OwnerSlot) := []
  helper : Bool := true
  started : Bool := false
  fwRatchet : Bool := false
  vendorMask : Nat := 15
  owner : Option Nat := none
  stageObj : Option (Nat × SignedObj) := none
  stageRhz : Option RhzDesign := none
  stageOwner : Option OwnerBody := none
  stageErr : Nat := 0
  attBody : Option (List Byte) := none
  attAt : Nat := 0
  report : List Byte := []
  deriving DecidableEq, Repr

/-- The power controller (R424 to R444). `held` enabling writes that wait for a domain, as (address, value, size), by
domain; `saved` what the save area holds of a domain's registers (R430, step 2); `counted` domains whose refusal has been counted; `stuck` domains whose quiesce timed out; `woken` domains
in entry that a wake has reached; `l2` says that the PCI Express link is in L2; `wakeL` that the part drives WAKE_L;
`vector` that a wake's vector 133 waits for D_HOST; `stopAt` the time
at which a domain entered Stop, `stopNs` nanoseconds of its earlier stays there, `entryAt` at which its quiesce began; `opStart` the time at which a point change began and
`opPrev` the point before it; `islands` the frequencies of THROTTLE by island; `gone` the reference clocks that are lost (R470). -/
structure Pwr where
  held : Tbl (List (Nat × W64 × Nat)) := []
  saved : Tbl (List (Nat × Word)) := []
  counted : List Nat := []
  stuck : List Nat := []
  woken : List Nat := []
  l2 : Bool := false
  wakeL : Bool := false
  vector : Bool := false
  stopAt : Tbl Nat := []
  stopNs : Tbl Nat := []
  entryAt : Tbl Nat := []
  opPrev : Nat := 2
  opStart : Nat := 0
  islands : Tbl Nat := []
  gone : List Nat := []
  deriving DecidableEq, Repr

end Sys2Proof.Machine
end

