-- ==== Sys2Proof/Machine/HostState.lean ====
section
/-! DEFINITION. The state of the host interface and of the pipelines that is no BAR0 register (R399 to R423, R237 to
R260). -/

namespace Sys2Proof.Machine

/-- R399: the part's one PCI Express function as its configuration space names it: identity, BARs as (64-bit, prefetchable, bytes), the
fastest link as (GT/s, lanes), the limits of payload and of read request in bytes, and MSI-X vectors. -/
structure PcieFunction where
  vendor : Nat
  device : Nat
  revision : Nat
  classCode : Nat
  bar0 : Bool × Bool × Nat
  bar2 : Bool × Bool × Nat
  link : Nat × Nat
  payload : Nat × Nat
  readRequest : Nat × Nat
  vectors : Nat
  deriving DecidableEq, Repr

def pcieFunction : PcieFunction :=
  { vendor := 0x1DF6, device := 0x9648, revision := 0xB0, classCode := 0x120000, bar0 := (true, false, 64 * 2 ^ 20)
    bar2 := (true, true, 64 * 2 ^ 30), link := (32, 16), payload := (128, 512), readRequest := (128, 4096), vectors := 256 }

/-- A command that HST has fetched (R405, R409): the device that sent it, its submission ring and the 64 bytes. -/
structure Cmd where
  origin : Nat
  ring : Nat
  entry : Payload
  deriving DecidableEq, Repr

/-- A record on its way to a record ring (R283, R417). -/
structure Rec where
  ring : Nat
  data : Payload
  deriving DecidableEq, Repr

/-- A command or a completion that leaves for another part (R332): where it goes, the part whose host sent the command,
its submission ring, and the 64 bytes; `back` for a completion. -/
structure Relay where
  dest : Nat
  origin : Nat
  ring : Nat
  entry : Payload
  back : Bool
  deriving DecidableEq, Repr

/-- The host stop and the governor's mailbox and event buffer. `cmds` are fetched commands that have not begun, in the
order of their fetch; `compl` completions that wait, as (completion ring, entry); `recs` the staging buffer; `gwRecs`
the type 3 records that the Capsule gateway holds back; `halted` rings in error, as kind × 64 + ring (kinds 0 SQ, 1 CQ,
2 RR); `unsig` entries written since a ring's last signal and `unsigAt` the time of the first; `turn` the submission ring after which the round robin goes
on; `seqs` last accepted sequence numbers by origin × 64 + ring, with 0 unlisted; `tun` the tunables that are not at
their default, by id; `events` those that wait in the governor; `relay` commands and completions that leave for other
parts; `away` forwarded commands of this part whose completion has not come back, as (ring, seq); `mbx` a mailbox command under way: its
status and the value to return. -/
structure HostSt where
  cmds : List Cmd := []
  compl : List (Nat × Payload) := []
  recs : List Rec := []
  gwRecs : List Rec := []
  halted : List Nat := []
  unsig : Tbl Nat := []
  unsigAt : Tbl Nat := []
  turn : Nat := 63
  seqs : Tbl Word := []
  tun : Tbl Nat := []
  events : List Payload := []
  relay : List Relay := []
  away : List (Nat × Word) := []
  mbx : Option (Nat × Option Word) := none
  deriving DecidableEq, Repr

/-- What the governor keeps of a loaded pipeline's manifest and image: its entry, the domains of its units, memory and cameras (R427), tiles, engine jobs, cameras, HBM
regions beside its cameras' rings as (base, length), initial sync values, ends of its queues, the tiles that signal each object as (tile, object), the skew queues of its image,
whether its image declares channels, the parts that its channels reach, and the digest of the image. -/
structure PipeInfo where
  entry : PipeEntry
  doms : List Nat
  stops : List Nat
  jobs : List JobBind
  cams : List Nat
  regions : List (Nat × Nat)
  syncInit : List (Nat × Word)
  ends : List QueueEnds
  signals : List (Nat × Nat)
  skew : List SkewQueue
  channels : Bool
  peers : List Nat
  digest : BitVec 384
  deriving DecidableEq, Repr

/-- A configuration update being armed (R254): F, its epoch, the time of its start, the command, the mask of the image's
pipelines and its digest. -/
structure Update where
  frame : Nat
  epoch : Nat
  start : Nat
  cmd : Cmd
  mask : Nat
  digest : BitVec 384
  deriving DecidableEq, Repr

/-- The steps of R251 that a pipeline is in: none; 1 halting for STOP; 2 halting for CANCEL (steps 1 and 2); 3 epoch
advanced, draining (steps 3 and 4); 4 emptied, waiting G cycles (steps 5 and 6). -/
structure Pipe where
  info : Option PipeInfo := none
  phase : Nat := 0
  since : Nat := 0
  cmd : Option Cmd := none
  update : Option Update := none
  ctr : Tbl Nat := []
  stuck : List Nat := []
  again : Option Nat := none
  probeAt : Nat := 0
  deriving DecidableEq, Repr

/-- A loaded image (R415, R459): its digest, the mask of pipelines that it loaded and that are still loaded, and what it
takes of each stack: bytes, segments (R248), the number of its first segment and the address of its reserve. -/
structure Loaded where
  digest : BitVec 384
  profile : Nat
  pipes : List Nat
  hbmA : Nat
  hbmB : Nat
  segCells : Nat
  segA : Nat
  segB : Nat
  firstA : Nat
  firstB : Nat
  baseA : Nat
  baseB : Nat
  deriving DecidableEq, Repr

/-- Commands that run for longer than a step: JOIN with its ports and start (R411), CAPTURE (R391), an INJECT has none.
-/
structure JoinRun where
  cmd : Cmd
  ports : List Nat
  digest : BitVec 256
  stepOk : Bool
  start : Nat
  deriving DecidableEq, Repr

/-- The part's pipelines and its commands under way: `imgs` the loaded images, `chainTotal` the end signals that weight
chaining of the latest LOAD waits for, as (object, message), `join`, `capture`. -/
structure Gov where
  pipes : Tbl Pipe := []
  imgs : List Loaded := []
  join : Option JoinRun := none
  capture : Option Cmd := none
  deriving DecidableEq, Repr

end Sys2Proof.Machine
end

