-- ==== Sys2Proof/Machine/IngestState.lean ====
section
/-! DEFINITION. The state of ingest (R287 to R308) and of the Crozier and Sorus engines (R262 to R286) that is no BAR0
register. -/

namespace Sys2Proof.Machine

/-- A delivery as a frame found it at its start (R298): its number, its first two words, whether it sends, and whether its
pipeline has stopped it, so that its lines are dropped and counted (R251, step 1). -/
structure Dlv where
  d : Nat
  cfg : Word
  cred : Word
  live : Bool
  stopped : Bool := false
  deriving DecidableEq, Repr

/-- A frame in progress, or ended and not yet written complete (R291, R301, R306): sequence, the camera's registers as
its start found them, next line index, lines written and abandoned, status word, the lines counted in `lost_lines` and how
many more never came, stamps of line 0 and of the last line, encoder positions of lines 64k, deliveries. -/
structure Frame where
  seq : Nat
  cfg : Word
  frm : Word
  ring : Word
  geom : Word
  lat : Word := 0
  idx : Nat := 0
  stored : Nat := 0
  status : Nat := 0
  lostAt : List Nat := []
  missed : Nat := 0
  t0 : Nat := 0
  p0 : Word := 0
  tn : Nat := 0
  pn : Word := 0
  marks : List Word := []
  dlv : List Dlv := []
  deriving DecidableEq, Repr

/-- A frame-store write under way (R295, R302): where it goes; its bytes; the line that it belongs to, as (frame, line),
and whether it is the line's last; `final` says that it is the frame's complete slot entry, made when it is written. -/
structure FsWrite where
  addr : Nat
  data : List Byte
  line : Option (Nat × Nat)
  last : Bool
  final : Option Nat
  deriving DecidableEq, Repr

/-- A line held in the line buffer: the frames that it is written for, as (frame, index), its bytes of buffer, and the links
whose buffers hold it. -/
structure HeldLine where
  places : List (Nat × Nat)
  size : Nat
  links : List Nat := []
  deriving DecidableEq, Repr

/-- A line that arrives (R292): its stamp and the credit objects' values read at its first pixel word, as
(object, value). -/
structure LineIn where
  time : Nat
  pos : Word
  vals : List (Nat × Word)
  unsync : Bool
  deriving DecidableEq, Repr

/-- A GigE Vision block being received (R294): its identifier, whether its payload type is Image, the packet size, its bytes,
the packets that came, and how many of its lines have been taken. -/
structure GvBlock where
  block : Nat
  image : Bool := true
  size : Nat
  bytes : Tbl Byte
  got : List Nat
  next : Nat := 0
  deriving DecidableEq, Repr

/-- An INJECT under way (R299): its command and the lines still to be taken from the host's buffer. -/
structure Inject where
  cmd : Cmd
  lines : List (List Byte)
  deriving DecidableEq, Repr

/-- A camera. `trig` are edges whose packets wait, as (rising, time), the first being sent (R293); `inj` the INJECTs whose
lines are not all stored, the oldest first; `rebound` says that a load has bound the camera anew, which takes effect at its next
frame start (R298). -/
structure Cam where
  line : Option LineIn := none
  frames : List Frame := []
  ended : List Frame := []
  held : List HeldLine := []
  writes : List FsWrite := []
  trig : List (Bool × Nat) := []
  gv : Option GvBlock := none
  inj : List Inject := []
  rebound : Bool := false
  deriving DecidableEq, Repr

/-- Ingest: cameras, the control buffers of the CoaXPress links: words received, words that wait to be sent, words sent. -/
structure Ingest where
  cams : Tbl Cam := []
  ctlRx : Tbl (List Word) := []
  ctlTx : Tbl (List Word) := []
  ctlSent : Tbl (List Word) := []
  deriving DecidableEq, Repr

/-- The input of a FIRST job (R267): the frame that it works on, the indices of the lines that have come whole, whose samples stand
in the line buffer (R269), the index of the line expected next, the line that is coming in (index, bytes), whether later lines show that the frame has
ended, and the next output row. -/
structure RawIn where
  frame : Nat
  lines : List Nat
  latest : Nat
  part : Option (Nat × List Byte)
  ended : Bool
  oy : Nat
  deriving DecidableEq, Repr

/-- A candidate box (R274 to R276): number, score, class, centre, size, angle. -/
structure Box where
  num : Nat
  score : Int
  cls : Nat
  cx : Int
  cy : Int
  w : Nat
  h : Nat
  th : Nat
  deriving DecidableEq, Repr

/-- A region of a Sorus job (R276): its frame, candidates, how many were decoded and how many beyond 8,192, the parameter
copy in force at its first block, the CK_MESH cycle of its close, the boxes kept and how many `keep_max` left, its window
[p_first, p_next), how many of its type 1 records are made, and the OR of their flags. -/
structure Region where
  frame : Nat
  epoch : Tag
  cfgEpoch : Nat
  boxes : List Box
  decoded : Nat
  surplus : Nat
  cpy : Nat
  closed : Option Nat
  kept : List Box
  left : Nat
  pFirst : Word
  pNext : Word
  next : Nat
  fl : Nat
  deriving DecidableEq, Repr

/-- A stamp packet (R280): camera, line count, time of line 0, status word, positions. -/
structure Stamp where
  frame : Nat
  camera : Nat
  lines : Nat
  time : Nat
  status : Nat
  marks : List Word
  deriving DecidableEq, Repr

/-- A job of an engine (R262 to R264): the block in progress and its `block_ok`; flits sent and the thresholds known to be
met, by descriptor; the descriptor that a wait request is for and its threshold; an armed update (frame, epoch); the
descriptors of copy 1 (unlisted: as in SRAM, log 22); input of FIRST; the next position of the block and a PASS packet's
first flit, and whether a unit is under way whose block comes in parts; regions open or closing; stamps not yet used; notices; sequences. -/
structure EJob where
  tag : Option Tag := none
  ok : Bool := true
  sent : Tbl Word := []
  grant : Tbl Word := []
  granted : List Nat := []
  wait : Option (Nat × Word) := none
  armed : Option (Nat × Nat) := none
  alt : Tbl Payload := []
  raw : Option RawIn := none
  x : Nat := 0
  head : Option Payload := none
  inUnit : Bool := false
  regions : List Region := []
  stamps : List Stamp := []
  stampIn : List Payload := []
  notices : List Notice := []
  regSeq : Nat := 0
  recSeq : Nat := 0
  lostRec : Bool := false
  deriving DecidableEq, Repr

/-- A record that an engine holds on its way to HST (R282): its job, whether it takes a kept entry, its ring. -/
structure EngRec where
  slot : Nat
  kept : Bool
  ring : Nat
  data : Payload
  deriving DecidableEq, Repr

/-- An engine: SRAM bytes and failing 64-bit words (R266), the job served last (R263), its records on their way. -/
structure Engine where
  sram : Tbl Byte := []
  lmUe : List Nat := []
  lmCe : List Nat := []
  last : Nat := 7
  jobs : Tbl EJob := []
  recs : List EngRec := []
  deriving DecidableEq, Repr

end Sys2Proof.Machine
end

