-- ==== Sys2Proof/Machine/CapsuleState.lean ====
section
/-! DEFINITION. The state of the Capsule that is no register of its gateway (R337 to R367). -/

namespace Sys2Proof.Machine

/-- An image in a bank of the Capsule's NOR (R340, R364), whose bytes stand there: its size, what verification finds of its signatures
and digest, and what its body declares: version, working memory and factory parameters by id × 256 + index. -/
structure CapImage where
  size : Nat
  verdict : Verdict
  version : Word
  memNeed : Nat
  factory : Tbl Word
  deriving DecidableEq, Repr

/-- A parameter copy in the NOR (R358): generation, contents, commit byte and whether its CRC is good. -/
structure CapCopy where
  gen : Nat
  set : Tbl Word
  committed : Bool
  crcOk : Bool
  deriving DecidableEq, Repr

/-- An open parcel window (R347, R350): position, check position and tick at its opening, the parameters in force then,
the event counter, whether the seal was open and whether a profile was lost in it. -/
structure CapWin where
  start : Word
  check : Word
  tick : Nat
  params : Tbl Word
  ctr : Nat
  unsealed : Bool
  loss : Bool
  deriving DecidableEq, Repr

/-- The latest profile of a belt (R347): positions of the primary and the check encoder, the tick, and whether a packet of it, or of
a profile after it, was lost. -/
structure Prof where
  pos : Word := 0
  check : Word := 0
  tick : Nat := 0
  lost : Bool := false
  deriving DecidableEq, Repr

/-- A block being received from a profile head (R346): its packets, points in a profile, and profiles in it. -/
structure CapBlock where
  gv : GvBlock
  points : Nat
  lines : Nat
  deriving DecidableEq, Repr

/-- An array tile of the Capsule (R338): weights by row × 64 + column, its programming, accumulators by column × 256 + vector, the codes
of the latest narrowed vector, and monitor sets by slot. -/
structure CapTile where
  weights : Tbl Byte := []
  cfg : CapCfg := {}
  acc : Tbl (Int × Bool) := []
  out : List Byte := []
  mon : Tbl MonSet := []
  deriving DecidableEq, Repr

/-- What the Capsule writes to its NOR (R358, R361, R364): a log entry with the service command that it answers; a
parameter change; the erasure of an image bank; image bytes. -/
inductive NorJob where
  | entry (etype index pid : Nat) (old new : Word) (answer : Option (Nat × Nat))
  | param (id idx : Nat) (v : Word)
  | erase
  | program (off : Nat) (data : List Byte)
  deriving DecidableEq, Repr

/-- The Capsule. `ns` nanoseconds since it left reset; `swid`, `version`, `bank`, `fault` of the image that runs; `boots`
the boot count; `ctr` the event counter, `committed` entries, `discarded` slots, `next` the next slot, `lseq` the next
entry's sequence; `logOpen` the logged seal state; `log` slots of 32 bytes, `nor` bytes of the image banks (erased
bytes are 0xFF), `copies` the parameter copies, `images` what the banks hold, `bootBank` the bank that the log names;
`gen` and `params` in force; `jobs` NOR operations under way with `stage` of the first; `upload` the size of an image
being received and the bank; `ring` records; `wins` open windows by belt; `enc` encoder positions and `lv` their inputs
(A + 2B) behind the filters, `pins` inputs (2n for A, 2n + 1 for B) that differ from those, with their level and since when; `prof`
the latest profile of a belt, `path` its primary encoder's (tick, position) from that profile, or an open window's first, on;
`ends` `enc_end` of a belt's latest parcel; `blocks` what heads are sending; `tiles` the array tiles; `xspi` working memory with
the CRCs of its blocks `xcrc`; `sram` and its uncorrectable words `sramUe` (log 6); `sealLast`, `sealRun` the latest
samples of the pin; `mapAt`, `sealAt` times of the latest samples; `t3` type 3 sequences by pipeline; `gw` a gateway
command under way, as (opcode, status, reply words); `reply` the latest service reply. -/
structure CapSt where
  ns : Nat := 0
  swid : Word := 0
  version : Word := 0
  bank : Nat := 0
  fault : Word := 0
  boots : Nat := 0
  ctr : Nat := 0
  committed : Nat := 0
  discarded : Nat := 0
  next : Nat := 0
  lseq : Nat := 0
  logOpen : Bool := true
  log : Tbl (BitVec 256) := []
  nor : Tbl Byte := []
  copies : Tbl (Option CapCopy) := []
  images : Tbl (Option CapImage) := []
  bootBank : Nat := 0
  gen : Option Nat := none
  params : Tbl Word := []
  jobs : List NorJob := []
  stage : Nat := 0
  upload : Option (Nat × Nat) := none
  ring : Tbl Payload := []
  wins : Tbl (Option CapWin) := []
  enc : Tbl Word := []
  lv : Tbl Nat := []
  pins : Tbl (Option (Bool × Nat)) := []
  prof : Tbl Prof := []
  path : Tbl (List (Nat × Word)) := []
  ends : Tbl (Option Word) := []
  blocks : Tbl (Option CapBlock) := []
  tiles : Tbl CapTile := []
  xspi : Tbl Byte := []
  xcrc : Tbl Nat := []
  sram : Tbl Byte := []
  sramUe : List Nat := []
  sealLast : Bool := true
  sealRun : Nat := 0
  sealAt : Nat := 0
  mapAt : Nat := 0
  t3 : Tbl Word := []
  gw : Option (Nat × Nat × List Word) := none
  reply : List Byte := []
  deriving DecidableEq, Repr

end Sys2Proof.Machine
end

