-- ==== Sys2Proof/Machine/DebugState.lean ====
section
/-! DEFINITION. The state of the test access port, of debug tokens and of the self-test that is no BAR0 register (R477 to
R487). -/

namespace Sys2Proof.Machine

/-- A step of the self-test (R485). -/
inductive BistStep where
  | stop (n : Nat)
  | pc (n : Nat)
  | line (n : Nat)
  deriving DecidableEq, Repr

/-- The TAP and the tests. `ir` the current instruction, `bnd` the boundary register, `sample` the cells that SAMPLE captured, the first from TDO first, `live`
pin inputs that changed while the core sees held levels, as (pin, level); `chal` how many challenges were drawn; `tok` a
token under verification: its status and permissions; `bist` steps left, `bistBad` that one of this test failed, `mask` the domains under test, `failed` stops
and `failedPc` pseudo-channels that failed; `hzOld` the oldest entry of each stop's full hazard log (R236). -/
structure Dbg where
  ir : Nat := 1
  bnd : BitVec 325 := 0
  sample : List Bool := []
  live : Tbl Nat := []
  chal : Nat := 0
  tok : Option (Nat × Nat) := none
  bist : List BistStep := []
  bistBad : Bool := false
  mask : Nat := 0
  failed : List Nat := []
  failedPc : List Nat := []
  hzOld : Tbl Nat := []
  deriving DecidableEq, Repr

end Sys2Proof.Machine
end

