-- ==== Sys2Proof/Machine/FabricState.lean ====
section
/-! DEFINITION. The state of the Rhizoid fabric and its gateway that is no BAR0 register (R368 to R398). -/

namespace Sys2Proof.Machine

/-- An access of a block RAM port at its active edge (R377): RAM, port (0 A, 1 B), physical word, the word that the port
saw before it, the bits written and their values. -/
structure RamAcc where
  ram : Nat
  port : Nat
  word : Nat
  before : BitVec 36
  mask : BitVec 36
  data : BitVec 36
  deriving DecidableEq, Repr

/-- An edge on a routed source of capture unit `unit`, and the time base at it (R384). -/
structure TscEdge where
  unit : Nat
  rise : Bool
  time : Nat
  deriving DecidableEq, Repr

/-- An event of a timestamp capture unit (R384). -/
structure TscEv where
  rise : Bool
  time : Nat
  pos : Word
  deriving DecidableEq, Repr

/-- A load of the fabric (R389): the host's command, none for the default image, the object and the design. -/
structure RhzLoad where
  cmd : Option Cmd
  obj : SignedObj
  img : RhzDesign
  deriving DecidableEq, Repr

/-- A snapshot (R391): storage elements, registered hops, RAM words, tri-state lines, pin inputs, gateway registers 16
to 31. -/
structure RhzSnap where
  q : Tbl Bool
  hop : Tbl Bool
  ram : Tbl (BitVec 36)
  tri : Nat
  pins : List Word
  gregs : List Word
  deriving DecidableEq, Repr

/-- The fabric. `q` storage elements by macrocell, `hop` registered hops, `ram` words by RAM × 1,024 + word, `ramOut`
port outputs by RAM × 2 + port, `tri` levels that the keepers hold; `gclk` levels of the global clocks that come from the
system reference or a PLL; `lv` the clock level that an element last saw, by element (macrocell m, hop 2,048 + h, RAM
port 6,144 + 2r + p, the gateway 6,208); `acc` RAM accesses of the latest edge; `over` lines with several active
drivers and the time since when, `counted` those whose contention has been counted, `bits` the free value's counter.
`greg` host registers as the fabric sees them, `gin` host writes that wait, as (register, value, edges of `gw_clk` left);
`queues` gateway queues, `popped` the last word popped; `tsc` capture FIFOs; `qd` decoder inputs behind their filters
(A + 2B + 4Z), `tscPin` capture units' pins behind theirs, `wait` since when an input's pin differs from it (decoder n's A, B, Z
are inputs 3n, 3n + 1, 3n + 2, unit n's pin is input 24 + n); edges of
trigger lines and of routed capture sources on their way; levels of the trigger lines, vote wires and capture wires.
`frameAt` the time of the latest configuration frame; `load` the load in progress, `latched` the one that waits, `halting` that a RUNNING design has still to stop, `relReq`
that a release is requested; `digest` the loaded image's; `snap` a HELD snapshot; `bank33` the banks whose supply is
3.3 V, which the board sets; `pads` the drive of each pin when its latch closed. -/
structure RhzSt where
  design : Option RhzDesign := none
  q : Tbl Bool := []
  hop : Tbl Bool := []
  ram : Tbl (BitVec 36) := []
  ramOut : Tbl (BitVec 36) := []
  tri : Tbl Bool := []
  gclk : Tbl Bool := []
  lv : Tbl Bool := []
  acc : List RamAcc := []
  overlaps : Tbl Nat := []
  counted : List Nat := []
  bits : Nat := 0
  greg : Tbl Word := []
  gin : List (Nat × Word × Nat) := []
  queues : Tbl (List Word) := []
  popped : Tbl Word := []
  tsc : Tbl (List TscEv) := []
  qd : Tbl Nat := []
  trigEdges : List (Nat × Bool) := []
  tscEdges : List TscEdge := []
  tscPin : Tbl Bool := []
  wait : Tbl (Option Nat) := []
  frameAt : Nat := 0
  tscLv : Tbl Bool := []
  voteLv : List Nat := []
  load : Option RhzLoad := none
  latched : Option RhzLoad := none
  halting : Bool := false
  relReq : Bool := false
  digest : BitVec 384 := 0
  snap : Option RhzSnap := none
  bank33 : Nat := 0
  pads : List Nat := []
  deriving DecidableEq, Repr

end Sys2Proof.Machine
end

