-- ==== Sys2Proof/Machine/LinkState.lean ====
section
/-! DEFINITION. The state of the Riham links and of the joined system that is no BAR0 register (R311 to R336). -/

namespace Sys2Proof.Machine

/-- A port (R314 to R323). `retry` unacknowledged flits, oldest first; `wire` the link flits that the latest command of
the port sent; `nak` the E of the latest NAK sent and its time; `back` numbers and times of the go-backs, the latest first;
`advance` the time of the latest advance of `lack`; `streak` consecutive go-backs without one; `signal` that all lanes
carry signal; `since` the time of entering DOWN or TRAIN; `fromUp` that a retrain keeps the link; `resume` that the first
control flit after a retrain is still to be received; `want` a JOIN has been requested and its exchange has not run;
`serial` of the peer; `lostSince` that this part has declared the peer lost since the link left HELD; `ctl` control flits
that wait to be sent; `met` an exchange has told the peer; `pend` the reason with which the link enters HELD once it locks; `cws`
codewords received since the port locked. -/
structure Port where
  retry : List LinkFlit := []
  wire : List LinkWord := []
  nak : Option (Nat × Nat) := none
  back : List (Nat × Nat) := []
  advance : Nat := 0
  streak : Nat := 0
  signal : Bool := false
  since : Nat := 0
  fromUp : Bool := false
  resume : Bool := false
  want : Bool := false
  serial : W64 := 0
  lostSince : Bool := false
  ctl : List Control := []
  met : Bool := false
  pend : Option Nat := none
  cws : Nat := 0
  deriving DecidableEq, Repr

/-- What is known of another part (R326 to R328): its serial, its latest heartbeat and the hop count, the port by which it
came, and its own time parent. -/
structure Origin where
  serial : W64
  hb : Nat
  hops : Nat
  port : Nat
  parent : Nat
  deriving DecidableEq, Repr

/-- The links: ports; receive halves (32 p + c); `gone` 1 + the CK_MESH cycle of a half's latest departure; the copy of a credit object and the CK_MESH cycle of its reading; halves
that are closed (R328); origins by device id; `stepOk` of the JOIN in force; the number of exchanges in a row with an
offset within 20 ns; `slew` nanoseconds by which the time base is still to be steered, `slewAt` ticks since the latest
correction; `left` that this part has left; `seen` 1 + the hop count and the number of the latest
heartbeat copy of an origin on a port (16 p + origin). -/
structure LinkSt where
  ports : Tbl Port := []
  rx : Tbl (List Flit) := []
  gone : Tbl Nat := []
  v : Tbl Word := []
  vAt : Tbl Nat := []
  closed : List Nat := []
  origins : Tbl (Option Origin) := []
  stepOk : Bool := false
  good : Nat := 0
  slew : Int := 0
  slewAt : Nat := 0
  left : Bool := false
  seen : Tbl (Nat × Nat) := []
  deriving DecidableEq, Repr

end Sys2Proof.Machine
end

