-- ==== Sys2Proof/Machine/State.lean ====
section
/-! DEFINITION. The whole state of the part as plain data, the outcomes that are no next state, and the state after
reset. -/

namespace Sys2Proof.Machine

/-- The faults of the machine. Nothing in the spec stops the whole part: every fault of a unit is state (R134, R408,
R434), so no meaning answers one. -/
inductive Fault where
  /-- raised by no meaning: kept so that the type is inhabited. Safe. -/
  | none
  deriving DecidableEq, Repr

/-- The refusals of the machine. -/
inductive Refusal where
  /-- raised by the arm of a command that has no meaning yet. Safe: the machine stops. -/
  | notModelled (mnemonic : String)
  deriving DecidableEq, Repr

/-- The part. `regs` holds every register of BAR0 by byte address. -/
structure State where
  regs : Tbl Word := []
  time : Nat := 0
  ck : Nat := 0
  out : List Byte := []
  hbm : Hbm := {}
  hostMem : Tbl Byte := []
  pmem : Tbl Bundle := []
  sched : Tbl Sched := []
  lq : Tbl LandQ := []
  mon : Tbl Mon := []
  pair : Tbl (Option Pairing) := []
  at_ : Tbl At := []
  mt : Tbl Mt := []
  sft : Tbl Sft := []
  mesh : Mesh := {}
  flows : List FlowDef := []
  txq : Tbl (List Flit) := []
  trace : Tbl Trace := []
  sync : Sync := {}
  notices : List Notice := []
  events : List Event := []
  chain : List ChainFly := []
  reads : List FRead := []
  bucket : Bucket := {}
  hbpCk : Tbl Nat := []
  probe : Tbl Probe := []
  segs : Tbl (List Nat) := []
  host : HostSt := {}
  gov : Gov := {}
  ingest : Ingest := {}
  eng : Tbl Engine := []
  boot : Boot := {}
  pwr : Pwr := {}
  rhz : RhzSt := {}
  cap : CapSt := {}
  link : LinkSt := {}
  dbg : Dbg := {}
  free : Nat := 0
  pending : List Instr := []
  deriving DecidableEq, Repr

/-- The part right after reset: every register at its reset value (an unlisted address reads as that), memories and
queues empty. -/
def State.reset : State := {}

end Sys2Proof.Machine
end

