-- ==== Sys2Proof/Machine/Ops.lean ====
section
/-! DEFINITION. The named operations that every meaning is written over: sparse tables, registers and their fields,
events and notices, sync operations, HBM and host memory, the per-unit tables, progress slots (R418). -/

namespace Sys2Proof.Machine

/-- What a table holds at a key; `d` is what an unlisted key reads as. -/
def tget {α : Type} (d : α) : Tbl α → Nat → α
  | [], _ => d
  | (a, v) :: r, k => if a = k then v else tget d r k

/-- Writes a key in canonical form: keys stay strictly rising and a value `d` is not listed. -/
def tput {α : Type} [DecidableEq α] (d : α) : Tbl α → Nat → α → Tbl α
  | [], k, v => if v = d then [] else [(k, v)]
  | (a, w) :: r, k, v =>
    if k < a then (if v = d then (a, w) :: r else (k, v) :: (a, w) :: r)
    else if k = a then (if v = d then r else (k, v) :: r)
    else (a, w) :: tput d r k v

/-- The canonical form: every key above `lo`, keys strictly rising, no value `d`. -/
def twfFrom {α : Type} [DecidableEq α] (d : α) : Option Nat → Tbl α → Bool
  | _, [] => true
  | lo, (a, v) :: r => lo.all (fun b => decide (b < a)) && decide (v ≠ d) && twfFrom d (some a) r

def twf {α : Type} [DecidableEq α] (d : α) (t : Tbl α) : Bool := twfFrom d none t

/-- The form of the byte memories (unlisted bytes read as 0). -/
abbrev Memory.wf (m : Tbl Byte) : Bool := twf 0 m

/-- Writes of (key, value) pairs, in order. -/
def tputAll {α : Type} [DecidableEq α] (d : α) (t : Tbl α) (kvs : List (Nat × α)) : Tbl α :=
  kvs.foldl (fun t kv => tput d t kv.1 kv.2) t

/-- `n` bytes from an address, and a write of bytes from an address. -/
def getBytes (t : Tbl Byte) (a n : Nat) : List Byte := (List.range n).map fun i => tget 0 t (a + i)

def putBytes : Tbl Byte → Nat → List Byte → Tbl Byte
  | t, _, [] => t
  | t, a, b :: bs => putBytes (tput 0 t a b) (a + 1) bs

/-- The register file: a register that is not listed reads as its reset value. -/
def regGet : Tbl Word → Nat → Word
  | [], k => regReset k
  | (a, v) :: r, k => if a = k then v else regGet r k

def regPut : Tbl Word → Nat → Word → Tbl Word
  | [], k, v => if v = regReset k then [] else [(k, v)]
  | (a, w) :: r, k, v =>
    if k < a then (if v = regReset k then (a, w) :: r else (k, v) :: (a, w) :: r)
    else if k = a then (if v = regReset k then r else (k, v) :: r)
    else (a, w) :: regPut r k v

/-- The canonical form of the register file. -/
def regWfFrom : Option Nat → Tbl Word → Bool
  | _, [] => true
  | lo, (a, v) :: r => lo.all (fun b => decide (b < a)) && decide (v ≠ regReset a) && regWfFrom (some a) r

def regWf (t : Tbl Word) : Bool := regWfFrom none t

/-- Register at a BAR0 address. -/
def State.rd (s : State) (a : Nat) : Word := regGet s.regs a

def State.wr (s : State) (a : Nat) (v : Word) : State := { s with regs := regPut s.regs a v }

/-- Field of a register. -/
def State.rf (s : State) (a lo n : Nat) : Nat := bitsOf (s.rd a) lo n

def State.wf (s : State) (a lo n v : Nat) : State := s.wr a (setBits (s.rd a) lo n v)

def State.flag (s : State) (a i : Nat) : Bool := bitOf (s.rd a) i

def State.setFlag (s : State) (a i : Nat) : State := s.wf a i 1 1

def State.clrFlag (s : State) (a i : Nat) : State := s.wf a i 1 0

def boolNat (b : Bool) : Nat := if b then 1 else 0

/-- Adds to a counter field that holds at its top. -/
def State.count (s : State) (a lo n : Nat) (k : Nat := 1) : State := s.wf a lo n (holdAt (2 ^ n - 1) (s.rf a lo n + k))

/-- Adds to a counter field that wraps. -/
def State.wrap (s : State) (a lo n : Nat) (k : Nat := 1) : State := s.wf a lo n (s.rf a lo n + k)

/-- R212, R218: an unreserved flit waits at its sender to enter the mesh. -/
def State.post (s : State) (src dst typ : Nat) (vc : Bool) (m : UMsg) : State :=
  let f : Flit := { dst := dst, src := src, rsv := false, vc := vc, typ := typ, dstQ := 0, op := 0, tag := 0, epoch := 0, flow := 0
                    payload := 0, hdrErr := 0, par := 0, entered := 0 }
  { s with mesh := { s.mesh with uns := s.mesh.uns ++ [{ flit := f, msg := m, stop := src }] } }

/-- Sends an event to the governor. -/
def State.event (s : State) (code stop value : Nat) (pipe : Option Nat) : State :=
  s.post stop govStop 6 false (.event { code := code, stop := stop, value := value, pipe := pipe })

def State.pipeAt (s : State) (p : Nat) : Pipe := tget {} s.gov.pipes p

/-- R281: the Sorus engines with jobs of a pipeline. -/
def State.noticeStops (s : State) (p : Nat) : List Nat :=
  (((s.pipeAt p).info.elim [] (·.jobs)).filterMap fun j => if kindOf j.stop = .sor then some j.stop else none).eraseDups

/-- A stop sends a notice (R43, R58) to the Sorus engines of its pipeline. -/
def State.notice (s : State) (stop : Nat) (k : NoticeKind) (pipe : Nat) (tag : Option Tag) : State :=
  (s.noticeStops pipe).foldl (fun s t => s.post stop t 5 false (.notice { kind := k, pipe := pipe, tag := tag, dst := t })) s

/-- The pipeline in a stop's OWNER register, when the stop is owned (R70, R93, R127). -/
def State.ownerPipe (s : State) (stop : Nat) : Option Nat :=
  if isTile stop && s.flag (reg stop 4) 31 then some (s.rf (reg stop 4) 0 6) else none

/-- Pipeline named in a tile's notices: the field, owned or not. -/
def State.pipeOf (s : State) (stop : Nat) : Nat := s.rf (reg stop 4) 0 6

/-- An error notice of a tile for an uncorrectable memory word, which the governor forwards as event 7 (R420). -/
def State.memNotice (s : State) (stop : Nat) (tag : Option Tag) : State :=
  (s.notice stop .error (s.pipeOf stop) tag).event 7 stop (tag.elim 0 (·.toNat)) (some (s.pipeOf stop))

/-- Sends a sync operation to its unit. -/
def State.sync1 (s : State) (m : SyncMsg) : State := s.post m.src (syuStop (syuOf m.obj)) 1 false (.op m)

/-- A credit returned to a sync object (R109, R224). -/
def State.credit (s : State) (en : Bool) (obj src : Nat) (n : Nat := 1) : State :=
  if en && n != 0 then s.sync1 (.signal obj (BitVec.ofNat 32 n) src) else s

/-- A fresh value of the counter of free values. -/
def State.bump (s : State) : State := { s with free := s.free + 1 }

def State.sch (s : State) (stop : Nat) : Sched := tget {} s.sched stop
def State.setSch (s : State) (stop : Nat) (x : Sched) : State := { s with sched := tput {} s.sched stop x }
def State.modSch (s : State) (stop : Nat) (f : Sched → Sched) : State := s.setSch stop (f (s.sch stop))
def State.atile (s : State) (stop : Nat) : At := tget {} s.at_ stop
def State.setAt (s : State) (stop : Nat) (x : At) : State := { s with at_ := tput {} s.at_ stop x }
def State.mtile (s : State) (stop : Nat) : Mt := tget {} s.mt stop
def State.setMt (s : State) (stop : Nat) (x : Mt) : State := { s with mt := tput {} s.mt stop x }
def State.modMt (s : State) (stop : Nat) (f : Mt → Mt) : State := s.setMt stop (f (s.mtile stop))
def State.sftile (s : State) (stop : Nat) : Sft := tget {} s.sft stop
def State.setSft (s : State) (stop : Nat) (x : Sft) : State := { s with sft := tput {} s.sft stop x }
def State.lqAt (s : State) (stop q : Nat) : LandQ := tget {} s.lq (stop * 8 + q)
def State.setLq (s : State) (stop q : Nat) (x : LandQ) : State := { s with lq := tput {} s.lq (stop * 8 + q) x }
def State.monAt (s : State) (stop n : Nat) : Mon := tget {} s.mon (stop * 8 + n)
def State.setMon (s : State) (stop n : Nat) (x : Mon) : State := { s with mon := tput {} s.mon (stop * 8 + n) x }
def State.pairAt (s : State) (stop : Nat) : Option Pairing := tget none s.pair stop
def State.setPair (s : State) (stop : Nat) (p : Option Pairing) : State := { s with pair := tput none s.pair stop p }

/-- Element k of a list, and the list without it. -/
def takeAt {α : Type} (l : List α) (k : Nat) : Option (α × List α) := (l[k]?).map fun x => (x, l.eraseIdx k)

/-- The unfrozen tile cycle of a tile (R146). -/
def State.cycOf (s : State) (stop : Nat) : Nat := (s.sch stop).cyc

/-- HBM bytes from an address; a byte of a word with an uncorrectable error reads as 0 (R123, R247). -/
def State.hbmGet (s : State) (a n : Nat) : List Byte :=
  (List.range n).map fun i => if (a + i) / 8 ∈ s.hbm.ue then 0 else tget 0 s.hbm.bytes (a + i)

def State.hbmHasUe (s : State) (a n : Nat) : Bool := s.hbm.ue.any fun w => decide (a / 8 ≤ w) && decide (w < (a + n + 7) / 8)

/-- A write to HBM; it clears the errors of the 64-bit words that it writes whole. -/
def State.hbmPut (s : State) (a : Nat) (bs : List Byte) : State :=
  let keep (w : Nat) : Bool := !(decide (a ≤ 8 * w) && decide (8 * w + 8 ≤ a + bs.length))
  { s with hbm := { bytes := putBytes s.hbm.bytes a bs, ue := s.hbm.ue.filter keep, ce := s.hbm.ce.filter keep } }

/-- Schedule state codes of SCH_STATUS (R157). -/
def schIdle : Nat := 0
def schRun : Nat := 1
def schWait : Nat := 2
def schDone : Nat := 3
def schStopping : Nat := 4
def schStopped : Nat := 5
def schFault : Nat := 6

def State.schState (s : State) (stop : Nat) : Nat := s.rf (reg stop 0xD004) 0 3
/-- The state of a schedule (R157); where no bundle waits, `wait_op` reads 0 (log 24). -/
def State.setSchState (s : State) (stop v : Nat) : State :=
  let s := s.wf (reg stop 0xD004) 0 3 v
  if v = schWait then s else s.wf (reg stop 0xD004) 16 4 0

/-- Frame epoch of a tile (R163, R127) or engine job table (R261): register 0x0008 of its window. -/
def State.epochOf (s : State) (stop : Nat) : Tag := BitVec.ofNat 16 (s.rf (reg stop 8) 0 16)

/-- Context register n of a tile (R158). -/
def State.ctx (s : State) (stop n : Nat) : Word := s.rd (reg stop (0xD100 + 4 * n))

/-- R470: a reference clock is lost and has not returned: 0 PCIe, 1 Ethernet and Riham, 2 CoaXPress, 3 system, 4 always-on. -/
def State.clockGone (s : State) (c : Nat) : Bool := s.pwr.gone.contains c

/-- Debug mode is on with permission i: 0 the hazard detector, 1 slot-table, route and LPAD writes (R480, R487). -/
def State.debugPerm (s : State) (i : Nat) : Bool := s.flag 0x00330050 4 && s.flag 0x00330050 (5 + i)

/-- Logs a hazard of a stop (R230, R231, R236): the log's entry, its count or the count of lost ones, and an event. -/
def State.hazardLog (s : State) (stop code pipe detail cyc : Nat) : State :=
  let n := s.rf (reg stop 0xF80C) 0 5
  let put (s : State) (k : Nat) : State :=
    let w := BitVec.ofNat 32 (code + pipe % 64 * 16 + detail % 65536 * 65536)
    (s.wr (reg stop (0xF840 + 8 * k)) w).wr (reg stop (0xF844 + 8 * k)) (BitVec.ofNat 32 cyc)
  let old := tget 0 s.dbg.hzOld stop
  let next (s : State) (k : Nat) : State := { s with dbg := { s.dbg with hzOld := tput 0 s.dbg.hzOld stop k } }
  let s := if n < 16 then next ((put s n).wf (reg stop 0xF80C) 0 5 (n + 1)) 0
    else if s.flag (reg stop 0xF800) 2 then next (put s old) ((old + 1) % 16) else s.count (reg stop 0xF80C) 8 8
  s.event 14 stop code (some pipe)

/-- A hazard of a pipeline met at a stop: logged while the detector is enabled in debug mode and watches the pipeline
(R230). -/
def State.hazardOf (s : State) (stop code detail : Nat) (pipe : Option Nat) (cyc : Nat) : State :=
  match pipe with
  | none => s
  | some p =>
    let watched := if p < 32 then s.flag (reg stop 0xF804) p else s.flag (reg stop 0xF808) (p - 32)
    if s.debugPerm 0 && s.flag (reg stop 0xF800) 0 && watched then s.hazardLog stop code p detail cyc else s

/-- A hazard met by a tile. -/
def State.hazard (s : State) (stop code detail : Nat) : State :=
  s.hazardOf stop code detail (s.ownerPipe stop) (s.cycOf stop)

/-- Hazard 7 of R231: a write into a granule that a running LOADW reads. -/
def At.loadReads (a : At) (first n : Nat) : Bool :=
  match a.ld with
  | some ld =>
    let hit (g : Nat) : Bool := decide (first ≤ g) && decide (g < first + n)
    hit ld.w || hit (ld.w + 1) || hit (ld.w + 2) || hit (ld.w + 3) || ld.k.any hit || ld.s.any hit || ld.p.any fun p => hit p.1
  | none => false

/-- R231, codes 3 and 13: a pop or peek of a queue finds it empty; a WAITS that was met less than 64 tile cycles ago announced it (log
24). -/
def State.underrun (s : State) (stop q : Nat) : State :=
  let s := s.hazard stop 3 q
  if (s.sch stop).metAt.any fun c => decide (s.cycOf stop ≤ c + 64) then s.hazard stop 13 q else s

/-- R62, R231, code 9: a word of a column bank is written while a vector in the array whose narrowing reads it has not come to that. -/
def State.bankEarly (s : State) (stop bank col : Nat) : State :=
  let wfmt := s.rf (reg stop (0x0100 + 0x20 * s.rf (reg stop 0x0010) 0 2)) 0 2
  let due (f : Flight) : Bool := f.last && !f.old && f.pbank == bank && decide (s.cycOf stop < f.t + 65 + col % 64)
  if (decide (col < 64) || wfmt != 0) && (s.atile stop).fl.any due then s.hazard stop 9 bank else s

/-- R214: the pipeline that owns a flow. -/
def State.flowPipe (s : State) (flow : Nat) : Option Nat := (s.flows.find? fun f => f.flow == flow).map (·.pipe)

def State.setPipe (s : State) (p : Nat) (x : Pipe) : State := { s with gov := { s.gov with pipes := tput {} s.gov.pipes p x } }
def State.modPipe (s : State) (p : Nat) (f : Pipe → Pipe) : State := s.setPipe p (f (s.pipeAt p))

/-- R414: adds to a counter of a pipeline, `set` × 5 + column. -/
def State.tally (s : State) (p key : Nat) (n : Nat := 1) : State :=
  s.modPipe p fun x => { x with ctr := tput 0 x.ctr key (tget 0 x.ctr key + n) }

/-- R414: an error at a stop that counts in no register of it: 20 corrected, 21 uncorrectable. -/
def State.tallyOwner (s : State) (stop key : Nat) : State :=
  match s.ownerPipe stop with
  | some p => s.tally p key
  | none => s

/-- R489: the pipeline that a stop names for a flit: the owner of its flow, or of the stop. -/
def State.flitPipe (s : State) (stop : Nat) (f : Flit) : Option Nat := if f.rsv then s.flowPipe f.flow else s.ownerPipe stop

/-- R489: a notice of a stop for a flit. -/
def State.flitNotice (s : State) (stop : Nat) (f : Flit) : State :=
  match s.flitPipe stop f with
  | some p => s.notice stop .error p (if f.typ = 0 then some f.tag else none)
  | none => s

/-- Writes of the part to host memory. -/
def State.hostPut (s : State) (a : Nat) (bs : List Byte) : State := { s with hostMem := putBytes s.hostMem a bs }

/-! ## Progress slots -/

/-- R418: slot k holds `done` of `total` items. -/
def State.progress (s : State) (k done total : Nat) : State :=
  let a := 0x1000 + 16 * k
  let pm := if total = 0 then 1000 else done * 1000 / total
  ((s.wr a (BitVec.ofNat 32 done)).wr (a + 4) (BitVec.ofNat 32 total)).wr (a + 8) (BitVec.ofNat 32 pm)

end Sys2Proof.Machine
end

