-- ==== Sys2Proof/Machine/Operands.lean ====
section
/-! DEFINITION. The operand forms of the schedule: bundle fields and slots (R135, R136, R140, R143, R144), the address
form and its post-increment (R140, R141), context registers (R142), routes (R161, R232). -/

namespace Sys2Proof.Machine

/-- Field of a bundle. -/
def bsel (b : Bundle) (lo n : Nat) : Nat := (b.extractLsb' lo n).toNat

def bFormat (b : Bundle) : Nat := bsel b 124 4
def bRepeat (b : Bundle) : Nat := bsel b 118 6
/-- The IN (0), OP (1) and OUT (2) slots, present in format 0 only (R136). -/
def bSlot (b : Bundle) (i : Nat) : Nat := if bFormat b = 0 then bsel b (88 - 30 * i) 30 else 0
def bOpc (b : Bundle) (i : Nat) : Nat := bSlot b i / 2 ^ 24
def bCtl (b : Bundle) : Nat := bsel b 0 28
def bCtlOp (b : Bundle) : Nat := bsel b 24 4
def bXimm (b : Bundle) : Nat := bsel b 28 32

/-- Field of a slot's operands or of the CTL slot. -/
def osel (w lo n : Nat) : Nat := w / 2 ^ lo % 2 ^ n

/-- CTL operations (R145). -/
def ctlLoop : Nat := 1
def ctlLoopc : Nat := 2
def ctlSig : Nat := 3
def ctlRst : Nat := 4
def ctlWaits : Nat := 5
def ctlArm : Nat := 6
def ctlWaita : Nat := 7
def ctlWaitq : Nat := 8
def ctlWaith : Nat := 9
def ctlCadd : Nat := 10
def ctlEnd : Nat := 11

def isWaitOp (c : Nat) : Bool := c == ctlWaits || c == ctlWaita || c == ctlWaitq || c == ctlWaith

/-- R145: the increment that `incsel` selects. -/
def incOf (incsel : Nat) : Nat := if incsel = 0 then 0 else 2 ^ (incsel - 1)

/-- R145: WAITS and ARM carry `incsel` in [2:0]. -/
def ctlObj (c : Nat) : Nat := osel c 8 16

/-- R140: the address that an address form yields. -/
def State.afAddr (s : State) (stop af : Nat) : Nat :=
  let c := s.ctx stop (2 * (af / 2))
  (bitsOf c 16 16 + bitsOf c 0 16) % 65536

/-- R141: the pair's first register after a post-increment. -/
def postInc (c0 c1 : Word) : Word :=
  let t : Int := (bitsOf c0 0 16 : Int) + int16 (bitsOf c1 0 16)
  let len := bitsOf c1 16 16
  let t := if len = 0 then t else t % (len : Int)
  setBits c0 0 16 (t % 65536).toNat

/-- The register write of an address form with `pi` = 1 (R141). -/
def State.afPost (s : State) (stop af : Nat) : List (Nat × Word) :=
  if af % 2 = 1 then
    let p := af / 2
    [(2 * p, postInc (s.ctx stop (2 * p)) (s.ctx stop (2 * p + 1)))]
  else []

/-- Context register writes at the end of a cycle, a later one winning (R142). -/
def State.ctxWrites (s : State) (stop : Nat) (ws : List (Nat × Word)) : State :=
  ws.foldl (fun s w => s.wr (reg stop (0xD100 + 4 * (w.1 % 32))) w.2) s

/-- Route entry fields (R232). -/
def State.rtReg (s : State) (stop rt off : Nat) : Word := s.rd (reg stop (0x0500 + 16 * rt + off))

/-- R162, R212, R232: a flit sent on a route enters the crossing FIFO in tile cycle `ready`. An invalid route sends
nothing and sets `rt_err`. -/
def State.sendFlit (s : State) (stop rt op : Nat) (tag epoch : Tag) (payload : Payload) (ready : Nat) : State :=
  let e := s.rtReg stop rt 0
  if !bitOf e 31 then s.setFlag (reg stop 0xF400) 5
  else
    let f : Flit := { dst := bitsOf e 0 9, src := stop, rsv := true, vc := false, typ := 0, dstQ := bitsOf e 9 6,
                      op := op, tag := tag, epoch := epoch, flow := bitsOf (s.rtReg stop rt 4) 0 13,
                      payload := payload, hdrErr := 0, par := 0, entered := 0 }
    { s with mesh := { s.mesh with cross := s.mesh.cross ++ [{ stop := stop, rt := rt, flit := f, ready := ready }] } }

/-- A flit sent with the tile's frame epoch (R162). -/
def State.sendOn (s : State) (stop rt op : Nat) (tag : Tag) (payload : Payload) (ready : Nat) : State :=
  s.sendFlit stop rt op tag (s.epochOf stop) payload ready

/-- The bundle at a program-memory address of a tile (R133). -/
def State.bundleAt (s : State) (stop a : Nat) : Bundle := tget 0 s.pmem (stop * 4096 + a)

def State.pcOf (s : State) (stop : Nat) : Nat := s.rf (reg stop 0xD004) 4 12
def State.setPc (s : State) (stop a : Nat) : State := s.wf (reg stop 0xD004) 4 12 a
def State.depth (s : State) (stop : Nat) : Nat := s.rf (reg stop 0xD004) 20 3

/-- The bundle that a tile issues next. -/
def State.nextBundle (s : State) (stop : Nat) : Bundle := s.bundleAt stop (s.pcOf stop)

/-- The `ptype` codes (R162): 3 is FOLLOW. -/
def ptypeOp (ptype : Nat) (lastCell : Bool) : Nat := if ptype = 3 then (if lastCell then 1 else 0) else ptype

end Sys2Proof.Machine
end

