-- ==== Sys2Proof/Machine/Blocks.lean ====
section
/-! DEFINITION. Blocks and landing queues (R163, R164, R224, R225), scale-stream pairing (R39 to R43), conversion
monitors (R45 to R48), and the switch of configuration copies (R255, R261). -/

namespace Sys2Proof.Machine

/-! ## Monitors -/

/-- R46, R47: a slot latches its live set: `ready` is set, and `lost` counts a set that was not read. -/
def State.monLatch (s : State) (stop n : Nat) : State :=
  let m := s.monAt stop n
  match m.live with
  | none => s
  | some l =>
    let ctl := reg stop (0xE000 + 64 * n)
    let s := if s.flag ctl 1 then s.count (reg stop (0xE028 + 64 * n)) 0 16 else s
    (s.setFlag ctl 1).setMon stop n { live := none, latched := l }

def top32 : Nat := 2 ^ 32 - 1

/-- R30, R37: one narrowed value added to a set. -/
def MonSet.add (m : MonSet) (r : Narrowed) : MonSet :=
  let m := match r.cas with
    | .inRange sq =>
      { m with count := holdAt top32 (m.count + 1), sse := holdAt (2 ^ 48 - 1) (m.sse + sq),
               sseSat := m.sseSat || decide (m.sse + sq ≥ 2 ^ 48 - 1) }
    | .low => { m with satLo := holdAt top32 (m.satLo + 1) }
    | .high => { m with satHi := holdAt top32 (m.satHi + 1) }
    | .nan => { m with nan := holdAt top32 (m.nan + 1) }
  if r.ovf then { m with ovf := holdAt top32 (m.ovf + 1) } else m

/-- R45, R46: narrowings of one data tag that name a slot; a tag of another frame latches the live set first. -/
def State.monCount (s : State) (stop n : Nat) (tag epoch : Tag) (rs : List Narrowed) : State :=
  if rs.isEmpty || !s.flag (reg stop (0xE000 + 64 * n)) 0 then s
  else
    let other : Bool := match (s.monAt stop n).live with
      | some l => l.tag.toNat / 4096 != tag.toNat / 4096
      | none => false
    let s := if other then s.monLatch stop n else s
    let m := s.monAt stop n
    let live := rs.foldl MonSet.add ((m.live.getD {}))
    s.setMon stop n { m with live := some { live with tag := tag, epoch := epoch } }

/-! ## Blocks -/

/-- BLOCK register of an array or special-function tile (R186, R187). -/
def blockReg (stop : Nat) : Nat := reg stop 0x0218

def State.blockTag (s : State) (stop : Nat) : Tag := BitVec.ofNat 16 (s.rf (blockReg stop) 0 16)
def State.blockOk (s : State) (stop : Nat) : Bool := s.flag (blockReg stop) 16
def State.inBlock (s : State) (stop : Nat) : Bool := s.flag (blockReg stop) 17

/-- Tag that a tile's notices carry: the block in progress (R156). -/
def State.curTag (s : State) (stop : Nat) : Option Tag :=
  if s.inBlock stop then some (s.blockTag stop) else none

/-- `block_ok` becomes false until the next block start (R164, R225). -/
def State.killBlock (s : State) (stop : Nat) : State :=
  let s := s.clrFlag (blockReg stop) 16
  match s.pairAt stop with
  | some p => s.setPair stop (some { p with ok := false })
  | none => s

/-- R43: a tile raises `scale_skew` for data tag d: the count, a skew notice, and on the rising edge an event. -/
def State.raiseSkew (s : State) (stop : Nat) (d : Tag) : State :=
  let f := reg stop 0xE100
  let rising := !s.flag f 0
  let s := (s.count (reg stop 0xE104) 0 32).setFlag f 0
  let s := s.notice stop .skew (s.pipeOf stop) (some d)
  if rising then s.event 1 stop d.toNat (some (s.pipeOf stop)) else s

/-- Credits of `n` flits that leave a landing queue (R224). -/
def State.lqCredit (s : State) (stop q n : Nat) : State :=
  let c := reg stop (0x0400 + 16 * q)
  s.credit (s.flag c 0) (s.rf c 16 16) stop n

/-- The first packet of a scale queue (R224): the flits up to and including a PUSH_EOP, if one is wholly present. -/
def headPacket : List LFlit → Option (List LFlit × List LFlit)
  | [] => none
  | f :: r => if f.op = 1 then some ([f], r) else (headPacket r).map fun (a, b) => (f :: a, b)

/-- R40: scale tag c is behind data tag d. -/
def olderTag (c d : Tag) : Bool := let g := (d - c).toNat; decide (1 ≤ g) && decide (g ≤ 32768)

/-- Removes the head packet of the scale queue (R224). -/
def State.dropScale (s : State) (stop : Nat) (pkt rest : List LFlit) : State :=
  (s.setLq stop 7 { q := rest, last := pkt.getLastD {}, pops := (s.lqAt stop 7).pops + pkt.length }).lqCredit stop 7 pkt.length

/-- R40: discards up to `n` packets older than d. -/
def State.dropOlder (s : State) (stop : Nat) (d : Tag) : Nat → State
  | 0 => s
  | n + 1 =>
    match headPacket (s.lqAt stop 7).q with
    | some (pkt, rest) =>
      if olderTag (pkt.headD {}).tag d then ((s.dropScale stop pkt rest).raiseSkew stop d).dropOlder stop d n else s
    | none => s

/-- R39: the words of a scale block, written to the tile's scale registers from `first` on. `base` is the first
register's offset and `regs` how many there are. -/
def State.loadScales (s : State) (stop base regs : Nat) (pkt : List LFlit) : State :=
  let ws := pkt.flatMap fun f => (List.range 16).map fun i => f.payload.extractLsb' (32 * i) 32
  let hdr := ws.headD 0
  let count := bitsOf hdr 0 9
  let first := bitsOf hdr 16 9
  let words := (ws.drop 1).take count
  let s := (words.zipIdx).foldl (fun s (w, i) =>
    if first + i < regs then
      let s := if kindOf stop = .at then s.bankEarly stop ((base - 0x1000) / 0x400) (first + i) else s
      s.wr (reg stop (base + 4 * (first + i))) (w &&& 0x3FFFFF)
    else s) s
  if words.length < count || decide (words.length ≠ 0 ∧ first + words.length > regs) then s.setFlag (reg stop 0xE100) 1
  else s

/-- Latency of scale pairing with its padding (R226, R227). -/
def State.pairLatency (s : State) (stop : Nat) : Nat :=
  6 + (if kindOf stop = .at then s.rf (reg stop 0xD400) 12 4 else s.rf (reg stop 0xD400) 28 4)

/-- R40: pairing of the data block d; `bank` is the column bank that a matched scale block is written to (R62). -/
def State.pairBlock (s : State) (stop : Nat) (d : Tag) (bank : Nat) : State :=
  let s := s.dropOlder stop d 4
  let at_ := s.cycOf stop + s.pairLatency stop
  match headPacket (s.lqAt stop 7).q with
  | none =>
    let s := (s.setFlag (reg stop 0x0210) 7).raiseSkew stop d
    let s := s.wr (reg stop 0xE108) (BitVec.ofNat 32 (d.toNat + (s.lqAt stop 7).last.tag.toNat * 65536))
    s.setPair stop (some { at_ := at_, ok := false })
  | some (pkt, rest) =>
    if (pkt.headD {}).tag = d then
      let s := if kindOf stop = .at then s.loadScales stop (0x1000 + 0x400 * bank) 128 pkt
        else s.loadScales stop 0x1000 256 pkt
      (s.dropScale stop pkt rest).setPair stop (some { at_ := at_, ok := true })
    else
      let s := s.raiseSkew stop d
      let s := s.wr (reg stop 0xE108) (BitVec.ofNat 32 (d.toNat + (pkt.headD {}).tag.toNat * 65536))
      s.setPair stop (some { at_ := at_, ok := false })

/-- Exchanges two arrays of n registers. -/
def State.swapRegs (s : State) (a b n : Nat) : State :=
  (List.range n).foldl (fun s i => (s.wr (a + 4 * i) (s.rd (b + 4 * i))).wr (b + 4 * i) (s.rd (a + 4 * i))) s

/-- R255, R261: an armed tile exchanges its active and pending copies at the marker block. In an array tile the vectors
already in the array go on with the copy that they had. -/
def State.cfgSwitch (s : State) (stop : Nat) : State :=
  let c := reg stop 0x0020
  let act := s.rf c 0 8
  let pend := s.rf c 8 8
  let s := ((s.wf c 0 8 pend).wf c 8 8 act).clrFlag c 20
  if kindOf stop = .at then
    let s := s.swapRegs (reg stop 0x0100) (reg stop 0x0180) 32
    let s := s.swapRegs (reg stop 0x1000) (reg stop 0x3000) 128
    let s := s.swapRegs (reg stop 0x1400) (reg stop 0x3400) 128
    let s := s.swapRegs (reg stop 0x2000) (reg stop 0x3800) 128
    let s := s.swapRegs (reg stop 0x2400) (reg stop 0x3C00) 128
    let a := s.atile stop
    s.setAt stop { a with fl := a.fl.map fun f => { f with old := !f.old } }
  else
    let s := s.swapRegs (reg stop 0x0100) (reg stop 0x0180) 32
    s.swapRegs (reg stop 0x1000) (reg stop 0x2000) 256

/-- R163: a new block in progress. -/
def State.blockStart (s : State) (stop : Nat) (tag : Tag) (bank : Nat) : State :=
  let s := (s.wf (blockReg stop) 0 16 tag.toNat).setFlag (blockReg stop) 17
  let c := reg stop 0x0020
  let s := if s.flag c 20 && s.rf c 16 4 == tag.toNat / 4096 then s.cfgSwitch stop else s
  if s.flag (reg stop 0xE100) 2 then s.pairBlock stop tag bank
  else (s.setPair stop none).setFlag (blockReg stop) 16

/-- R164: the row that a pop of the flit meets for an array or special-function tile, beside an underrun. -/
def State.popRow (s : State) (stop : Nat) (f : LFlit) (isA : Bool) (bank : Nat) : State :=
  if isA then (if s.inBlock stop && f.tag == s.blockTag stop then s else s.blockStart stop f.tag bank)
  else if s.inBlock stop && f.tag == s.blockTag stop then s
  else (s.killBlock stop).setFlag (reg stop 0x0210) 1

/-- R164, R225: a pop of landing queue q of an array or special-function tile. `isA` marks input A, `bank` the column
bank of a block that the pop starts. Answers the flit. -/
def State.popLq (s : State) (stop q : Nat) (isA : Bool) (bank : Nat) : State × LFlit :=
  let l := s.lqAt stop q
  match l.q with
  | [] =>
    (((s.setFlag (reg stop 0x0210) 0).count (reg stop 0x0214) 16 16).underrun stop q, l.last)
  | f :: rest =>
    let s := (s.setLq stop q { q := rest, last := f, pops := (s.lqAt stop q).pops + 1 }).lqCredit stop q 1
    let s := s.popRow stop f isA bank
    let s := if f.epoch == s.epochOf stop then s
      else ((s.killBlock stop).setFlag (reg stop 0x0210) 2).notice stop .error (s.pipeOf stop) (s.curTag stop)
    let s := if f.op = 2 then (s.killBlock stop).count (reg stop (0x0408 + 16 * q)) 0 16 else s
    (s, f)

/-- R80: at the end of its last cycle a pairing gives `block_ok` its value. -/
def State.pairDue (s : State) (stop c : Nat) : State :=
  match s.pairAt stop with
  | some p =>
    if p.at_ ≤ c then
      (if p.ok then s.setFlag (blockReg stop) 16 else s.clrFlag (blockReg stop) 16).setPair stop none
    else s
  | none => s

/-- R163: no block in progress, after a load and each change of the frame epoch. -/
def State.endBlock (s : State) (stop : Nat) : State := (s.clrFlag (blockReg stop) 17).setPair stop none

/-- R41, R162: a PUSH_EOP sent on route `rt` turns into PUSH_ABORT while `ok` is false, and is counted in `eop_abort`. On an
invalid route nothing is sent (R232). -/
def State.eopOf (s : State) (stop : Nat) (ok : Bool) (rt op : Nat) : State × Nat :=
  if op = 1 && !ok then (if bitOf (s.rtReg stop rt 0) 31 then s.count (reg stop 0x0214) 0 16 else s, 2) else (s, op)

end Sys2Proof.Machine
end

