-- ==== Sys2Proof/Machine/CapsuleGeometry.lean ====
section
/-! DEFINITION. The geometry unit of the Capsule: the smallest rectangle about a parcel's top view (R348) and the
indication (R349). -/

namespace Sys2Proof.Machine

/-- A rectangle about the points along direction (ex, ey): `ru` and `rv` are its extents along and across, times
√(ex² + ey²). -/
structure Rect where
  ex : Int
  ey : Int
  ru : Nat
  rv : Nat
  deriving DecidableEq, Repr

def rectNorm (r : Rect) : Nat := (r.ex * r.ex + r.ey * r.ey).toNat

def cross2 (ax ay bx by_ : Int) : Int := ax * by_ - ay * bx

/-- A direction as a vector of angle 0 up to, not including, half a turn. -/
def upper (d : Int × Int) : Int × Int := if d.2 < 0 ∨ (d.2 = 0 ∧ d.1 < 0) then (-d.1, -d.2) else d

/-- The direction of the rectangle's longer side L; of a square, the one of smaller angle. -/
def rectLong (r : Rect) : Int × Int :=
  let u := upper (r.ex, r.ey)
  let v := upper (-r.ey, r.ex)
  if r.rv < r.ru then u else if r.ru < r.rv then v else if 0 < cross2 u.1 u.2 v.1 v.2 then u else v

/-- R348: smaller area, then smaller perimeter, then smaller angle. -/
def rectLess (a b : Rect) : Bool :=
  let na := rectNorm a
  let nb := rectNorm b
  let aa := a.ru * a.rv * nb
  let ab := b.ru * b.rv * na
  let pa := (a.ru + a.rv) * (a.ru + a.rv) * nb
  let pb := (b.ru + b.rv) * (b.ru + b.rv) * na
  let da := rectLong a
  let db := rectLong b
  aa < ab || (aa == ab && (pa < pb || (pa == pb && decide (0 < cross2 da.1 da.2 db.1 db.2))))

def spread (l : List Int) : Nat :=
  match l with
  | [] => 0
  | x :: xs => ((xs.foldl max x) - (xs.foldl min x)).toNat

/-- The hull edges of the points: pairs with every point on one side. -/
def hullEdges (ps : List (Int × Int)) : List (Int × Int) :=
  ps.flatMap fun p => (ps.filter fun q =>
    q != p && ps.all fun r => decide (0 ≤ cross2 (q.1 - p.1) (q.2 - p.2) (r.1 - p.1) (r.2 - p.2))).map
      fun q => (q.1 - p.1, q.2 - p.2)

def rectOf (ps : List (Int × Int)) (e : Int × Int) : Rect :=
  { ex := e.1, ey := e.2, ru := spread (ps.map fun p => p.1 * e.1 + p.2 * e.2)
    rv := spread (ps.map fun p => e.1 * p.2 - e.2 * p.1) }

/-- R348: the rectangle of the hull-edge orientation with the smallest area; none for fewer than two distinct points. -/
def bestRect (ps : List (Int × Int)) : Option Rect :=
  (hullEdges ps).foldl (fun (b : Option Rect) e =>
    let r := rectOf ps e
    match b with
    | none => some r
    | some x => if rectLess r x then some r else b) none

/-- A side in µm. Where it is no whole number the spec does not say how it is rounded: the whole number below or above
(log 10). -/
def sideLen (ru n salt : Nat) : Nat :=
  if n = 0 then 0
  else
    let q := isqrt (ru * ru / n)
    if q * q * n = ru * ru then q else q + Config.unstated 348 salt % 2

/-! tan(2πk ÷ 1,024) × 2^64, k = 1 to 127. -/

def tanRow0 : List Nat := [
  113189224543920364, 226386972670087609, 339601770528375557, 452842149405555710, 566116648297857376,
  679433816488466393, 792802216131617111, 906230424844939521, 1019727038311732522, 1133300672894845279,
  1246959968263861405, 1360713590037295457, 1474570232441527795, 1588538620988222493, 1702627515171993486,
  1816845711190106721, 1931202044686030682, 2045705393518674351, 2160364680559180532, 2275188876517173469,
  2390187002798392960, 2505368134395682751, 2620741402815338926, 2736315999040864331, 2852101176536217990,
  2968106254290693837, 3084340619907611211, 3200813732739050392, 3317535127068920081, 3434514415346700351,
  3551761291474264181, 3669285534148243471]

def tanRow1 : List Nat := [
  3787097010260471422, 3905205678359102561, 4023621592173084581, 4142354904202732709, 4261415869379237595,
  4380814848796022011, 4500562313514949955, 4620668848450484397, 4741145156334986934, 4862002061768454333,
  4983250515356093432, 5104901597937247461, 5226966524909303637, 5349456650650334224, 5472383473044351317,
  5595758638113189652, 5719593944759172114, 5843901349622859515, 5968692972060340009, 6093981099244674494,
  6219778191396282871, 6346096887147232470, 6472950009044574645, 6600350569198068924, 6728311775077836599,
  6856847035467697681, 6985969966580167227, 7115694398339319622, 7246034380837973098, 7377004190975902013,
  7508618339286051927, 7640891576956012808]

def tanRow2 : List Nat := [
  7773838903052299564, 7907475571955297071, 8041817101013049876, 8176879278422415423, 8312678171346454921,
  8449230134277308656, 8586551817654193664, 8724660176746572097, 8863572480812969508, 9003306322546374698,
  9143879627817627874, 9285310665728702999, 9427618058988314614, 9570820794622830549, 9714938235036051321,
  9859990129432026165, 10005996625615716418, 10152978282186990947, 10300956081144147659, 10449951440913901675,
  10599986229825566835, 10751082780047985006, 10903263902008629788, 11056552899315230174, 11210973584201228372,
  11366550293517407350, 11523307905293100842, 11681271855891535024, 11840468157785050414, 12000923417977218679,
  12162664857100206077, 12325720329217147637]

def tanRow3 : List Nat := [
  12490118342360788665, 12655888079841227758, 12823059422357263677, 12991662970947612995, 13161730070820132513,
  13333292836099156826, 13506384175533154119, 13681037819207120043, 13857288346306478484, 14035171213981748109,
  14214722787365874056, 14395980370798925447, 14578982240317832127, 14763767677471990324, 14950377004528919021,
  15138851621137710681, 15329234042521806003, 15521567939276648491, 15715898178852057811, 15912270868803719535,
  16110733401903042736, 16311334503199807412, 16514124279137533992, 16719154268827382157, 16926477497592652970,
  17136148532902656013, 17348223542821843615, 17562760357107741474, 17779818531099356387, 17999459412546457518,
  18221746211539451548]

def tanTable : List Nat := tanRow0 ++ tanRow1 ++ tanRow2 ++ tanRow3

/-- Whole units of 1/1024 turn in the angle of (x, y), 0 < y < x. -/
def eighth (x y : Nat) : Nat := (tanTable.filter fun t => decide (x * t ≤ y * 2 ^ 64)).length

/-- Whole units in an angle of the first quadrant that is no multiple of an eighth turn. -/
def quarter (x y : Nat) : Nat := if y < x then eighth x y else 255 - eighth y x

/-- R348: θ of a direction in the upper half-plane. An angle between two units is the one below or above (log 10). -/
def theta (d : Int × Int) (salt : Nat) : Nat :=
  let x := d.1.natAbs
  let y := d.2.natAbs
  if y = 0 then 0 else if x = 0 then 256
  else if x = y then (if d.1 < 0 then 384 else 128)
  else ((if d.1 < 0 then 511 - quarter x y else quarter x y) + Config.unstated 3480 salt % 2) % 512

/-- L, W, H in µm and θ of a parcel's points (R348). -/
def measure (pts : List Point3) (salt : Nat) : Nat × Nat × Nat × Nat :=
  let h := (pts.foldl (fun (m : Int) p => max m p.z) 0).toNat
  match bestRect (pts.map fun p => (p.x, p.y)) with
  | none => (0, 0, h, 0)
  | some r =>
    let n := rectNorm r
    (sideLen (max r.ru r.rv) n (2 * salt), sideLen (min r.ru r.rv) n (2 * salt + 1), h, theta (rectLong r) salt)

/-- R349: a dimension in µm, indicated in mm with scale interval d. -/
def indicate (v d : Nat) : Nat :=
  let q := 1000 * d
  if q = 0 then 0
  else
    let k := v / q
    let r := v % q
    d * (if q < 2 * r ∨ (2 * r = q ∧ k % 2 = 1) then k + 1 else k)

end Sys2Proof.Machine
end

