-- ==== Sys2Proof/Machine/Rings.lean ====
section
/-! DEFINITION. The rings of the host interface, MSI-X vectors, completions, records, events (R399,
R405 to R410, R417, R420 to R422). -/

namespace Sys2Proof.Machine

/-- R422: the registers of ring n of a kind: 0 submission, 1 completion, 2 record. -/
def ringReg (kind n : Nat) : Nat := 0x00100000 + kind * 0x1000 + n * 0x40
def ringId (kind n : Nat) : Nat := kind * 64 + n

def State.ringEn (s : State) (kind n : Nat) : Bool := s.flag (ringReg kind n + 8) 0
def State.ringSize (s : State) (kind n : Nat) : Nat := 2 ^ (min (s.rf (ringReg kind n + 8) 1 4) 12 + 4)
def State.ringBase (s : State) (kind n : Nat) : Nat :=
  (s.rd (ringReg kind n)).toNat + (s.rd (ringReg kind n + 4)).toNat * 2 ^ 32
def State.ringTail (s : State) (kind n : Nat) : Nat := s.rf (ringReg kind n + 0xC) 0 16
def State.ringHead (s : State) (kind n : Nat) : Nat := s.rf (ringReg kind n + 0x10) 0 16
def State.ringOk (s : State) (kind n : Nat) : Bool := s.ringEn kind n && !s.host.halted.contains (ringId kind n)

/-- R406: the ring has room. -/
def State.ringRoom (s : State) (kind n : Nat) : Bool :=
  (s.ringTail kind n + 1) % s.ringSize kind n != s.ringHead kind n

/-- R399: MSI-X vector v is signalled: its message is written, or it is left pending while it is masked. -/
def State.signal (s : State) (v : Nat) : State :=
  let e := 0x0010E000 + 16 * v
  if s.flag (e + 12) 0 then s.setFlag (0x0010F000 + 4 * (v / 32)) (v % 32)
  else s.hostPut ((s.rd e).toNat / 4 * 4 + (s.rd (e + 4)).toNat * 2 ^ 32) (leBytes (s.rd (e + 8)).toNat 4)

/-- R408. -/
def State.ringError (s : State) (kind n code : Nat) : State :=
  let r := ringReg kind n + 0x14
  let s := (s.setFlag r 0).wf r 1 2 code
  let h := if s.host.halted.contains (ringId kind n) then s.host.halted else ringId kind n :: s.host.halted
  let s := { s with host := { s.host with halted := h } }
  s.signal 131

/-- R421: one entry more has been written to a completion or record ring. -/
def State.coalesce (s : State) (kind n : Nat) : State :=
  let cfg := ringReg kind n + 8
  if s.flag cfg 5 then
    let id := ringId kind n
    let u := tget 0 s.host.unsig id + 1
    if max 1 (s.rf cfg 16 8) ≤ u ∨ s.rf cfg 24 8 = 0 then
      let s := { s with host := { s.host with unsig := tput 0 s.host.unsig id 0 } }
      s.signal (n + (kind - 1) * 64)
    else
      let at_ := if u = 1 then tput 0 s.host.unsigAt id s.time else s.host.unsigAt
      { s with host := { s.host with unsig := tput 0 s.host.unsig id u, unsigAt := at_ } }
  else s

/-- R421: `coal_us` has passed since the first unsignalled entry. -/
def State.coalesceTimeout (s : State) (kind n : Nat) : State :=
  let cfg := ringReg kind n + 8
  let id := ringId kind n
  if (kind = 1 ∨ kind = 2) ∧ n < 64 ∧ s.flag cfg 5 ∧ tget 0 s.host.unsig id ≠ 0 ∧
      tget 0 s.host.unsigAt id + 1000 * s.rf cfg 24 8 ≤ s.time then
    let s := { s with host := { s.host with unsig := tput 0 s.host.unsig id 0 } }
    s.signal (n + (kind - 1) * 64)
  else s

/-- R406: an entry is written at `tail` with the ring's phase. -/
def State.ringPut (s : State) (kind n : Nat) (entry : Payload) : State :=
  let r := ringReg kind n
  let t := s.ringTail kind n
  let e := (entry &&& ~~~(1#512 <<< 511)) ||| (if s.flag (r + 0x14) 3 then 1#512 <<< 511 else 0)
  let t' := (t + 1) % s.ringSize kind n
  let s := (s.hostPut (s.ringBase kind n + 64 * t) (payloadBytes e)).wf (r + 0xC) 0 16 t'
  let s := if t' = 0 then s.wf (r + 0x14) 3 1 (1 - s.rf (r + 0x14) 3 1) else s
  s.coalesce kind n

/-! ## Commands and completions -/

def entryWord (e : Payload) (off : Nat) : Word := e.extractLsb' (8 * off) 32
def entryW64 (e : Payload) (off : Nat) : W64 := e.extractLsb' (8 * off) 64
def Cmd.opc (c : Cmd) : Nat := bitsOf (entryWord c.entry 0) 0 8
def Cmd.cid (c : Cmd) : Nat := bitsOf (entryWord c.entry 0) 16 16
def Cmd.seq (c : Cmd) : Word := entryWord c.entry 4
def Cmd.target (c : Cmd) : Nat := bitsOf (entryWord c.entry 8) 0 4
def Cmd.pipe (c : Cmd) : Nat := bitsOf (entryWord c.entry 8) 8 6
def Cmd.arg (c : Cmd) (off lo n : Nat) : Nat := bitsOf (entryWord c.entry off) lo n

/-- The part's device id (R326). -/
def State.devId (s : State) : Nat := s.rf 0x00508000 0 4

/-- R410: statuses. -/
def stOk : Nat := 0
def stRefused : Nat := 1
def stDup : Nat := 2
def stNofwd : Nat := 3
def stUnreach : Nat := 4
def stBadopc : Nat := 5
def stBadarg : Nat := 6
def stState : Nat := 7
def stAborted : Nat := 8

/-- R410: the layout of a completion or an event. -/
def complEntry (opc status cid : Nat) (seq : Word) (origin exec ring pipe code detail time : Nat) (result : List Byte) :
    Payload :=
  let w0 := opc % 256 + status % 256 * 2 ^ 8 + cid % 2 ^ 16 * 2 ^ 16
  let w2 := origin % 16 + exec % 16 * 2 ^ 4 + ring % 64 * 2 ^ 8 + pipe % 64 * 2 ^ 16
  let w3 := code % 2 ^ 16 + detail % 2 ^ 16 * 2 ^ 16
  BitVec.ofNat 512 (w0 + seq.toNat * 2 ^ 32 + w2 * 2 ^ 64 + w3 * 2 ^ 96 + time % 2 ^ 64 * 2 ^ 128 +
    leNat (result.take 36) * 2 ^ 192)

/-- R332, R406, R408: a completion of a command of `origin`'s submission ring waits for its completion ring here, or leaves for
that part. -/
def State.completion (s : State) (origin ring : Nat) (e : Payload) : State :=
  if origin ≠ s.devId then
    { s with host := { s.host with relay := s.host.relay ++ [⟨origin, origin, ring, e, true⟩] } }
  else
    let cq := s.rf (ringReg 0 ring + 8) 8 6
    if s.ringEn 1 cq then { s with host := { s.host with compl := s.host.compl ++ [(cq, e)] } } else s

/-- A command completes (R410): its completion waits for its ring, or leaves for the part that sent the command. A
completion for a ring that is not enabled is not written (R408). -/
def State.complete (s : State) (c : Cmd) (status : Nat) (code : Nat := 0) (detail : Nat := 0)
    (result : List Byte := []) : State :=
  let e := complEntry c.opc status c.cid c.seq c.origin s.devId c.ring c.pipe code detail s.time result
  s.completion c.origin c.ring e

/-- R420: an event of the governor: forwarded when its bit of `ev_mask` is set, lost when 256 wait. -/
def State.forward (s : State) (code detail value : Nat) (pipe : Nat := 0) : State :=
  let mask := tget 0xFFFFFFFF s.host.tun 6
  if mask / 2 ^ code % 2 = 0 then s
  else if 256 ≤ s.host.events.length then s.count 0x2004 16 16
  else
    let e := complEntry 0 9 0 0 s.devId s.devId 0 pipe code detail s.time (leBytes value 8)
    { s with host := { s.host with events := s.host.events ++ [e] } }

/-- R406, R420: the oldest completion that waits for a ring, or an event when none does, is written. -/
def State.writeCompletion (s : State) (n : Nat) (ok : Bool) : State :=
  if !(n < 64 && s.ringOk 1 n && s.ringRoom 1 n) then s
  else
    let put (s : State) (e : Payload) : State := if ok then s.ringPut 1 n e else s.ringError 1 n 2
    match s.host.compl.find? fun x => x.1 == n with
    | some x =>
      let s := { s with host := { s.host with compl := s.host.compl.erase x } }
      put s x.2
    | none =>
      match s.host.events with
      | e :: es =>
        if s.flag 0x2000 0 ∧ s.rf 0x2000 8 6 = n then
          let s := { s with host := { s.host with events := es } }
          put s e
        else s
      | [] => s

/-! ## Records -/

/-- R407: a record reaches HST's staging buffer; false when the buffer is full. -/
def State.stageRoom (s : State) : Bool := s.host.recs.length < 4096

def State.stageRec (s : State) (ring : Nat) (data : Payload) : State :=
  { s with host := { s.host with recs := s.host.recs ++ [{ ring := ring, data := data }] } }

/-- R407: a type 3 record of the Capsule gateway: held back while the staging buffer is full, lost beyond 64. -/
def State.gatewayRec (s : State) (ring : Nat) (data : Payload) : State :=
  if s.stageRoom ∧ s.host.gwRecs.isEmpty then s.stageRec ring data
  else if s.host.gwRecs.length < 64 then
    { s with host := { s.host with gwRecs := s.host.gwRecs ++ [{ ring := ring, data := data }] } }
  else s.count (ringReg 2 ring + 0x14) 16 16

/-- R417: the oldest staged record of a ring is written. -/
def State.writeRecord (s : State) (n : Nat) (ok : Bool) : State :=
  if !(n < 64 && s.ringOk 2 n && s.ringRoom 2 n) then s
  else
    match s.host.recs.find? fun x => x.ring == n with
    | none => s
    | some x =>
      let rest := s.host.recs.erase x
      let h := match s.host.gwRecs with
        | [] => { s.host with recs := rest }
        | g :: gs => { s.host with recs := rest ++ [g], gwRecs := gs }
      let s := { s with host := h }
      if ok then s.ringPut 2 n x.data else s.ringError 2 n 2

/-! ## Doorbells and enabling -/

/-- R405, R408: a write of `tail` of a submission ring, or of `head` of the others. -/
def State.doorbell (s : State) (kind n : Nat) (v : Word) : State :=
  if !(n < 64 && s.ringOk kind n) then s
  else if s.ringSize kind n ≤ bitsOf v 0 16 then s.ringError kind n 1
  else s.wf (ringReg kind n + (if kind = 0 then 0xC else 0x10)) 0 16 (bitsOf v 0 16)

/-- The CFG fields that a write changes while the ring is not enabled, and while it is (R422). -/
def ringMask (kind : Nat) (en : Bool) : Word :=
  if kind = 0 then (if en then 0 else 0x00003F1E) else (if en then 0xFFFF0020 else 0xFFFF003E)

def State.ringCfg (s : State) (kind n : Nat) (v : Word) : State :=
  let a := ringReg kind n + 8
  let m := ringMask kind (s.ringEn kind n)
  s.wr a ((s.rd a &&& ~~~m) ||| (v &&& m))

/-- R408: a write of `en` = 1 to a ring that is not enabled. -/
def State.enableRing (s : State) (kind n : Nat) (v : Word) : State :=
  if kind < 3 ∧ n < 64 ∧ !s.ringEn kind n ∧ bitOf v 0 then
    let r := ringReg kind n
    let s := ((s.ringCfg kind n v).setFlag (r + 8) 0).wr (r + 0xC) 0
    let s := (s.wr (r + 0x10) 0).setFlag (r + 0x14) 3
    let h := { s.host with halted := s.host.halted.filter fun x => x != ringId kind n,
                           unsig := tput 0 s.host.unsig (ringId kind n) 0 }
    let s := { s with host := h }
    if kind = 0 ∧ !s.ringEn 1 (s.rf (r + 8) 8 6) then s.ringError 0 n 3 else s
  else s

/-- R408: a write of `en` = 0. A completion ring's submission rings enter error; what waits for it is not written. -/
def State.disableRing (s : State) (kind n : Nat) (v : Word) : State :=
  if kind < 3 ∧ n < 64 ∧ s.ringEn kind n ∧ !bitOf v 0 then
    let s := (s.ringCfg kind n v).clrFlag (ringReg kind n + 8) 0
    if kind = 1 then
      let s := { s with host := { s.host with compl := s.host.compl.filter fun x => x.1 != n } }
      (List.range 64).foldl
        (fun s m => if s.ringOk 0 m ∧ s.rf (ringReg 0 m + 8) 8 6 = n then s.ringError 0 m 3 else s) s
    else s
  else s

end Sys2Proof.Machine
end

