-- ==== Sys2Proof/Machine/Votes.lean ====
section
/-! DEFINITION. Power domains, their votes and which of them is wanted in Run (R424 to R427, R431, R433). -/

namespace Sys2Proof.Machine

/-- R424: domain numbers. -/
def dA : Nat := 1
def dB : Nat := 2
def dHbmA : Nat := 3
def dHbmB : Nat := 4
def dIngA : Nat := 5
def dIngB : Nat := 6
def dLnk : Nat := 7
def dHost : Nat := 8
def dRhz : Nat := 9
def dCap : Nat := 10

/-- R424: the parent of a domain. -/
def domParent (d : Nat) : Option Nat :=
  if d = 0 ∨ 10 ≤ d then none else if d = 8 then some 0 else if d = 6 then some 5 else some 8

def domChildren (d : Nat) : List Nat := (List.range 11).filter fun c => domParent c == some d

/-- A domain's parents, its own first. -/
def domAncestors (d : Nat) : List Nat :=
  match domParent d with
  | none => []
  | some 0 => [0]
  | some p => if p = 5 then [5, 8, 0] else [p, 0]

/-- R424: the domain of a stop's unit. -/
def stopDomain (stop : Nat) : Nat :=
  match kindOf stop with
  | .at | .mt | .sft | .cz | .sor => if dieOf stop = 0 then dA else dB
  | .hbp => if dieOf stop = 0 then dHbmA else dHbmB
  | .ing => if dieOf stop = 0 then dIngA else dIngB
  | .eth => dIngA
  | .lnk => dLnk
  | .rgw => dRhz
  | _ => dHost

/-- Registers of the Capsule, which no reset, clock or supply of the main side reaches (R337): its gateway's command, state and reply
registers. -/
def capsuleReg (a : Nat) : Bool :=
  (decide (0x00700000 ≤ a) && decide (a < 0x00700020)) || (decide (0x00700040 ≤ a) && decide (a < 0x00700080))

/-- R424, R426: the domain that a BAR0 address belongs to. -/
def addrDomain (a : Nat) : Nat :=
  match windowOf a with
  | some (stop, off) => if 0xF000 ≤ off then dHost else stopDomain stop
  | none =>
    if 0x00400000 ≤ a ∧ a < 0x00500000 then dIngA
    else if 0x00500000 ≤ a ∧ a < 0x00508000 then dLnk
    else if 0x00600000 ≤ a ∧ a < 0x00700000 then dRhz
    else if 0x03000000 ≤ a ∧ a < 0x03000800 then dHbmA
    else if 0x03000800 ≤ a ∧ a < 0x03001000 then dHbmB
    else if 0x00700000 ≤ a ∧ a < 0x00900000 then dHost
    else if 0x00100000 ≤ a ∧ a < 0x00200000 then dHost
    else if 0x03001000 ≤ a then dHost
    else 0

/-- R426, R403: the domain of a BAR2 address. -/
def bar2Domain (a : Nat) : Nat :=
  if a < 0x600000000 then dHbmA else if a < 0xC00000000 then dHbmB
  else if (a - 0xC00000000) / 0x1000000 < 448 then stopDomain ((a - 0xC00000000) / 0x1000000) else dHost

def domReg (d : Nat) : Nat := 0x00200000 + 0x40 * d

/-- R443: phases. -/
def phRun : Nat := 0
def phEntry : Nat := 1
def phStop : Nat := 2
def phExit : Nat := 3
def phFault : Nat := 4

def State.phase (s : State) (d : Nat) : Nat := s.rf (domReg d) 0 3
def State.step6 (s : State) (d : Nat) : Nat := s.rf (domReg d) 3 3
def State.inRun (s : State) (d : Nat) : Bool := s.phase d == phRun
/-- R426, R430: the domain answers for itself: in Run, or in steps 1 to 5 of entry. -/
def State.answers (s : State) (d : Nat) : Bool := s.phase d == phRun || (s.phase d == phEntry && decide (s.step6 d < 6))
def State.votes (s : State) (d : Nat) : Nat := s.rf (domReg d + 4) 0 6

/-- R427: wanted in Run while any bit is set, or while a child is in Run or leaving Stop. D_CAP follows the Capsule, which is
in Run while it is out of reset (log 16). -/
def State.wantedNow (s : State) (d : Nat) : Bool :=
  if d = dCap then s.rf 0x00700014 0 3 != 0
  else s.votes d != 0 || (domChildren d).any fun c => s.phase c == phRun || s.phase c == phExit

/-- Brings `wanted` of every domain up to date; a change during an exit or step 6 is latched (R432, R433). -/
def State.refresh (s : State) : State :=
  (List.range 11).foldl (fun s d =>
    let w := s.wantedNow d
    if w = s.flag (domReg d) 8 then s
    else
      let s := s.wf (domReg d) 8 1 (boolNat w)
      if s.phase d = phExit ∨ (s.phase d = phEntry ∧ s.step6 d = 6) then s.setFlag (domReg d) 6 else s) s

/-- R431, R432: a wake aimed at a domain that is in entry. -/
def State.wakeDom (s : State) (d : Nat) : State :=
  if s.phase d = phEntry then
    let s := if s.step6 d = 6 then s.setFlag (domReg d) 6 else s
    { s with pwr := { s.pwr with woken := if s.pwr.woken.contains d then s.pwr.woken else d :: s.pwr.woken } }
  else s

/-- R427, R431: a client (by its code, R427) sets its vote; the domain and its parents are woken. D_CAP takes no vote
(R425). -/
def State.vote (s : State) (d client : Nat) : State :=
  if 10 ≤ d then s
  else
    let s := s.setFlag (domReg d + 4) client
    let p := { s.pwr with counted := s.pwr.counted.filter fun x => x != d
                          stuck := s.pwr.stuck.filter fun x => x != d }
    let s := { s with pwr := p }
    ((d :: domAncestors d).foldl State.wakeDom s).refresh

/-- R427: a client withdraws its vote; GOV's on D_AON stays (R425). -/
def State.unvote (s : State) (d client : Nat) : State :=
  if 10 ≤ d ∨ (d = 0 ∧ client = 1) then s
  else
    let s := s.clrFlag (domReg d + 4) client
    ({ s with pwr := { s.pwr with stuck := s.pwr.stuck.filter fun x => x != d } }).refresh

/-- R425, R443: the state of D_CAP as the main side shows it. -/
def State.capDomain (s : State) : State :=
  let up := s.rf 0x00700014 0 3 != 0
  (s.wf (domReg dCap) 0 3 (if up then phRun else phStop)).wf (domReg dCap) 8 1 (if up then 1 else 0)

/-- The mask of domains in Run, as VOTE and the wake port answer it (R411, R439). -/
def State.runMask (s : State) : Nat := ((List.range 11).filter s.inRun).foldl (fun m d => m + 2 ^ d) 0

end Sys2Proof.Machine
end

