-- ==== Sys2Proof/Machine/Commands.lean ====
section
/-! DEFINITION. The fetch of commands, their order and their arguments (R332, R333, R405, R407, R409, R411, R413). -/

namespace Sys2Proof.Machine

/-- R409, R411: the bits that a command's table names, as (offset, bits). -/
def argBits (opc : Nat) : List (Nat × Nat) :=
  match opc with
  | 1 => [(0x10, 2 ^ 64 - 1), (0x18, 2 ^ 32 - 1), (0x1C, 7)]
  | 5 => [(0x10, 31), (0x18, 2 ^ 64 - 1), (0x20, 0x7FFF), (0x24, 2 ^ 32 - 1)]
  | 6 => [(0x10, 3)]
  | 7 => [(0x10, 0x107FF)]
  | 8 => [(0x10, 2 ^ 256 - 1), (0x30, 0x3FF)]
  | 9 => [(0x10, 0x1F), (0x18, 2 ^ 64 - 1)]
  | _ => []

def argMask (opc : Nat) : Payload :=
  let hdr := 0xFFFF00FF + 0xFFFFFFFF * 2 ^ 32 + 0x3F0F * 2 ^ 64
  BitVec.ofNat 512 ((argBits opc).foldl (fun m a => m + a.2 * 2 ^ (8 * a.1)) hdr)

/-- R409: a byte that the command does not name is not 0. -/
def Cmd.stray (c : Cmd) : Bool := (c.entry &&& ~~~(argMask c.opc)) != 0

def isOpc (o : Nat) : Bool := 1 ≤ o && o ≤ 9
/-- R332: commands that may be forwarded. -/
def mayForward (o : Nat) : Bool := o == 2 || o == 3 || o == 4 || o == 6 || o == 7

/-- R413: the pipelines that a command names: none, one, or (a LOAD of pipelines) any. -/
def Cmd.names (c : Cmd) (p : Nat) : Bool :=
  if c.opc = 1 then c.arg 0x1C 0 2 != 1 else (c.opc == 2 || c.opc == 3 || c.opc == 4 || c.opc == 6) && c.pipe == p

/-- Two commands that may not run at the same time (R413). -/
def Cmd.clash (a b : Cmd) : Bool :=
  (a.origin == b.origin && a.ring == b.ring) || (List.range 64).any fun p => a.names p && b.names p

/-- The commands under way. -/
def State.running (s : State) : List Cmd :=
  (s.gov.pipes.flatMap fun x => x.2.cmd.toList ++ (x.2.update.map (·.cmd)).toList) ++ (s.gov.join.map (·.cmd)).toList ++
    s.gov.capture.toList ++ s.ingest.cams.flatMap fun x => x.2.inj.map (·.cmd)

/-- R413: the k-th fetched command may begin. -/
def State.mayBegin (s : State) (k : Nat) : Bool :=
  match s.host.cmds[k]? with
  | none => false
  | some c => s.boot.started && !((s.host.cmds.take k).any c.clash) && !(s.running.any c.clash)

/-- The k-th fetched command begins, if it is of the opcode that the step names. -/
def State.begin (s : State) (k opc : Nat) : Option (Cmd × State) :=
  match takeAt s.host.cmds k with
  | none => none
  | some (c, rest) =>
    if s.mayBegin k ∧ c.opc = opc then
      some (c, { s with host := { s.host with cmds := rest } })
    else none

/-- R333, R410: a command of this part is applied, or is a repeated one. -/
def State.accept (s : State) (c : Cmd) : State :=
  let key := c.origin * 64 + c.ring
  let d := (c.seq - tget 0 s.host.seqs key).toNat
  if d = 0 ∨ 2 ^ 31 ≤ d then s.complete c stDup
  else
    let s := { s with host := { s.host with seqs := tput 0 s.host.seqs key c.seq } }
    if isOpc c.opc then
      { s with host := { s.host with cmds := s.host.cmds ++ [c] } }
    else s.complete c stBadopc

/-- R332: a fetched command runs here, is forwarded, or completes at once. -/
def State.route (s : State) (c : Cmd) : State :=
  if c.target = s.devId then s.accept c
  else if !mayForward c.opc then s.complete c stNofwd
  else if !s.flag 0x00508004 c.target then s.complete c stUnreach
  else
    let away := if c.origin = s.devId then s.host.away ++ [(c.ring, c.seq)] else s.host.away
    { s with host := { s.host with relay := s.host.relay ++ [⟨c.target, c.origin, c.ring, c.entry, false⟩], away := away } }

/-- R332, R400: a completion that comes back for this part's host; a Function Level Reset has forgotten the command if none awaits it. -/
def State.forwardedDone (s : State) (origin ring : Nat) (e : Payload) : State :=
  let key := (ring, entryWord e 4)
  if origin ≠ s.devId then s.completion origin ring e
  else if s.host.away.contains key then ({ s with host := { s.host with away := s.host.away.erase key } }).completion origin ring e
  else s

/-- R405, R407, R408: a submission ring may be fetched. -/
def State.fetchable (s : State) (n : Nat) : Bool :=
  let cq := s.rf (ringReg 0 n + 8) 8 6
  s.ringOk 0 n && s.ringTail 0 n != s.ringHead 0 n &&
    !(s.host.compl.any (fun x => x.1 == cq) && !s.ringRoom 1 cq)

/-- R405: the next ring in the round robin. -/
def State.nextRing (s : State) : Option Nat :=
  ((List.range 64).map fun i => (s.host.turn + 1 + i) % 64).find? s.fetchable

/-- R405: the fetch of an entry; `none` is a read that completes with an error (R408). -/
def State.fetchCmd (s : State) (n : Nat) (entry : Option Payload) : State :=
  if s.nextRing ≠ some n ∨ !s.boot.started then s
  else
    let s := { s with host := { s.host with turn := n } }
    if !s.ringEn 1 (s.rf (ringReg 0 n + 8) 8 6) then s.ringError 0 n 3
    else
      match entry with
      | none => s.ringError 0 n 2
      | some e =>
        let s := s.wf (ringReg 0 n + 0x10) 0 16 ((s.ringHead 0 n + 1) % s.ringSize 0 n)
        s.route { origin := s.devId, ring := n, entry := e }

/-- R332: a command that another part forwarded: it runs here, or goes on along its way. -/
def State.fetchForwarded (s : State) (origin ring : Nat) (entry : Payload) : State :=
  let c : Cmd := { origin := origin, ring := ring, entry := entry }
  if s.boot.started ∧ origin < 16 ∧ origin ≠ s.devId ∧ ring < 64 then
    if mayForward c.opc then s.route c else s.complete c stNofwd
  else s

end Sys2Proof.Machine
end

