-- ==== Sys2Proof/Machine/Images.lean ====
section
/-! DEFINITION. What the bytes of signed objects and images say (R3): headers (R445), section directory, manifest and
pipeline entries of a load image (R415), owner records (R451), debug tokens (R480). -/

namespace Sys2Proof
open Sys2Proof.Machine

/-- R3: the number in n bytes, the lowest first. -/
def numAt (b : Tbl Byte) (o n : Nat) : Nat := leNat (getBytes b o n)

/-! ## Headers of signed objects (R445) -/

def SignedObj.magic (o : SignedObj) : Word := BitVec.ofNat 32 (numAt o.header 0 4)
def SignedObj.hver (o : SignedObj) : Nat := numAt o.header 4 2
def SignedObj.itype (o : SignedObj) : Nat := numAt o.header 6 2
def SignedObj.hflags (o : SignedObj) : Nat := numAt o.header 8 4
def SignedObj.ratchet (o : SignedObj) : Bool := o.hflags % 2 == 1
def SignedObj.sv (o : SignedObj) : Nat := numAt o.header 0xC 4
def SignedObj.bodyLen (o : SignedObj) : Nat := numAt o.header 0x10 8
def SignedObj.entry (o : SignedObj) : Nat := numAt o.header 0x18 4
def SignedObj.part (o : SignedObj) : Nat := numAt o.header 0x1C 2
def SignedObj.steps (o : SignedObj) : Nat := numAt o.header 0x1E 1
/-- The digest of the body; its first byte is the number's lowest. -/
def SignedObj.digest (o : SignedObj) : BitVec 384 := BitVec.ofNat 384 (numAt o.header 0x30 48)

/-- The header bytes that R445 gives a field. -/
def headerField (a : Nat) : Bool :=
  decide (a < 0x1F) || (decide (0x30 ≤ a) && decide (a < 0x60)) || (decide (0x80 ≤ a) && decide (a < 0x230)) ||
    (decide (0x400 ≤ a) && decide (a < 0x580))

/-- R445, R446: every field that must be 0 is. -/
def SignedObj.zeroOk (o : SignedObj) : Bool :=
  o.hflags / 2 == 0 && (o.itype == 1 || o.entry == 0) && o.header.all fun e => headerField e.1 || e.2 == 0

/-! ## Load images (R415) -/

def PipeEntry.id (e : PipeEntry) : Nat := numAt e.bytes 0 1
def PipeEntry.m (e : PipeEntry) : Nat := numAt e.bytes 1 1
def PipeEntry.rate (e : PipeEntry) : Nat := numAt e.bytes 4 4
/-- The progress bound in µs (R249). -/
def PipeEntry.bound (e : PipeEntry) : Nat := numAt e.bytes 8 4
/-- The handle return time in µs. -/
def PipeEntry.handleTime (e : PipeEntry) : Nat := numAt e.bytes 0xC 4
def PipeEntry.quietGap (e : PipeEntry) : Nat := numAt e.bytes 0x10 4
def PipeEntry.belts (e : PipeEntry) : Nat := numAt e.bytes 0x14 1
def PipeEntry.ring (e : PipeEntry) : Nat := numAt e.bytes 0x15 1
def PipeEntry.swid (e : PipeEntry) : Word := BitVec.ofNat 32 (numAt e.bytes 0x18 4)
def PipeEntry.sync0 (e : PipeEntry) : Nat := numAt e.bytes 0x1C 4
def PipeEntry.syncN (e : PipeEntry) : Nat := numAt e.bytes 0x20 4

def Tjl.format (t : Tjl) : Nat := numAt t.manifest 0 2
def Tjl.profile (t : Tjl) : Nat := numAt t.manifest 2 1
def Tjl.kind (t : Tjl) : Nat := numAt t.manifest 3 1
def Tjl.part (t : Tjl) : Nat := numAt t.manifest 4 2
def Tjl.steps (t : Tjl) : Nat := numAt t.manifest 6 1
/-- The pipeline mask. -/
def Tjl.mask (t : Tjl) : Nat := numAt t.manifest 8 8
def Tjl.devId (t : Tjl) : Nat := numAt t.manifest 0x10 1
def Tjl.domain (t : Tjl) : Nat := numAt t.manifest 0x11 1
def Tjl.channels (t : Tjl) : Bool := numAt t.manifest 0x12 2 % 2 == 1
def Tjl.digest (t : Tjl) : BitVec 256 := BitVec.ofNat 256 (numAt t.manifest 0x20 32)
def Tjl.hbmA (t : Tjl) : Nat := numAt t.manifest 0x58 8
def Tjl.hbmB (t : Tjl) : Nat := numAt t.manifest 0x60 8
def Tjl.segCells (t : Tjl) : Nat := numAt t.manifest 0x68 4
def Tjl.segA (t : Tjl) : Nat := numAt t.manifest 0x6C 2
def Tjl.segB (t : Tjl) : Nat := numAt t.manifest 0x6E 2
/-- The cameras bound, by number. -/
def Tjl.cams (t : Tjl) : List Nat := (List.range 64).filter fun c => numAt t.manifest 0x70 8 / 2 ^ c % 2 == 1

/-- A directory entry whose type is not one of the table's, or whose section does not lie in an image of n bytes. -/
def sectionBad (n : Nat) (e : Tbl Byte) : Bool :=
  let ty := numAt e 0 2
  ty == 0 || decide (7 < ty) || decide (n < numAt e 4 4 + numAt e 8 4)

/-- R415, R416: the number of the first section that the directory names badly, or of the manifest where its pipeline mask is
not that of its entries, or these do not stand in increasing id. -/
def Tjl.dirErr (t : Tjl) (n : Nat) : Option Nat :=
  if 256 < t.dir.length then some 256
  else
    let ids := t.pipes.map PipeEntry.id
    let bad := t.dir.findIdx? (sectionBad n)
    let man := t.dir.findIdx? fun e => numAt e 0 2 == 1
    let ok := t.mask == (ids.map fun p => 2 ^ p).sum && (ids.zip ids.tail).all (fun x => decide (x.1 < x.2)) && ids.all fun p => decide (p < 64)
    bad.orElse fun _ => match man with
      | none => some t.dir.length
      | some k => if ok then t.formErr else some k

/-! ## Owner records and debug tokens -/

def OwnerBody.format (b : OwnerBody) : Nat := numAt b.bytes 0 4
def OwnerBody.oseq (b : OwnerBody) : Nat := numAt b.bytes 4 4
def OwnerBody.serial (b : OwnerBody) : W64 := BitVec.ofNat 64 (numAt b.bytes 8 8)
/-- The owner's key hash; its first byte is the number's lowest. -/
def OwnerBody.ownerHash (b : OwnerBody) : BitVec 384 := BitVec.ofNat 384 (numAt b.bytes 0x10 48)
/-- The minima of types 1, 2, 4 and 6. -/
def OwnerBody.minima (b : OwnerBody) : List Nat := (List.range 4).map fun k => numAt b.bytes (0x40 + 4 * k) 4
def OwnerBody.vendorMask (b : OwnerBody) : Nat := numAt b.bytes 0x50 1
/-- The bytes that must be 0 are. -/
def OwnerBody.restZero (b : OwnerBody) : Bool := b.vendorMask / 16 == 0 && b.bytes.all fun e => decide (e.1 ≤ 0x50) || e.2 == 0

def TokenBody.format (b : TokenBody) : Nat := numAt b.bytes 0 4
def TokenBody.perms (b : TokenBody) : Nat := numAt b.bytes 4 4
def TokenBody.serial (b : TokenBody) : W64 := BitVec.ofNat 64 (numAt b.bytes 8 8)
def TokenBody.challenge (b : TokenBody) : BitVec 384 := BitVec.ofNat 384 (numAt b.bytes 16 48)
/-- The bytes that must be 0 are. -/
def TokenBody.restZero (b : TokenBody) : Bool := b.bytes.all fun e => decide (e.1 < 64) || e.2 == 0

end Sys2Proof
end

