-- ==== Sys2Proof/Machine/Verify.lean ====
section
/-! DEFINITION. The verification of signed objects (R445 to R447, R457). -/

namespace Sys2Proof.Machine

/-- R445, R446: bytes of a signed object whose body has `n` bytes: header, body and tail. -/
def objBytes (n : Nat) : Nat := 0x1000 + (n + 63) / 64 * 64 + 16384

/-- A number kept in consecutive registers, lowest word first. -/
def State.rdWide (s : State) (a : Nat) : Nat → Nat
  | 0 => 0
  | n + 1 => (s.rd a).toNat + 2 ^ 32 * s.rdWide (a + 4) n

def State.wrWide (s : State) (a v : Nat) : Nat → State
  | 0 => s
  | n + 1 => (s.wr a (BitVec.ofNat 32 v)).wrWide (a + 4) (v / 2 ^ 32) n

/-- R453: an owner is in force, and its key hash. -/
def State.owned (s : State) : Bool := s.flag 0x00300000 3
def State.ownerHash (s : State) : BitVec 384 := BitVec.ofNat 384 (s.rdWide 0x00300040 12)

/-- R447: the vendor slot of a key hash that the mask in force accepts. -/
def State.vendorSlot (s : State) (h : BitVec 384) : Option Nat :=
  (List.range 4).find? fun k => s.boot.vendorMask / 2 ^ k % 2 == 1 && h == Config.vendorKey k

/-- R447: the key hash is accepted for the type. -/
def State.keyOk (s : State) (itype : Nat) (h : BitVec 384) : Bool :=
  if itype = 1 ∨ itype = 7 then (s.vendorSlot h).isSome
  else if itype = 2 ∨ itype = 3 ∨ itype = 4 ∨ itype = 6 then
    (if s.owned then h == s.ownerHash else (s.vendorSlot h).isSome)
  else false

/-- R451: the minimum in force for a type. -/
def State.minSv (s : State) (itype : Nat) : Nat :=
  let r (k : Nat) : Nat := (s.rd (0x00300010 + 4 * k)).toNat
  if itype = 1 then r 0 else if itype = 2 then r 1 else if itype = 4 then r 2 else if itype = 6 then r 3 else 0

/-- R446: the checks in order, for a verifier that expects a type, accepts a key and has a minimum; the code of the first
that fails. -/
def objVerify (o : SignedObj) (itype : Nat) (key : Bool) (minimum : Nat) : Option Nat :=
  if o.magic ≠ 0x31484A54 ∨ o.hver ≠ 1 ∨ !o.zeroOk ∨ o.objLen ≠ objBytes o.bodyLen then some 1
  else if o.part ≠ 0x9648 ∨ o.steps / 2 % 2 = 0 ∨ o.itype ≠ itype then some 3
  else if !key ∨ !o.rsaOk ∨ !o.slhOk ∨ !o.digestOk then some 2
  else if o.sv < minimum then some 3
  else none

/-- A verification on the main side (R446, R447, R451). -/
def State.verify (s : State) (o : SignedObj) (itype : Nat) : Option Nat :=
  objVerify o itype (s.keyOk itype o.keyHash) (s.minSv itype)

/-- R457: a verification by the Capsule. -/
def capsuleVerify (o : SignedObj) : Option Nat :=
  objVerify o 5 (o.keyHash == Config.capsuleKey 0 || o.keyHash == Config.capsuleKey 1) 0

end Sys2Proof.Machine
end

