-- ==== Sys2Proof/Machine/Fabric.lean ====
section
/-! DEFINITION. The logic of the Rhizoid fabric: product terms, macrocells, mux chains, routing wires, tri-state lines,
block RAMs and what an edge does to them (R368 to R378, R380, R382, R384). -/

namespace Sys2Proof.Machine

/-- R385: load states. -/
def lsUnloaded : Nat := 0
def lsLoading : Nat := 1
def lsVerifying : Nat := 2
def lsArmed : Nat := 3
def lsRunning : Nat := 4

def State.lstate (s : State) : Nat := s.rf 0x00600000 0 3
def State.setLstate (s : State) (v : Nat) : State := s.wf 0x00600000 0 3 v

/-- R379: the input level of a user pin. -/
def State.pinIn (s : State) (n : Nat) : Bool := s.flag (0x00600280 + 4 * (n / 32)) (n % 32)

def noCell : MacroCfg :=
  { terms := [], steer := 0, pol := false, xorT := false, ffk := 0, outReg := false, aset := false, ares := false,
    clk := ⟨0, false⟩, chain := 0, initQ := false }

/-- A point of the network: a routing wire, a macrocell's routing output, its XOR output after and before a mux chain. -/
inductive RhzNode where
  | wire (w : Nat)
  | out (m : Nat)
  | xorOut (m : Nat)
  | raw (m : Nat)
  deriving DecidableEq, Repr

/-- R369: the group of macrocell m is taken by a lower macrocell of its block. -/
def rhzTaken (d : RhzDesign) (m : Nat) : Bool :=
  [1, 2, 3].any fun k => decide (k ≤ m % 16) && decide (k ≤ (tget noCell d.cells (m - k)).steer)

/-- R369 to R371: the terms of a macrocell's own group that are in a sum. -/
def sumTerms (c : MacroCfg) : List (List Literal) :=
  (c.terms.zipIdx.filter fun t =>
    !((t.2 == 0 && c.xorT) || (t.2 == 1 && c.ffk == 2) || (t.2 == 2 && c.aset) || (t.2 == 3 && c.ares))).map (·.1)

/-- R378: a driver of a line is active. `ev` gives the value of a wire. -/
def triActive (d : RhzDesign) (line : Nat) (ev : Nat → Bool) : List Nat :=
  (d.tris.filter fun t => t.line == line && (match t.en with
    | none => true
    | some w => ev w)).map (·.cell)

/-- R378: the value of a line: the driver, the keeper, or the lowest driver once contention has lasted 2 ns; before that
it is a free value (log 10). -/
def RhzSt.lineValue (x : RhzSt) (line : Nat) (drivers : List Nat) (out : Nat → Bool) : Bool :=
  match drivers with
  | [] => tget false x.tri line
  | [c] => out c
  | c :: cs =>
    if x.counted.contains line then out ((c :: cs).foldl min c)
    else Config.unstated 378 (x.bits * 16 + line) % 2 == 1

/-- The number whose bits are the values of wires, bit 0 first. -/
def wiresNat (ev : Nat → Bool) : List Nat → Nat
  | [] => 0
  | w :: ws => boolNat (ev w) + 2 * wiresNat ev ws

/-- The value of a point of the network (R368 to R371, R374, R375, R378). Every loop passes through a storage element
(R375); the first argument bounds the depth of a path. -/
def State.ev (s : State) (d : RhzDesign) : Nat → RhzNode → Bool
  | 0, _ => false
  | f + 1, .wire w =>
    let x := tget ⟨9, 0⟩ d.wires w
    match x.kind with
    | 0 => s.ev d f (.out x.index)
    | 1 => s.pinIn x.index
    | 2 => s.rhz.lineValue x.index (triActive d x.index fun w => s.ev d f (.wire w)) fun c => s.ev d f (.out c)
    | 3 => (tget 0 s.rhz.ramOut (x.index / 36)).getLsbD (x.index % 36)
    | 4 => (tget 0 s.rhz.greg (x.index / 32)).getLsbD (x.index % 32)
    | 5 => s.flag (0x00600704 + 0x10 * (x.index / 32)) (x.index % 32)
    | 6 => s.flag (0x0060070C + 0x10 * x.index) 31
    | 7 => match d.hops.find? fun h => h.1 == x.index with
      | some h => if h.2.reg then tget false s.rhz.hop x.index else s.ev d f (.wire h.2.src)
      | none => false
    | 8 => (tget 0 s.rhz.popped (x.index / 32)).getLsbD (x.index % 32)
    | _ => false
  | f + 1, .out m => if (tget noCell d.cells m).outReg then tget false s.rhz.q m else s.ev d f (.xorOut m)
  | f + 1, .xorOut m =>
    let c := tget noCell d.cells m
    if c.chain = 0 then s.ev d f (.raw m)
    else
      let sel := wiresNat (fun w => s.ev d f (.wire w)) ((tget [] d.selects (m / 64)).take c.chain)
      s.ev d f (.raw (m + 1 - 2 ^ c.chain + sel))
  | f + 1, .raw m =>
    let c := tget noCell d.cells m
    let lit (k : Nat) (l : Literal) : Bool :=
      let b := tget ⟨[], 0, 0⟩ d.blocks (k / 16)
      s.ev d f (.wire (b.inputs.getD l.input 0)) != l.neg
    let term (k : Nat) (t : List Literal) : Bool := t.all (lit k)
    let groups := m :: ((List.range c.steer).map fun k => m + 1 + k)
    let sum := !rhzTaken d m && groups.any fun g => (sumTerms (tget noCell d.cells g)).any (term g)
    sum != (if c.xorT then (c.terms[0]?).any (term m) else c.pol)

/-- A bound on the depth of a path: no path without a storage element is longer. -/
def rhzDepth : Nat := 16384

def State.wireVal (s : State) (d : RhzDesign) (w : Nat) : Bool := s.ev d rhzDepth (.wire w)

/-- R370, R371: term k of a macrocell's own group, 0 when the image uses none. -/
def State.term (s : State) (d : RhzDesign) (m k : Nat) : Bool :=
  let b := tget ⟨[], 0, 0⟩ d.blocks (m / 16)
  ((tget noCell d.cells m).terms[k]?).any fun t =>
    t.all fun l => s.wireVal d (b.inputs.getD l.input 0) != l.neg

/-- R373: the level of a global clock. -/
def State.gclkLevel (s : State) (d : Option RhzDesign) (n : Nat) : Bool :=
  match s.rf (0x00600040 + 4 * n) 0 2 with
  | 0 => s.pinIn (24 * n)
  | 3 => d.any fun d => (d.gclkWire.find? fun x => x.1 == n).any fun x => s.wireVal d x.2
  | _ => tget false s.rhz.gclk n

/-- R372: the level of a clock choice; `locals` are the wires of the two local lines. -/
def State.clockOf (s : State) (d : RhzDesign) (c : ClockSel) (l4 l5 : Nat) : Bool :=
  (if c.sel < 4 then s.gclkLevel (some d) c.sel else s.wireVal d (if c.sel = 4 then l4 else l5)) != c.inv

def State.cellClock (s : State) (d : RhzDesign) (m : Nat) : Bool :=
  let b := tget ⟨[], 0, 0⟩ d.blocks (m / 16)
  s.clockOf d (tget noCell d.cells m).clk (b.inputs.getD b.local4 0) (b.inputs.getD b.local5 0)

def State.portClock (s : State) (d : RhzDesign) (p : RamPort) : Bool := s.clockOf d p.clk p.clkWire p.clkWire

def lvHop (h : Nat) : Nat := 2048 + h
def lvPort (r p : Nat) : Nat := 6144 + 2 * r + p
def lvGw : Nat := 6208

/-- R380: the level of `gw_clk`. -/
def State.gwLevel (s : State) : Bool := s.gclkLevel s.rhz.design (s.rf 0x0060000C 5 2)

/-- R370, R371: what a storage element holds after its clock goes from `old` to `now`. -/
def State.cellNext (s : State) (d : RhzDesign) (m : Nat) (c : MacroCfg) (old now : Bool) : Bool :=
  let q := tget false s.rhz.q m
  let x := s.ev d rhzDepth (.xorOut m)
  if c.ares && s.term d m 3 then false
  else if c.aset && s.term d m 2 then true
  else if c.ffk = 3 then (if now then x else q)
  else if now && !old then
    (if c.ffk = 0 then x else if c.ffk = 1 then q != x
     else
      let k := s.term d m 1
      (x && !q) || (!k && q))
  else q

/-! ## Block RAM -/

/-- R376: physical word, first bit and mask of an address at a port of width w. -/
def ramPlace (w a : Nat) : Nat × Nat :=
  let per := if w ≤ 4 then 32 else 36
  let a := a % (1024 * (per / w))
  (a * w / per, w * (a % (per / w)))

/-- R376, R377: an active edge at a port. -/
def State.ramEdge (s : State) (s0 : State) (d : RhzDesign) (r pn : Nat) (p : RamPort) : State :=
  if !s0.wireVal d p.en then s
  else
    let (word, sh) := ramPlace p.width (wiresNat (s0.wireVal d) p.addr)
    let key := r * 1024 + word
    let other := s.rhz.acc.find? fun a => a.ram == r && a.port != pn && a.word == word
    let cur := tget 0 s.rhz.ram key
    let seen := other.elim cur fun o => o.before
    let m : BitVec 36 := BitVec.ofNat 36 (2 ^ p.width - 1) <<< sh
    let data : BitVec 36 := BitVec.ofNat 36 (wiresNat (s0.wireVal d) (p.data.take p.width)) <<< sh
    let we := s0.wireVal d p.we
    let wm : BitVec 36 := if we then m else 0
    let keep : BitVec 36 := if pn = 1 then other.elim 0 fun o => o.mask else 0
    let put := wm &&& ~~~keep
    let slice (v : BitVec 36) : BitVec 36 := (v >>> sh) &&& BitVec.ofNat 36 (2 ^ p.width - 1)
    let ok := r * 2 + pn
    let x := { s.rhz with ram := tput 0 s.rhz.ram key ((cur &&& ~~~put) ||| (data &&& put))
                          acc := s.rhz.acc ++ [⟨r, pn, word, seen, wm, data⟩]
                          ramOut := if we ∧ p.wmode = 2 then s.rhz.ramOut
                            else tput 0 s.rhz.ramOut ok (slice (if we ∧ p.wmode = 1 then data else seen)) }
    let s := { s with rhz := x }
    if other.isSome then (s.setFlag 0x0060001C 16).count 0x00600024 0 32 else s

/-! ## One step of the network -/

/-- R380: an edge of `gw_clk`: the copies of registers 16 to 31, and host writes that reach the fabric. -/
def State.gwEdge (s : State) (s0 : State) : State :=
  let s : State := match s.rhz.design with
    | some d => d.gregOut.foldl (fun (s : State) (g : Nat × List Nat) =>
        s.wr (0x00600400 + 4 * g.1) (BitVec.ofNat 32 (wiresNat (s0.wireVal d) g.2))) s
    | none => s
  let due := s.rhz.gin.filter fun g => g.2.2 ≤ 1
  let x := { s.rhz with gin := (s.rhz.gin.filter fun g => 1 < g.2.2).map fun g => (g.1, g.2.1, g.2.2 - 1)
                        greg := due.foldl (fun t (g : Nat × Word × Nat) => tput 0 t g.1 g.2.1) s.rhz.greg }
  { s with rhz := x }

def State.gwStep (s : State) (s0 : State) : State :=
  let now := s0.gwLevel
  let s := if now && !tget false s0.rhz.lv lvGw then s.gwEdge s0 else s
  { s with rhz := { s.rhz with lv := tput false s.rhz.lv lvGw now } }

/-- Every element sees its clock once; each reads what stood before the step. -/
def State.sweep (s : State) (d : RhzDesign) : State :=
  let old (k : Nat) : Bool := tget false s.rhz.lv k
  let cells := d.cells.map fun c => (c.1, s.cellNext d c.1 c.2 (old c.1) (s.cellClock d c.1), s.cellClock d c.1)
  let hops := (d.hops.filter fun h => h.2.reg).map fun h =>
    let now := s.gclkLevel (some d) h.2.clk
    (h.1, (if now && !old (lvHop h.1) then s.wireVal d h.2.src else tget false s.rhz.hop h.1), now)
  let ports := d.rams.flatMap fun r => [(r.1, 0, r.2.a), (r.1, 1, r.2.b)]
  let x := { s.rhz with
    q := cells.foldl (fun t c => tput false t c.1 c.2.1) s.rhz.q
    hop := hops.foldl (fun t h => tput false t h.1 h.2.1) s.rhz.hop
    lv := hops.foldl (fun t h => tput false t (lvHop h.1) h.2.2) (cells.foldl (fun t c => tput false t c.1 c.2.2) s.rhz.lv)
    tri := (List.range 16).foldl (fun t l =>
      tput false t l (s.rhz.lineValue l (triActive d l (s.wireVal d)) fun c => s.ev d rhzDepth (.out c))) s.rhz.tri }
  let s1 := { s with rhz := x }
  let s1 := ports.foldl (fun s1 p =>
    let now := s.portClock d p.2.2
    let s1 := if now && !old (lvPort p.1 p.2.1) then s1.ramEdge s d p.1 p.2.1 p.2.2 else s1
    { s1 with rhz := { s1.rhz with lv := tput false s1.rhz.lv (lvPort p.1 p.2.1) now } }) s1
  s1.gwStep s

/-- The network settles: steps follow until nothing changes. -/
def State.fabSettleN (s : State) (d : RhzDesign) : Nat → State
  | 0 => s
  | n + 1 =>
    let s1 := s.sweep d
    if s1.rhz = s.rhz ∧ s1.regs = s.regs then s else s1.fabSettleN d n

/-- R378: lines with several active drivers; a new overlap starts its time. -/
def State.overlaps (s : State) (d : RhzDesign) : State :=
  let now := (List.range 16).filter fun l => 1 < (triActive d l (s.wireVal d)).length
  let x := s.rhz
  let fresh := now.filter fun l => !x.counted.contains l && !(x.overlaps.any fun o => o.1 == l)
  let x := { x with counted := x.counted.filter now.contains
                    overlaps := (x.overlaps.filter fun o => now.contains o.1) ++ fresh.map fun l => (l, s.time)
                    bits := if fresh.isEmpty then x.bits else x.bits + 1 }
  { s with rhz := x }

/-- R382, R384, R427: what the design's trigger lines, routed capture sources and vote wires show. -/
def State.rhzOutputs (s : State) (d : RhzDesign) : State :=
  let s := d.trig.foldl (fun s t =>
    let v := s.wireVal d t.2
    if v = s.flag 0x00600580 t.1 then s
    else
      let s := s.wf 0x00600580 t.1 1 (boolNat v)
      { s with rhz := { s.rhz with trigEdges := s.rhz.trigEdges ++ [(t.1, v)] } }) s
  let s := d.tscSrc.foldl (fun s t =>
    let v := s.wireVal d t.2
    if v = tget false s.rhz.tscLv t.1 then s
    else { s with rhz := { s.rhz with tscLv := tput false s.rhz.tscLv t.1 v
                                      tscEdges := s.rhz.tscEdges ++ [⟨t.1, v, s.time⟩] } }) s
  d.voteWires.foldl (fun s v =>
    let now := s.wireVal d v.2
    if now = s.rhz.voteLv.contains v.1 then s
    else if now then ({ s with rhz := { s.rhz with voteLv := v.1 :: s.rhz.voteLv } }).vote v.1 3
    else ({ s with rhz := { s.rhz with voteLv := s.rhz.voteLv.filter fun x => x != v.1 } }).unvote v.1 3) s

/-- What follows a change at the fabric's inputs: a RUNNING design reacts; of any other only the gateway does. -/
def State.fabSettle (s : State) : State :=
  match s.rhz.design with
  | some d =>
    if s.lstate = lsRunning then (((s.fabSettleN d 4096).overlaps d).rhzOutputs d)
    else s.gwStep s
  | none => s.gwStep s

/-- R378: overlaps that have lasted 2 ns are contention. `all`: every overlap has (the next edge is not near). -/
def State.ripen (s : State) (all : Bool) : State :=
  let due := s.rhz.overlaps.filter fun o => all || decide (o.2 + 2 ≤ s.time)
  if due.isEmpty then s
  else
    let s := due.foldl (fun s o => (s.setFlag 0x0060001C o.1).count 0x00600020 0 32) s
    let x := { s.rhz with overlaps := s.rhz.overlaps.filter fun o => !due.contains o
                          counted := s.rhz.counted ++ due.map (·.1) }
    ({ s with rhz := x }).fabSettle

/-- Elements see the present clock levels and nothing else (R388: the release edge itself clocks no element). -/
def State.noteLevels (s : State) (d : RhzDesign) : State :=
  let lv := d.cells.foldl (fun t c => tput false t c.1 (s.cellClock d c.1)) s.rhz.lv
  let lv := d.hops.foldl (fun t h => tput false t (lvHop h.1) (s.gclkLevel (some d) h.2.clk)) lv
  let lv := d.rams.foldl (fun t r =>
    tput false (tput false t (lvPort r.1 0) (s.portClock d r.2.a)) (lvPort r.1 1) (s.portClock d r.2.b)) lv
  { s with rhz := { s.rhz with lv := lv } }

/-- R373: a global clock gives edges that a command brings: its source is the system reference or a locked PLL. -/
def State.gclkRuns (s : State) (n : Nat) : Bool :=
  let a := 0x00600040 + 4 * n
  s.rf a 0 2 == 1 || (s.rf a 0 2 == 2 && s.flag a 31)

/-- R370, R373: an edge of global clock n. `near`: less than 2 ns after the edge before it (R377). -/
def State.clockEdge (s : State) (n : Nat) (rising near : Bool) : State :=
  if 4 ≤ n ∨ !s.gclkRuns n ∨ !s.answers dRhz then s
  else
    let s := if near then s else s.ripen true
    let x := { s.rhz with gclk := tput false s.rhz.gclk n rising
                          acc := if near then s.rhz.acc else [] }
    let keep := x.acc.length
    let s := ({ s with rhz := x }).fabSettle
    { s with rhz := { s.rhz with acc := s.rhz.acc.drop keep } }

/-- R373: the clock gives the edge of a polarity now: a pin or a routing wire shows its level, the reference and a locked PLL give
edges of their own. -/
def State.edgeNow (s : State) (n : Nat) (rising : Bool) : Bool :=
  match s.rf (0x00600040 + 4 * n) 0 2 with
  | 1 => true
  | 2 => s.flag (0x00600040 + 4 * n) 31
  | _ => s.gclkLevel s.rhz.design n == rising

/-! ## Inputs that read a pin straight -/

/-- R383, R384: the inputs that read a pin: A, B and Z of decoders, pins of capture units. -/
def State.pinReaders (s : State) (pin : Nat) : List Nat :=
  ((List.range 24).filter fun k => s.rf (0x00600700 + 0x10 * (k / 3)) (1 + 7 * (k % 3)) 7 == pin) ++
    ((List.range 8).filter fun n => !s.flag (0x00600600 + 0x20 * n) 1 && s.rf (0x00600600 + 0x20 * n) 2 7 == pin).map (24 + ·)

/-- The level of an input behind its filter. -/
def State.inputLevel (s : State) (k : Nat) : Bool :=
  if k < 24 then tget 0 s.rhz.qd (k / 3) / 2 ^ (k % 3) % 2 == 1 else tget false s.rhz.tscPin (k - 24)

/-- R383, R384: the filter of an input, in ns. -/
def State.inputFilter (s : State) (k : Nat) : Nat :=
  10 * (if k < 24 then s.rf (0x00600700 + 0x10 * (k / 3)) 24 4 else s.rf (0x00600600 + 0x20 * (k - 24)) 14 4)

/-- The pin of an input has differed from it for as long as its filter asks: the input changes. -/
def State.inputDue (s : State) (k : Nat) : Bool := (tget none s.rhz.wait k).any fun t => decide (t + s.inputFilter k ≤ s.time)

/-- A pin changes: what its readers wait for. A pulse shorter than the filter leaves nothing (R383). -/
def State.pinWaits (s : State) (pin : Nat) (v : Bool) : State :=
  let w := (s.pinReaders pin).foldl (fun w k =>
    if v = s.inputLevel k then tput none w k none
    else if (tget none w k).isSome then w else tput none w k (some s.time)) s.rhz.wait
  { s with rhz := { s.rhz with wait := w } }

/-- R379: a pin input takes a level. -/
def State.setPin (s : State) (n : Nat) (v : Bool) : State :=
  let s := s.ripen true
  let s := { s with rhz := { s.rhz with acc := [] } }
  ((s.wf (0x00600280 + 4 * (n / 32)) (n % 32) 1 (boolNat v)).pinWaits n v).fabSettle

/-- R394: what PIN_HOLD holds a pin at, high impedance for the reserved mode. -/
def State.pinHold (s : State) (n : Nat) : Nat :=
  let a := 0x00600100 + 4 * n
  (if s.rf a 0 2 = 3 then 0 else s.rf a 0 2) + 4 * s.rf a 2 2

/-- R379, R386: what a pin drives, as PIN_HOLD codes it: the design's drive while it runs, the hold otherwise. -/
def State.pinDrive (s : State) (n : Nat) : Nat :=
  match s.rhz.design with
  | some d =>
    if s.lstate = lsRunning then
      match d.pins.find? fun p => p.pin == n with
      | some p =>
        let on := p.oe == 1 || (p.oe == 2 && s.wireVal d p.oeWire)
        let lv := (p.drivers.head?).any fun c => s.ev d rhzDepth (.out c)
        (if on then (if lv then 2 else 1) else 0) + 4 * p.weak
      | none => 0
    else s.pinHold n
  | none => s.pinHold n

end Sys2Proof.Machine
end

