-- ==== Sys2Proof/Machine/FabricLoad.lean ====
section
/-! DEFINITION. Loading, verifying, releasing and stopping the fabric, and the capture of its state (R385 to R392). -/

namespace Sys2Proof.Machine

/-! ## The checks of R387 -/

/-- Macrocells that drive a pin (rule 4), macrocells and blocks that break R369 (rule 5) or R374 (rule 6). -/
def rule3 (d : RhzDesign) : Option Nat :=
  (List.range 16).find? fun l => decide (1 < (d.tris.filter fun t => t.line == l && t.en.isNone).length)

def rule4 (d : RhzDesign) : Option Nat :=
  (d.pins.find? fun p => decide (1 < p.drivers.length) || decide (1 < (d.pins.filter fun o => o.pin == p.pin).length)).map
    (·.pin)

/-- R369: a term of the own group has a special purpose (R370, R371). -/
def usesTerm (c : MacroCfg) : Bool := c.xorT || c.ffk == 2 || c.aset || c.ares

def rule5 (d : RhzDesign) : Option Nat :=
  (d.cells.find? fun c =>
    decide (15 < c.1 % 16 + c.2.steer) || (rhzTaken d c.1 && usesTerm c.2) ||
      decide (1 < ([1, 2, 3].filter fun k => decide (k ≤ c.1 % 16) && decide (k ≤ (tget noCell d.cells (c.1 - k)).steer)).length)).map
    fun c => c.1 / 16

def rule6 (d : RhzDesign) : Option Nat :=
  (d.cells.find? fun c => c.2.chain != 0 && (decide (6 < c.2.chain) || (c.1 + 1) % 2 ^ c.2.chain != 0)).map fun c => c.1 / 16

/-! Rule 7: combinational loops (R375). -/

/-- What a point of the network depends on without a flip-flop, a latch or a registered hop between. -/
def rhzNeeds (d : RhzDesign) : RhzNode → List RhzNode
  | .wire w =>
    let x := tget ⟨9, 0⟩ d.wires w
    if x.kind = 0 then [.out x.index]
    else if x.kind = 2 then
      (d.tris.filter fun t => t.line == x.index).flatMap fun t => .out t.cell :: (t.en.elim [] fun w => [.wire w])
    else if x.kind = 7 then
      match d.hops.find? fun h => h.1 == x.index with
      | some h => if h.2.reg then [] else [.wire h.2.src]
      | none => []
    else []
  | .out m => if (tget noCell d.cells m).outReg then [] else [.xorOut m]
  | .xorOut m =>
    let j := (tget noCell d.cells m).chain
    if j = 0 then [.raw m]
    else ((tget [] d.selects (m / 64)).take j).map .wire ++ (List.range (2 ^ j)).map fun i => .raw (m + 1 - 2 ^ j + i)
  | .raw m =>
    let c := tget noCell d.cells m
    let lits (k : Nat) (t : List Literal) : List RhzNode :=
      t.map fun l => .wire ((tget ⟨[], 0, 0⟩ d.blocks (k / 16)).inputs.getD l.input 0)
    (m :: (List.range c.steer).map fun k => m + 1 + k).flatMap (fun g => (sumTerms (tget noCell d.cells g)).flatMap (lits g)) ++
      (if c.xorT then (c.terms.take 1).flatMap (lits m) else [])

/-- The points that a point depends on, at most n steps away. -/
def rhzReach (d : RhzDesign) : Nat → List RhzNode → List RhzNode → List RhzNode
  | 0, seen, _ => seen
  | n + 1, seen, front =>
    let next := (front.flatMap (rhzNeeds d)).eraseDups.filter fun x => !seen.contains x
    if next.isEmpty then seen else rhzReach d n (seen ++ next) next

/-- A macrocell or a hop on a combinational loop: every loop passes through a macrocell's sum or through hops only. -/
def rule7 (d : RhzDesign) : Option Nat :=
  let depth := 4 * d.cells.length + 2 * d.wires.length + d.hops.length + 16
  let onLoop (x : RhzNode) : Bool := (rhzReach d depth [] [x]).contains x
  ((d.cells.find? fun c => onLoop (.raw c.1)).map fun c => c.1 / 16).orElse fun _ =>
    (d.wires.find? fun w => onLoop (.wire w.1)).map (·.1)

def badPort (p : RamPort) : Bool := !([1, 2, 4, 9, 18, 36].contains p.width) || decide (2 < p.wmode) || decide (5 < p.clk.sel)

/-- Rule 8: reserved options, by pin, RAM or block; a bank voltage, by the bank's first pin. -/
def rule8 (d : RhzDesign) (sensed : Nat) : Option Nat :=
  ((d.pins.find? fun p => decide (2 < p.drive) || decide (3 < p.weak) || decide (2 < p.oe)).map (·.pin)).orElse fun _ =>
  ((d.rams.find? fun r => badPort r.2.a || badPort r.2.b).map (·.1)).orElse fun _ =>
  ((d.cells.find? fun c => decide (3 < c.2.ffk) || decide (5 < c.2.clk.sel)).map fun c => c.1 / 16).orElse fun _ =>
  ((List.range 4).find? fun b => d.bankV / 2 ^ b % 2 != sensed / 2 ^ b % 2).map fun b => 24 * b

/-- Rule 9: an index of a gateway register or queue, decoder, capture unit or trigger line out of range. -/
def rule9 (d : RhzDesign) : Option Nat :=
  let wire (w : Wire) : Bool := (w.kind == 4 && decide (16 * 32 ≤ w.index)) || (w.kind == 5 && decide (8 * 32 ≤ w.index)) ||
    (w.kind == 6 && decide (8 ≤ w.index)) || (w.kind == 8 && !(decide (64 ≤ w.index) && decide (w.index < 128)))
  ((d.wires.find? fun w => wire w.2).map fun w => w.2.index).orElse fun _ =>
  ((d.trig.find? fun t => decide (16 ≤ t.1)).map (·.1)).orElse fun _ =>
  ((d.tscSrc.find? fun t => decide (8 ≤ t.1)).map (·.1)).orElse fun _ =>
  ((d.gregOut.find? fun g => decide (g.1 < 16) || decide (32 ≤ g.1)).map (·.1)).orElse fun _ =>
  ((d.qcfg.find? fun q => decide (2 ≤ q.1)).map (·.1)).orElse fun _ => (d.gclk.find? fun g => decide (4 ≤ g.1)).map (·.1)

/-- R387: the first check that fails: its rule, where, and the refusal code of R416. -/
def State.rhzCheck (s : State) (o : SignedObj) (d : RhzDesign) : Option (Nat × Nat × Nat) :=
  let first (rule code : Nat) (w : Option Nat) (next : Option (Nat × Nat × Nat)) : Option (Nat × Nat × Nat) :=
    match w with
    | some x => some (rule, x, code)
    | none => next
  let sig := !s.keyOk 2 o.keyHash || !o.rsaOk || !o.slhOk || !o.digestOk
  let ver := o.part != 0x9648 || o.steps / 2 % 2 == 0 || o.itype != 2 || decide (o.sv < s.minSv 2)
  first 1 2 (if sig then some 0 else none) <| first 2 3 (if ver then some 0 else none) <|
  first 3 12 (rule3 d) <| first 4 12 (rule4 d) <| first 5 12 (rule5 d) <| first 6 12 (rule6 d) <| first 7 12 (rule7 d) <|
  first 8 12 (rule8 d s.rhz.bank33) <| first 9 12 (rule9 d) <| first 10 12 d.badFrame none

/-! ## Loading -/

/-- R418, R390: progress of a Rhizoid load, here and in slot 6. -/
def State.rhzProgress (s : State) (done total : Nat) : State :=
  let pm := if total = 0 then 1000 else done * 1000 / total
  (((s.wr 0x00600004 (BitVec.ofNat 32 done)).wr 0x00600008 (BitVec.ofNat 32 total)).wf 0x00600000 3 10 pm).progress 6 done total

/-- R391: a snapshot that is ARMED or HELD is discarded; a CAPTURE that waits for it ends. -/
def State.dropSnapshot (s : State) : State :=
  let s := s.wf 0x00600910 0 2 0
  let s := { s with rhz := { s.rhz with snap := none } }
  match s.gov.capture with
  | some c => ({ s with gov := { s.gov with capture := none } }).complete c stAborted
  | none => s

/-- R382, R427: the design's outputs are at rest: trigger lines at 0 and vote wires low. -/
def State.rhzQuiet (s : State) : State :=
  let s := s.rhz.voteLv.foldl (fun s d => s.unvote d 3) (s.wr 0x00600580 0)
  { s with rhz := { s.rhz with voteLv := [], trigEdges := [], tscEdges := [], tscLv := [], overlaps := [], counted := [] } }

/-- R385, R389: the fabric enters LOADING: the design is gone, a snapshot is discarded, bank supplies are sensed (R379). -/
def State.enterLoading (s : State) : State :=
  match s.rhz.load with
  | none => s
  | some l =>
    let s := s.rhzQuiet.dropSnapshot
    let x := { s.rhz with design := none, q := [], hop := [], ram := [], ramOut := [], tri := [], lv := [], acc := [],
                          halting := false, relReq := false, digest := 0, frameAt := s.time }
    let s := { s with rhz := x }
    let s := ((s.setLstate lsLoading).clrFlag 0x00600000 17).wr 0x00600018 (BitVec.ofNat 32 s.rhz.bank33)
    s.rhzProgress 0 (2 * l.img.frames)

/-- R389: a load reaches the fabric: it starts, stops a RUNNING design first, or is latched. -/
def State.rhzLoad (s : State) (l : RhzLoad) : State :=
  if s.rhz.load.isSome then
    let s := match s.rhz.latched.bind (·.cmd) with
      | some c => s.complete c stAborted
      | none => s
    ({ s with rhz := { s.rhz with latched := some l } }).setFlag 0x00600000 16
  else
    let run := s.lstate = lsRunning
    let s := { s with rhz := { s.rhz with load := some l, halting := decide run } }
    if run then s else s.enterLoading

/-- R446, check 1, of a LOAD of kind 1. -/
def rhzMalformed (c : Cmd) (obj : SignedObj) : Bool :=
  obj.magic != 0x31484A54 || obj.hver != 1 || !obj.zeroOk || obj.objLen != objBytes obj.bodyLen || c.arg 0x18 0 32 != obj.objLen

/-- R411, R389: LOAD of kind 1. A malformed object is refused at once (R446, check 1). -/
def State.loadRhz (s : State) (c : Cmd) (obj : SignedObj) (img : RhzDesign) : State :=
  let len := c.arg 0x18 0 32
  if c.arg 0x1C 0 2 ≠ 1 ∨ c.arg 0x10 0 6 ≠ 0 then s.complete c stBadarg
  else
    let s := s.progress 0 0 (2 * ((len + 63) / 64))
    if rhzMalformed c obj then s.complete c stRefused 1
    else s.rhzLoad { cmd := some c, obj := obj, img := img }

/-- R389: the design stops, at a release-clock edge or 1 µs after the request. -/
def State.fabricStop (s : State) : State :=
  if s.rhz.halting ∧ s.lstate = lsRunning then s.enterLoading else s

/-- The image's fields of the gateway's registers (R393, R395). -/
def State.imageFields (s : State) (d : RhzDesign) : State :=
  let s := s.wr 0x0060000C (d.loadctl &&& 0x7E)
  let s := d.gclk.foldl (fun s g => s.wr (0x00600040 + 4 * g.1) ((s.rd (0x00600040 + 4 * g.1) &&& 0x80000000) ||| (g.2 &&& 0xFFF))) s
  d.qcfg.foldl (fun s q => s.wr (0x00600508 + 0x10 * q.1) (q.2 &&& 0xFFFF0001)) s

/-- R375, R376, R378, R381: the initial values of an image. -/
def State.initialValues (s : State) (d : RhzDesign) : State :=
  let x := { s.rhz with
    design := some d
    q := d.cells.foldl (fun t c => tput false t c.1 c.2.initQ) []
    hop := d.hops.foldl (fun t h => tput false t h.1 (h.2.reg && h.2.init)) []
    ram := d.rams.foldl (fun t r => r.2.init.foldl (fun t w => tput 0 t (r.1 * 1024 + w.1) w.2) t) []
    ramOut := [], tri := [], popped := [] }
  { s with rhz := x }

/-- R388: a release is requested. -/
def State.requestRelease (s : State) : State :=
  if s.lstate = lsArmed then ({ s with rhz := { s.rhz with relReq := true } }).setFlag 0x00600000 17 else s

/-- R389: the latched load starts when the current one has ended. -/
def State.nextLoad (s : State) : State :=
  let l := s.rhz.latched
  let s := ({ s with rhz := { s.rhz with load := none, latched := none } }).clrFlag 0x00600000 16
  match l with
  | some l => s.rhzLoad l
  | none => s

/-- R385, R390: frames are written and then read back, one for each 500 ns as the manual's example has it (DESIGN CHOICE, log 23); all
written, the fabric is VERIFYING. -/
def State.loadTick (s : State) : State :=
  match s.rhz.load with
  | none => s
  | some l =>
    let done := s.rf 0x00600004 0 32 + 1
    if (s.lstate = lsLoading ∨ s.lstate = lsVerifying) ∧ s.rhz.frameAt + 500 ≤ s.time ∧ done ≤ 2 * l.img.frames then
      let s := ({ s with rhz := { s.rhz with frameAt := s.time } }).rhzProgress done (2 * l.img.frames)
      if l.img.frames ≤ done then s.setLstate lsVerifying else s
    else s

/-- R452: a successful load of an object with `ratchet` raises a minimum; done by the caller's `raise`. -/
def State.fabricVerify (s : State) (raise : State → SignedObj → State) : State :=
  match s.rhz.load with
  | none => s
  | some l =>
    if s.lstate ≠ lsLoading ∧ s.lstate ≠ lsVerifying then s
    else
      let total := 2 * l.img.frames
      let answer (s : State) (f : State → Cmd → State) : State :=
        match l.cmd with
        | some c => f s c
        | none => s
      match s.rhzCheck l.obj l.img with
      | some (rule, place, code) =>
        let s := s.wr 0x00600010 (BitVec.ofNat 32 (rule + place % 65536 * 256))
        let s := s.setLstate lsUnloaded
        (answer s fun s c => s.complete c stRefused code place).nextLoad
      | none =>
        let s := ((s.imageFields l.img).initialValues l.img).rhzProgress total total
        let s := { s with rhz := { s.rhz with digest := l.obj.digest } }
        let s := ((s.wr 0x00600014 (l.obj.digest.setWidth 32)).wr 0x00600010 0).setLstate lsArmed
        let s := if l.obj.ratchet then raise s l.obj else s
        let s := if s.flag 0x0060000C 4 then s.requestRelease else s
        (answer s fun s c =>
          let n := 2 * ((c.arg 0x18 0 32 + 63) / 64)
          (s.progress 0 n n).complete c stOk 0 0 (leBytes 0 8 ++ leBytes l.obj.digest.toNat 16)).nextLoad

/-- R388: the release edge. -/
def State.fabricRelease (s : State) : State :=
  match s.rhz.design with
  | some d =>
    if s.lstate = lsArmed ∧ s.rhz.relReq then
      let n := s.rf 0x0060000C 1 2
      if !s.edgeNow n (!s.flag 0x0060000C 3) then s
      else
        let s := (s.setLstate lsRunning).clrFlag 0x00600000 17
        let x := { s.rhz with relReq := false, gclk := tput false s.rhz.gclk n (!s.flag 0x0060000C 3) }
        (({ s with rhz := x }).noteLevels d).fabSettle
    else s
  | none => s

/-- R390: the fabric loses its configuration; decoders and FIFOs are lost. -/
def State.fabricLost (s : State) : State :=
  let s := s.rhzQuiet.dropSnapshot
  let s := match s.rhz.load.bind (·.cmd) with
    | some c => s.complete c stAborted
    | none => s
  let s := match s.rhz.latched.bind (·.cmd) with
    | some c => s.complete c stAborted
    | none => s
  let s := s.wr 0x00600000 0
  let s := { s with rhz := { bank33 := s.rhz.bank33, pads := s.rhz.pads } }
  let s := (List.range 8).foldl (fun s n => (s.wr (0x00600704 + 0x10 * n) 0).wr (0x0060070C + 0x10 * n) 0) s
  let s := (List.range 8).foldl (fun s n => s.wr (0x00600604 + 0x20 * n) 0) s
  (List.range 4).foldl (fun s n => s.wr (0x00600504 + 0x10 * n) 0) s

/-! ## Capture -/

/-- R391: the states of snapshot and fabric in which a CAPTURE is refused. -/
def State.captureBad (s : State) : Bool := s.rf 0x00600910 0 2 != 0 || (s.lstate != lsArmed && s.lstate != lsRunning)

/-- R391, R411: CAPTURE. -/
def State.captureCmd (s : State) (c : Cmd) : State :=
  if s.captureBad then s.complete c stState
  else
    let s := (s.wf 0x00600900 0 5 (c.arg 0x10 0 5)).wrWide 0x00600908 (entryW64 c.entry 0x18).toNat 2
    let s := s.wf 0x00600910 0 2 1
    { s with gov := { s.gov with capture := some c } }

/-- R391: the condition of the snapshot's mode. -/
def State.capDue (s : State) (d : RhzDesign) : Bool :=
  match s.rf 0x00600900 3 2 with
  | 1 => s.wireVal d d.capWire
  | 2 => decide (s.rdWide 0x00600908 2 ≤ s.time)
  | _ => true

def State.takeSnap (s : State) : RhzSnap :=
  { q := s.rhz.q, hop := s.rhz.hop, ram := s.rhz.ram
    tri := (List.range 16).foldl (fun n l => n + (if tget false s.rhz.tri l then 2 ^ l else 0)) 0
    pins := (List.range 3).map fun w => s.rd (0x00600280 + 4 * w)
    gregs := (List.range 16).map fun g => s.rd (0x00600440 + 4 * g) }

/-- R391: the selected edge. -/
def State.snapshot (s : State) : State :=
  match s.rhz.design with
  | some d =>
    let n := s.rf 0x00600900 0 2
    if s.rf 0x00600910 0 2 = 1 ∧ s.capDue d ∧ s.edgeNow n (!s.flag 0x00600900 2) then
      let s := { s with rhz := { s.rhz with snap := some s.takeSnap } }
      let s := (s.wf 0x00600910 0 2 2).wrWide 0x00600918 s.time 2
      match s.gov.capture with
      | some c => ({ s with gov := { s.gov with capture := none } }).complete c stOk 0 0 (leBytes s.time 8)
      | none => s
    else s
  | none => s

/-- R391: `cap_free`. -/
def State.capFree (s : State) : State :=
  if s.rf 0x00600910 0 2 = 2 then
    let s := { s with rhz := { s.rhz with snap := none } }
    s.wf 0x00600910 0 2 0
  else s

/-- Bits 32w to 32w + 31 of a table of bits. -/
def bitsWord (t : Tbl Bool) (w : Nat) : Word :=
  BitVec.ofNat 32 ((List.range 32).foldl (fun n i => n + (if tget false t (32 * w + i) then 2 ^ i else 0)) 0)

/-- R392: the word of the snapshot window at an address; 0 while no snapshot is HELD. -/
def State.snapWord (s : State) (a : Nat) : Word :=
  match s.rhz.snap with
  | none => 0
  | some x =>
    if a < 0x00680100 then bitsWord x.q ((a - 0x00680000) / 4)
    else if a < 0x00680300 then bitsWord x.hop ((a - 0x00680100) / 4)
    else if a = 0x00680300 then BitVec.ofNat 32 x.tri
    else if 0x00680304 ≤ a ∧ a < 0x00680310 then x.pins.getD ((a - 0x00680304) / 4) 0
    else if 0x00680340 ≤ a ∧ a < 0x00680380 then x.gregs.getD ((a - 0x00680340) / 4) 0
    else if 0x00690000 ≤ a ∧ a < 0x006D0000 then
      let o := a - 0x00690000
      let v := tget 0 x.ram (o / 0x2000 * 1024 + o % 0x2000 / 8)
      if a % 8 = 0 then v.setWidth 32 else (v >>> 32).setWidth 32
    else 0

end Sys2Proof.Machine
end

