-- ==== Sys2Proof/Machine/Gateway.lean ====
section
/-! DEFINITION. The Rhizoid gateway: registers, queues, quadrature decoders, capture units, pin holds (R380 to R386). -/

namespace Sys2Proof.Machine

def rgwStop : Nat := unitStop .rgw 0

/-- R479: the core sees the inputs on the boundary-scan chain held. -/
def State.pinsHeld (s : State) : Bool := s.dbg.ir == 0 || s.dbg.ir == 4 || s.dbg.ir == 5

/-! ## Registers and queues -/

/-- R380: a host write of a gateway register; it reaches the fabric 2 to 4 edges of `gw_clk` later, which of them the spec
leaves open (log 10). -/
def State.gregWrite (s : State) (n : Nat) (v : Word) : State :=
  let s := (s.wr (0x00600400 + 4 * n) v).bump
  { s with rhz := { s.rhz with gin := s.rhz.gin ++ [(n, v, 2 + Config.unstated 380 s.free % 3)] } }

def qStat (n : Nat) : Nat := 0x00600504 + 0x10 * n

def State.fq (s : State) (n : Nat) : List Word := tget [] s.rhz.queues n

def State.setFq (s : State) (n : Nat) (q : List Word) : State :=
  let s := { s with rhz := { s.rhz with queues := tput [] s.rhz.queues n q } }
  s.wf (qStat n) 0 9 q.length

/-- R381: a push into a queue; a full one drops the word and counts it. -/
def State.queuePush (s : State) (n : Nat) (w : Word) : State :=
  if 256 ≤ (s.fq n).length then (s.setFlag (qStat n) 16).count (qStat n) 18 14
  else s.setFq n (s.fq n ++ [w])

/-- R381: the fabric pushes into queue 0 or 1; a stored word signals the queue's sync object and vector
129 (R421). -/
def State.fabricPush (s : State) (n : Nat) (w : Word) : State :=
  if n < 2 ∧ s.lstate = lsRunning then
    let room := (s.fq n).length < 256
    let s := s.queuePush n w
    let cfg := 0x00600508 + 0x10 * n
    if room then (s.credit (s.flag cfg 0) (s.rf cfg 16 16) rgwStop).signal 129 else s
  else s

/-- R381: the fabric pops queue 2 or 3: the word popped stands at the fabric's side. -/
def State.fabricPop (s : State) (n : Nat) : State :=
  if (n = 2 ∨ n = 3) ∧ s.lstate = lsRunning then
    match s.fq n with
    | [] => s.setFlag (qStat n) 17
    | w :: r =>
      let s := s.setFq n r
      let s := { s with rhz := { s.rhz with popped := tput 0 s.rhz.popped n w } }
      s.fabSettle
  else s

/-- R381: the host pops queue 0 or 1. -/
def State.hostPop (s : State) (n : Nat) : State :=
  match s.fq n with
  | [] => { s.setFlag (qStat n) 17 with out := leBytes 0 4 }
  | w :: r => { s.setFq n r with out := leBytes w.toNat 4 }

/-! ## Decoders and capture units -/

/-- The place of decoder inputs A and B in the order in which they change when A leads (R383): 00, 10, 11, 01. -/
def quadPlace (a b : Bool) : Nat := if a then (if b then 2 else 1) else (if b then 3 else 0)

/-- R383: inputs A and B of decoder n change behind their filters. A leading B counts up, `inv` reverses it (log 12). -/
def State.quadStep (s : State) (n : Nat) (a b : Bool) : State :=
  let r := 0x00600700 + 0x10 * n
  let old := tget 0 s.rhz.qd n
  let s := { s with rhz := { s.rhz with qd := tput 0 s.rhz.qd n (boolNat a + 2 * boolNat b + 4 * (old / 4)) } }
  if !s.flag r 0 then s
  else
    let p0 := quadPlace (old % 2 == 1) (old / 2 % 2 == 1)
    let p1 := quadPlace a b
    if (p0 + 2) % 4 = p1 then s.count (r + 0xC) 0 31
    else
      let up := ((p0 + 1) % 4 == p1) != s.flag r 23
      let s := s.wr (r + 4) (if up then s.rd (r + 4) + 1 else s.rd (r + 4) - 1)
      (s.wf (r + 0xC) 31 1 (boolNat !up)).fabSettle

/-- What the filtered inputs A and B of decoder n are to become; none while neither changes. -/
def State.quadNext (s : State) (n : Nat) : Option (Bool × Bool) :=
  if s.inputDue (3 * n) || s.inputDue (3 * n + 1) then
    some (s.inputLevel (3 * n) != s.inputDue (3 * n), s.inputLevel (3 * n + 1) != s.inputDue (3 * n + 1))
  else none

/-- R383: the transition of decoder n's inputs that its pins have brought. -/
def State.quad (s : State) (n : Nat) (a b : Bool) : State :=
  if n < 8 ∧ s.answers dRhz ∧ s.quadNext n = some (a, b) then
    let due := [3 * n, 3 * n + 1].filter s.inputDue
    ({ s with rhz := { s.rhz with wait := due.foldl (fun t k => tput none t k none) s.rhz.wait } }).quadStep n a b
  else s

/-- R383: input Z of decoder n changes behind its filter; a rising edge loads the position. -/
def State.zStep (s : State) (n : Nat) : State :=
  let r := 0x00600700 + 0x10 * n
  let old := tget 0 s.rhz.qd n
  let up := old / 4 % 2 == 0
  let s := { s with rhz := { s.rhz with qd := tput 0 s.rhz.qd n (old % 4 + 4 * boolNat up)
                                        wait := tput none s.rhz.wait (3 * n + 2) none } }
  if up && s.flag r 0 && s.flag r 22 then (s.wr (r + 4) (s.rd (r + 8))).fabSettle else s

/-- R383: a rising edge of Z, which its pin has brought. -/
def State.zEdge (s : State) (n : Nat) : State :=
  if n < 8 ∧ s.answers dRhz ∧ s.inputDue (3 * n + 2) ∧ !s.inputLevel (3 * n + 2) then s.zStep n else s

/-- R384: the edges that a capture unit stores: 0 rising, 1 falling, 2 and 3 both. -/
def edgeMatch (sel : Nat) (rising : Bool) : Bool := decide (2 ≤ sel) || (sel == 0) == rising

/-- R384: capture unit n stores an edge that reached it at time t. The stamp is 0 to 8 ns after the edge, and a routed source adds
its routing delay: free values (log 10). -/
def State.tscStore (s : State) (n : Nat) (rising : Bool) (t : Nat) : State :=
  let r := 0x00600600 + 0x20 * n
  if !s.flag r 0 ∨ !edgeMatch (s.rf r 9 2) rising then s
  else
    let q := tget [] s.rhz.tsc n
    if 16 ≤ q.length then s.count (r + 4) 16 16
    else
      let s := s.bump
      let late := Config.unstated 384 s.free % 9 + (if s.flag r 1 then Config.unstated 3840 s.free else 0)
      let e : TscEv := { rise := rising, time := t + late, pos := s.rd (0x00600704 + 0x10 * s.rf r 11 3) }
      let s := { s with rhz := { s.rhz with tsc := tput [] s.rhz.tsc n (q ++ [e]) } }
      s.wf (r + 4) 0 5 (q.length + 1)

/-- R384: an edge at capture unit n: of its pin, behind its filter, or of its routing wire. -/
def State.capture (s : State) (n : Nat) (rising : Bool) : State :=
  if 8 ≤ n ∨ !s.answers dRhz then s
  else if s.flag (0x00600600 + 0x20 * n) 1 then
    match s.rhz.tscEdges.find? fun e => e.unit == n && e.rise == rising with
    | some e =>
      if s.lstate = lsRunning then
        ({ s with rhz := { s.rhz with tscEdges := s.rhz.tscEdges.erase e } }).tscStore n rising e.time
      else s
    | none => s
  else
    match tget none s.rhz.wait (24 + n) with
    | some t =>
      if s.inputDue (24 + n) ∧ s.inputLevel (24 + n) ≠ rising then
        ({ s with rhz := { s.rhz with tscPin := tput false s.rhz.tscPin n rising
                                      wait := tput none s.rhz.wait (24 + n) none } }).tscStore n rising t
      else s
    | none => s

/-- R383, R384: with the time, inputs whose pins have stood long enough change. -/
def State.inputTick (s : State) : State :=
  if (s.rhz.wait.isEmpty && s.rhz.tscEdges.isEmpty) || !s.answers dRhz then s
  else
    let s := (List.range 8).foldl (fun s n => (s.quadNext n).elim s fun x => s.quad n x.1 x.2) s
    let s := (List.range 8).foldl (fun s n => if s.inputDue (3 * n + 2) then s.zStep n else s) s
    let s := (List.range 8).foldl (fun s n =>
      if s.flag (0x00600600 + 0x20 * n) 1 then s else s.capture n (!s.inputLevel (24 + n))) s
    s.rhz.tscEdges.foldl (fun s e => s.capture e.unit e.rise) s

/-- R396: a read of RHZ_TSCn_EV moves the head event into the read buffer. -/
def State.tscRead (s : State) (n : Nat) : State :=
  let r := 0x00600600 + 0x20 * n
  match tget [] s.rhz.tsc n with
  | [] => s.wr (r + 8) 0
  | e :: q =>
    let s := { s with rhz := { s.rhz with tsc := tput [] s.rhz.tsc n q } }
    let s := (s.wf (r + 4) 0 5 q.length).wr (r + 8) (BitVec.ofNat 32 (1 + 2 * boolNat e.rise))
    (s.wrWide (r + 0xC) e.time 2).wr (r + 0x14) e.pos

/-- R373: a fabric PLL gains or loses lock. -/
def State.pllLock (s : State) (n : Nat) (v : Bool) : State :=
  if n < 4 ∧ s.answers dRhz then s.wf (0x00600040 + 4 * n) 31 1 (boolNat v) else s

end Sys2Proof.Machine
end

