-- ==== Sys2Proof/Machine/Capsule.lean ====
section
/-! DEFINITION. The Capsule: its log, parameters, seal, service port and measuring (R337 to R364). -/

namespace Sys2Proof.Machine

def erasedSlot : BitVec 256 := BitVec.allOnes 256
/-- R340: slots of the audit log. -/
def logSlots : Nat := 229376

/-- R360: CRC-16/CCITT-FALSE. -/
def crcBits : Nat → Nat → Nat
  | 0, c => c
  | k + 1, c => crcBits k (if 32768 ≤ c then ((2 * c) ^^^ 0x1021) % 65536 else 2 * c)

def crc16 (bs : List Byte) : Nat := bs.foldl (fun c b => crcBits 8 (c ^^^ (b.toNat * 256))) 0xFFFF

def State.modCap (s : State) (f : CapSt → CapSt) : State := { s with cap := f s.cap }

/-- CGW_STATE (R367): 0 OFF, 1 BOOT, 2 IDLE, 3 MEASURE, 4 FAULT. -/
def cgwState : Nat := 0x00700014
def State.cstate (s : State) : Nat := s.rf cgwState 0 3
def State.capUp (s : State) : Bool := s.cstate == 2 || s.cstate == 3
def State.pinSealed (s : State) : Bool := s.flag cgwState 3

/-- Measuring while a belt measures or a window is open (log 14). -/
def State.capMode (s : State) : State :=
  if s.capUp then
    s.wf cgwState 0 3 (if s.rf cgwState 4 8 ≠ 0 ∨ s.cap.wins.any (fun w => w.2.isSome) then 3 else 2)
  else s

/-- R347: the Capsule tick. -/
def State.capTick (s : State) : Nat := s.cap.ns / 40

/-! ## The audit log -/

def slotByte (v : BitVec 256) (i : Nat) : Nat := (v.extractLsb' (8 * i) 8).toNat
def slotNat (v : BitVec 256) (i n : Nat) : Nat := (v.toNat / 2 ^ (8 * i)) % 2 ^ (8 * n)
def slotBytes (v : BitVec 256) (n : Nat) : List Byte := (List.range n).map fun i => v.extractLsb' (8 * i) 8

/-- R360: entry types. -/
def etSealOpen : Nat := 1
def etSealClose : Nat := 2
def etParam : Nat := 3
def etImage : Nat := 4
def etBoot : Nat := 5
def etVerifyFail : Nat := 6

/-- R359: the counter after an entry. -/
def ctrAfter (ctr etype : Nat) : Nat :=
  if etype = etSealOpen ∨ etype = etParam ∨ etype = etImage then min 0xFFFFFF (ctr + 1) else ctr

/-- R360: an entry without its commit byte. -/
def entryBits (etype index pid lseq ctr pin boot gen time : Nat) (old new : Word) : BitVec 256 :=
  let head := [BitVec.ofNat 8 etype, BitVec.ofNat 8 index] ++ leBytes pid 2 ++ leBytes lseq 4 ++ leBytes ctr 3 ++
    [BitVec.ofNat 8 pin] ++ leBytes boot 2 ++ leBytes gen 2 ++ leBytes time 4 ++ leBytes old.toNat 4 ++ leBytes new.toNat 4
  BitVec.ofNat 256 (leNat (head ++ leBytes (crc16 head) 2 ++ [0xFF, 0xFF]))

def commitBits (v : BitVec 256) : BitVec 256 := (v &&& ~~~(0xFF#256 <<< 248)) ||| (0xA5#256 <<< 248)

def slotCommitted (v : BitVec 256) : Bool := slotByte v 31 == 0xA5
def slotCrcOk (v : BitVec 256) : Bool := crc16 (slotBytes v 28) == slotNat v 28 2

/-- R359, R362: the flags that follow the counter and the free slots. -/
def State.capFlags (s : State) : State :=
  (s.wf cgwState 24 1 (boolNat (s.cap.ctr == 0xFFFFFF))).wf cgwState 26 1 (boolNat (decide (logSlots < s.cap.next + 64)))

/-- R361: bytes 0 to 30 of an entry go into the next erased slot. -/
def State.beginEntry (s : State) (etype index pid gen : Nat) (old new : Word) : State :=
  let c := s.cap
  let v := entryBits etype index pid c.lseq (ctrAfter c.ctr etype) (boolNat !s.pinSealed) c.boots gen
    (min 0xFFFFFFFF (c.ns / 1000000)) old new
  (s.modCap fun c => { c with log := tput erasedSlot c.log c.next v, next := c.next + 1 }).capFlags

/-- R361: the commit byte is written: the entry counts. -/
def State.commitEntry (s : State) (etype index : Nat) : State :=
  let k := s.cap.next - 1
  let v := commitBits (tget erasedSlot s.cap.log k)
  (s.modCap fun c => { c with
    log := tput erasedSlot c.log k v, lseq := c.lseq + 1, committed := c.committed + 1, ctr := slotNat v 8 3
    logOpen := if etype = etSealOpen then true else if etype = etSealClose then false else c.logOpen
    bootBank := if etype = etImage then index else c.bootBank }).capFlags

/-! ## The service port -/

/-- R356: a reply. -/
def State.svcReply (s : State) (cmd status : Nat) (payload : List Byte := []) : State :=
  let body := [BitVec.ofNat 8 (cmd + 0x80)] ++ leBytes (payload.length + 1) 2 ++ [BitVec.ofNat 8 status] ++ payload
  s.modCap fun c => { c with reply := 0x7E :: body ++ leBytes (crc16 body) 2 }

def svOk : Nat := 0
def svSealed : Nat := 1
def svBadparam : Nat := 2
def svBadimage : Nat := 3
def svLogfull : Nat := 4
def svCtrfull : Nat := 5
def svBusy : Nat := 6
def svBadcmd : Nat := 7

/-- R357: the parameter exists and the value is in its range. The port addresses of both ports take index steps 0 to 31
(log 14). -/
def paramOk (id idx v : Nat) : Bool :=
  if id = 1 then idx == 0 && decide (v < 256)
  else if id = 2 then decide (idx < 8) && (v == 2 || v == 5 || v == 10)
  else if id = 3 then decide (idx < 8) && decide (50 ≤ v) && decide (v ≤ 4000)
  else if id = 4 ∨ id = 5 then decide (idx < 8) && decide (50 ≤ v) && decide (v ≤ 2000)
  else if id = 6 then decide (idx < 8) && decide (20 ≤ v) && decide (v ≤ 500)
  else if id = 7 then decide (idx < 16) && decide (65536 ≤ v) && decide (v ≤ 655360000)
  else if id = 8 then decide (idx < 8) && decide (1 ≤ v) && decide (v ≤ 50)
  else if id = 9 then decide (idx < 32)
  else decide (0x10 ≤ id) && decide (id ≤ 0x1F) && decide (idx < 16)

/-- The parameter exists. -/
def paramIs (id idx : Nat) : Bool :=
  if id = 1 then idx == 0 else if id = 7 then decide (idx < 16) else if id = 9 then decide (idx < 32)
  else if id < 9 then decide (2 ≤ id) && decide (idx < 8) else decide (0x10 ≤ id) && decide (id ≤ 0x1F) && decide (idx < 16)

def paramKey (id idx : Nat) : Nat := id * 256 + idx
def paramIn (t : Tbl Word) (id idx : Nat) : Nat := (tget 0 t (paramKey id idx)).toNat

/-! ## NOR operations -/

/-- The copy that does not hold the generation in force (R358). -/
def State.spareCopy (s : State) : Nat :=
  match tget none s.cap.copies 0 with
  | some c => if c.committed ∧ some c.gen = s.cap.gen then 1 else 0
  | none => 0

/-- What the first operation of a job does as it starts; an entry that finds no slot is not written (R362). -/
def State.norStart (s : State) : Nat → State
  | 0 => s
  | n + 1 =>
    let s := s.modCap fun c => { c with stage := 0 }
    match s.cap.jobs with
    | [] => s
    | .entry et index pid old new answer :: rest =>
      if logSlots ≤ s.cap.next then
        let s := s.modCap fun c => { c with jobs := rest }
        (match answer with
         | some (cmd, st) => s.svcReply cmd st
         | none => s).norStart n
      else s.beginEntry et index pid 0 old new
    | .param _ _ _ :: _ => let k := s.spareCopy; s.modCap fun c => { c with copies := tput none c.copies k none }
    | .erase :: _ =>
      match s.cap.upload with
      | some (_, b) => s.modCap fun c => { c with
          nor := c.nor.filter fun e => e.1 / 0x400000 != b, images := tput none c.images b none }
      | none => s
    | _ => s

/-- A NOR job is queued, and starts when none runs. -/
def State.norPush (s : State) (j : NorJob) : State :=
  let idle := s.cap.jobs.isEmpty
  let s := s.modCap fun c => { c with jobs := c.jobs ++ [j] }
  if idle then s.norStart s.cap.jobs.length else s

def State.norNext (s : State) : State :=
  let s := s.modCap fun c => { c with jobs := c.jobs.drop 1 }
  s.norStart (s.cap.jobs.length + 1)

def State.norStage (s : State) (k : Nat) : State := s.modCap fun c => { c with stage := k }

/-- The set with a parameter changed. -/
def State.newSet (s : State) (id idx : Nat) (v : Word) : Tbl Word := tput 0 s.cap.params (paramKey id idx) v
def State.newGen (s : State) : Nat := (s.cap.gen.elim 0 id + 1) % 2 ^ 16

/-- R361, R358: the NOR operation in progress completes. -/
def State.norComplete (s : State) : State :=
  if !(s.capUp || s.cstate == 4) then s
  else
  match s.cap.jobs with
  | [] => s
  | .entry et index _ _ _ answer :: _ =>
    if s.cap.stage = 0 then s.norStage 1
    else
      let s := s.commitEntry et index
      (match answer with
       | some (cmd, st) => s.svcReply cmd st
       | none => s).norNext
  | .param id idx v :: _ =>
    let k := s.spareCopy
    let put (s : State) (done : Bool) : State := s.modCap fun c => { c with
      copies := tput none c.copies k (some { gen := s.newGen, set := s.newSet id idx v, committed := done, crcOk := true }) }
    match s.cap.stage with
    | 0 => (put s false).norStage 1
    | 1 => s.norStage 2
    | 2 =>
      let s := put s true
      if s.pinSealed then (s.svcReply 0x11 svSealed).norNext
      else (s.beginEntry etParam idx id s.newGen (tget 0 s.cap.params (paramKey id idx)) v).norStage 3
    | 3 => s.norStage 4
    | _ =>
      let s := s.commitEntry etParam idx
      let s := s.modCap fun c => { c with gen := some s.newGen, params := s.newSet id idx v }
      (s.svcReply 0x11 svOk).norNext
  | .erase :: _ => (s.svcReply 0x20 svOk).norNext
  | .program off data :: _ =>
    match s.cap.upload with
    | some (_, b) =>
      let nor := (data.zipIdx.foldl (fun t d => tput 0xFF t (b * 0x400000 + off + d.2) (tget 0xFF t (b * 0x400000 + off + d.2) &&& d.1)) s.cap.nor)
      ((s.modCap fun c => { c with nor := nor }).svcReply 0x21 svOk).norNext
    | none => s.norNext

/-- R355: PARAM_WRITE and the image commands are permitted while pin state and logged state are open. -/
def State.permitted (s : State) : Bool := !s.pinSealed && s.cap.logOpen

/-- A service command that changes something: replies BUSY and SEALED first (R356). -/
def State.service (s : State) (cmd : Nat) (locked : Bool) (f : State → State) : State :=
  if !(s.capUp || s.cstate == 4) then s
  else if !s.cap.jobs.isEmpty then s.svcReply cmd svBusy
  else if locked && !s.permitted then s.svcReply cmd svSealed
  else f s

/-- R357: PARAM_READ. -/
def State.paramRead (s : State) (id idx : Nat) : State :=
  s.service 0x10 false fun s =>
    if paramIs id idx then s.svcReply 0x10 svOk (leBytes (paramIn s.cap.params id idx) 4) else s.svcReply 0x10 svBadparam

/-- R362, R359: what keeps PARAM_WRITE and IMAGE_END from writing. -/
def State.logBlocks (s : State) : Option Nat :=
  if s.flag cgwState 26 then some svLogfull else if s.cap.ctr = 0xFFFFFF then some svCtrfull else none

/-- R358: PARAM_WRITE. -/
def State.paramWrite (s : State) (id idx : Nat) (v : Word) : State :=
  s.service 0x11 true fun s =>
    if !paramOk id idx v.toNat ∨ s.flag cgwState 25 then s.svcReply 0x11 svBadparam
    else if tget 0 s.cap.params (paramKey id idx) = v then s.svcReply 0x11 svOk
    else
      match s.logBlocks with
      | some st => s.svcReply 0x11 st
      | none => s.norPush (.param id idx v)

/-- R356, R364: IMAGE_BEGIN erases the bank that the log does not name. -/
def State.imageBegin (s : State) (size : Nat) : State :=
  s.service 0x20 true fun s =>
    if size = 0 ∨ 0x400000 < size then s.svcReply 0x20 svBadimage
    else
      let b := 1 - s.cap.bootBank
      (s.modCap fun c => { c with upload := some (size, b) }).norPush .erase

/-- R356: IMAGE_DATA. -/
def State.imageData (s : State) (off : Nat) (data : List Byte) : State :=
  s.service 0x21 true fun s =>
    match s.cap.upload with
    | some (size, _) =>
      if 4092 < data.length ∨ size < off + data.length then s.svcReply 0x21 svBadimage else s.norPush (.program off data)
    | none => s.svcReply 0x21 svBadimage

/-- R363: the software identification of a digest. -/
def swidOf (d : BitVec 384) : Word :=
  let b (i : Nat) : Nat := (d.extractLsb' (8 * i) 8).toNat
  BitVec.ofNat 32 ((b 0 * 256 + b 1) * 2 ^ 16 + (b 2 * 256 + b 3))

/-- The first n bytes from address k on of a flash whose contents are t; 0xFF where it is erased. -/
def flashBytes : Tbl Byte → Nat → Nat → List Byte
  | _, _, 0 => []
  | [], k, n + 1 => 0xFF :: flashBytes [] (k + 1) n
  | e :: t, k, n + 1 => if e.1 = k then e.2 :: flashBytes t (k + 1) n else 0xFF :: flashBytes (e :: t) (k + 1) n

/-- R364, R445: the object that a bank of the NOR holds: the header is its first 4 KiB. -/
def State.bankObj (s : State) (b : Nat) (i : CapImage) : SignedObj :=
  let bs := flashBytes (s.cap.nor.dropWhile fun e => decide (e.1 < b * 0x400000)) (b * 0x400000) 0x1000
  { header := (bs.zipIdx.filter fun x => x.1 != 0).map fun x => (x.2, x.1)
    objLen := i.size, keyHash := i.verdict.keyHash, rsaOk := i.verdict.rsaOk, slhOk := i.verdict.slhOk, digestOk := i.verdict.digestOk }

/-- R364: a bank fails verification. -/
def State.bankFails (s : State) (b : Nat) : Bool :=
  (tget none s.cap.images b).all fun i => (capsuleVerify (s.bankObj b i)).isSome

/-- R363: the software identification of a bank's image. -/
def State.bankSwid (s : State) (b : Nat) : Word := (tget none s.cap.images b).elim 0 fun i => swidOf (s.bankObj b i).digest

/-- R364: IMAGE_END verifies what IMAGE_DATA has written. -/
def State.imageEnd (s : State) (v : Verdict) (version : Word) (memNeed : Nat) (factory : Tbl Word) : State :=
  s.service 0x22 true fun s =>
    if s.flag cgwState 25 then s.svcReply 0x22 svBadparam
    else
      match s.logBlocks, s.cap.upload with
      | some st, _ => s.svcReply 0x22 st
      | none, none => s.svcReply 0x22 svBadimage
      | none, some (size, b) =>
        let img : CapImage := { size := size, verdict := v, version := version, memNeed := memNeed, factory := factory }
        let s := s.modCap fun c => { c with upload := none, images := tput none c.images b (some img) }
        if s.bankFails b then s.norPush (.entry etVerifyFail b 0 0 (s.bankSwid b) (some (0x22, svBadimage)))
        else s.norPush (.entry etImage b 0 s.cap.swid (s.bankSwid b) (some (0x22, svOk)))

/-- R356: STATUS: seal (1 open), counter, software identification, pending bank (log 14). -/
def State.svcStatus (s : State) : State :=
  s.service 0x30 false fun s =>
    s.svcReply 0x30 svOk ([BitVec.ofNat 8 (boolNat !s.pinSealed)] ++ leBytes s.cap.ctr 3 ++ leBytes s.cap.swid.toNat 4 ++
      [BitVec.ofNat 8 s.cap.bootBank])

def svcKnown (cmd : Nat) : Bool := [0x10, 0x11, 0x20, 0x21, 0x22, 0x30].contains cmd

/-- R356: a frame with a bad CRC gets no reply; an unknown command replies BADCMD. -/
def State.badFrame (s : State) (crcOk : Bool) (cmd : Nat) : State :=
  if (s.capUp || s.cstate == 4) ∧ crcOk ∧ cmd < 256 ∧ !svcKnown cmd then s.svcReply cmd svBadcmd else s

/-! ## The seal -/

/-- R355: a new pin state. -/
def State.setPinState (s : State) (sealed : Bool) : State :=
  let s := s.wf cgwState 3 1 (boolNat sealed)
  let s := if sealed then s else s.modCap fun c => { c with
    wins := c.wins.map fun w => (w.1, w.2.map fun x => { x with unsealed := true }) }
  s.norPush (.entry (if sealed then etSealClose else etSealOpen) 0xFF 0 0 0 none)

/-- R355: the pin is sampled every 1 ms. -/
def State.sealSample (s : State) (high : Bool) : State :=
  if !(s.capUp || s.cstate == 4) ∨ s.cap.ns < s.cap.sealAt + 1000000 then s
  else
    let run := if high = s.cap.sealLast then min 10 (s.cap.sealRun + 1) else 1
    let s := s.modCap fun c => { c with sealLast := high, sealRun := run, sealAt := c.ns }
    if run = 10 ∧ s.pinSealed = high then s.setPinState (!high) else s

end Sys2Proof.Machine
end

