-- ==== Sys2Proof/Machine/CapsuleTiles.lean ====
section
/-! DEFINITION. What computes in the Capsule while it measures: its array tiles (R338) and its working memory (R339). -/

namespace Sys2Proof.Machine

/-! ## Array tiles -/

def State.capTile (s : State) (t : Nat) : CapTile := tget {} s.cap.tiles t
def State.setCapTile (s : State) (t : Nat) (x : CapTile) : State := s.modCap fun c => { c with tiles := tput {} c.tiles t x }

/-- R24, R25: the sum of the 64 row products of a column. -/
def CapTile.colSum (x : CapTile) (codes : List Byte) (c : Nat) : Int :=
  (List.range 64).foldl (fun n r =>
    n + operandA x.cfg.zpMode (codeOf x.cfg.actSigned (codes.getD r 0).toNat) (codeOf x.cfg.actSigned x.cfg.zpA) *
      int8 (tget 0 x.weights (r * 64 + c)).toNat) 0

/-- R27, R28: bias, mantissa and shift of a column. -/
def CapTile.col (x : CapTile) (c : Nat) : Int × Nat × Nat := x.cfg.cols.getD c (0, 0x4000, 14)

/-- R29, R30: the narrowing of a column's accumulator. -/
def CapTile.narrow (x : CapTile) (v c : Nat) : Narrowed :=
  let e := tget (0, false) x.acc (c * 256 + v % 256)
  let g := x.cfg
  narrowAcc e.1 e.2 (x.col c).1 (x.col c).2.1 (x.col c).2.2 (codeOf g.outSigned g.zpOut) (codeOf g.outSigned g.qLo)
    (codeOf g.outSigned g.qHi)

/-- R24 to R30: an activation vector passes through a tile of the Capsule. -/
def CapTile.vector (x : CapTile) (v : Nat) (codes : List Byte) (first last : Bool) : CapTile :=
  let acc := (List.range 64).foldl (fun t c =>
    let k := c * 256 + v % 256
    tput (0, false) t k (accAdd first (tget (0, false) t k) (x.colSum codes c))) x.acc
  let x := { x with acc := acc }
  if !last then x
  else
    let rs := (List.range 64).map fun c => x.narrow v c
    { x with out := rs.map fun r => byteOf r.y
             mon := tput {} x.mon x.cfg.mon (rs.foldl MonSet.add (tget {} x.mon x.cfg.mon)) }

/-! ## Working memory -/

/-- R339: the CRC of a block of working memory that nothing has written. -/
def zeroCrc : Nat := crc16 (List.replicate 64 0)

def CapSt.block (c : CapSt) (k : Nat) : List Byte := getBytes c.xspi (64 * k) 64

/-- R339: a block of working memory disagrees with its CRC. -/
def CapSt.blockBad (c : CapSt) (k : Nat) : Bool := crc16 (c.block k) != tget zeroCrc c.xcrc k

/-- R339: the image writes working memory: the CRCs of the blocks follow. A block that disagreed goes on disagreeing unless all of it is
written (DESIGN CHOICE, log 14). -/
def CapSt.store (c : CapSt) (addr : Nat) (data : List Byte) : CapSt :=
  let touched := (data.zipIdx.map fun d => (addr + d.2) / 64).eraseDups
  let bad := touched.filter fun k => c.blockBad k && !(decide (addr ≤ 64 * k) && decide (64 * k + 64 ≤ addr + data.length))
  let d := { c with xspi := putBytes c.xspi addr data }
  { d with xcrc := touched.foldl (fun t k => tput zeroCrc t k (crc16 (d.block k) ^^^ boolNat (bad.contains k))) c.xcrc }

/-- R339: a write of SRAM; an uncorrectable word is sound again once a write has replaced it whole. -/
def CapSt.sramPut (c : CapSt) (addr : Nat) (data : List Byte) : CapSt :=
  { c with sram := putBytes c.sram addr data
           sramUe := c.sramUe.filter fun w => !(decide (addr ≤ 8 * w) && decide (8 * w + 8 ≤ addr + data.length)) }

/-- R339: a block or a word that a measurement used is bad. -/
def CapSt.memErr (c : CapSt) (f : ParcelFacts) : Bool := f.blocks.any c.blockBad || f.words.any c.sramUe.contains

/-- R338, R339: a piece of the image's work. A tile accepts `zp_mode` 0 and 1 only. -/
def State.capWork (s : State) (w : CapWork) : State :=
  match w with
  | .setup t cfg => if 4 ≤ t ∨ 2 ≤ cfg.zpMode then s else s.setCapTile t { s.capTile t with cfg := cfg }
  | .weights t r data =>
    if 4 ≤ t ∨ 64 ≤ r then s else s.setCapTile t { s.capTile t with weights := putBytes (s.capTile t).weights (r * 64) (data.take 64) }
  | .vector t v codes first last => if 4 ≤ t then s else s.setCapTile t ((s.capTile t).vector v codes first last)
  | .store addr data => if 0x4000000 < addr + data.length then s else s.modCap fun c => c.store addr data
  | .sram addr data => if 0x1000000 < addr + data.length then s else s.modCap fun c => c.sramPut addr data
  | .decay addr bits => s.modCap fun c => { c with xspi := putBytes c.xspi addr [tget 0 c.xspi addr ^^^ bits] }

end Sys2Proof.Machine
end

