-- ==== Sys2Proof/Machine/Array.lean ====
section
/-! DEFINITION. The array tile: its weight store (R57, R58), the systolic array cycle by cycle (R49 to R56), narrowing
(R62), weight exchange (R59 to R61) and layer contexts (R63), and the operations VEC, LOADW, DROP and SENDV (R166 to
R169). -/

namespace Sys2Proof.Machine

/-! ## Layer context -/

/-- A layer context as the array reads it (R71). -/
structure LCtx where
  wfmt : Nat
  zpMode : Nat
  actSigned : Bool
  outSigned : Bool
  mon : Nat
  zpA : Int
  zpW : Int
  zpOut : Int
  qLo : Int
  qHi : Int
  sideEn : Nat
  wide : List Nat
  deriving DecidableEq, Repr

/-- The wide columns that narrow wide (R55): the 8 lowest set bits among the columns that the format has. -/
def wideCols (s : State) (base wfmt : Nat) : List Nat :=
  (List.range (if wfmt = 0 then 64 else 128)).filter fun c => bitOf (s.rd (base + 8 + 4 * (c / 32))) (c % 32)

/-- Context n of a tile; `old` reads the pending copy, which holds the values from before a switch (R255). -/
def State.lctx (s : State) (stop n : Nat) (old : Bool) : LCtx :=
  let b := reg stop ((if old then 0x0180 else 0x0100) + 0x20 * n)
  let w0 := s.rd b
  let w1 := s.rd (b + 4)
  let os := bitOf w0 5
  { wfmt := bitsOf w0 0 2, zpMode := bitsOf w0 2 2, actSigned := bitOf w0 4, outSigned := os, mon := bitsOf w0 6 2,
    zpA := codeOf (bitOf w0 4) (bitsOf w0 8 8), zpW := int8 (bitsOf w0 16 8), zpOut := codeOf os (bitsOf w0 24 8),
    qLo := codeOf os (bitsOf w1 0 8), qHi := codeOf os (bitsOf w1 8 8), sideEn := bitsOf w1 16 8,
    wide := wideCols s b (bitsOf w0 0 2) }

/-- The active layer context of an array tile (AT_STATUS `lctx`). -/
def State.actCtx (s : State) (stop : Nat) (old : Bool) : LCtx := s.lctx stop (s.rf (reg stop 0x0010) 0 2) old

/-! ## Weight store -/

/-- Bytes of the weight store (addresses wrap at 512 granules, R57); an uncorrectable word reads as zeros (R58). -/
def At.wsRead (a : At) (addr n : Nat) : List Byte :=
  (List.range n).map fun i =>
    let b := (addr + i) % 0x80000
    if (b / 8) ∈ a.wsUe then 0 else tget 0 a.ws b

/-- The 64-bit words that a read of n bytes touches. -/
def wordsOf (addr n : Nat) : List Nat := if n = 0 then [] else (List.range ((n + 7) / 8)).map fun i => (addr + 8 * i) % 0x80000 / 8

/-- R58: the errors that a LOADW's read of words meets: counters, flags, the latest address, and for each uncorrectable
word a notice, held while the schedule may still issue a VEC. -/
def State.wsErrors (s : State) (stop : Nat) (words : List Nat) : State :=
  words.foldl (fun s w =>
    let a := s.atile stop
    let s := if w ∈ a.wsCe then (s.count (reg stop 0x0204) 0 32).setFlag (reg stop 0x0200) 2 else s
    if w ∈ a.wsUe then
      let s := (s.count (reg stop 0x0208) 0 32).setFlag (reg stop 0x0200) 3
      let s := s.wr (reg stop 0x020C) (BitVec.ofNat 32 (w % 128 + w / 128 * 65536))
      if s.schState stop = schRun ∨ s.schState stop = schWait then
        s.setAt stop { s.atile stop with held := (s.atile stop).held + 1 }
      else s
    else s) s

/-- A write into the weight store: whole words written clear their error mark, a partial one merges into zeros where
the word was uncorrectable (R491). -/
def At.wsWrite (a : At) (addr : Nat) (data : List Byte) : At :=
  let keys := (List.range data.length).map fun i => (addr + i) % 0x80000
  let bad := a.wsUe.filter fun w => keys.any fun k => k / 8 == w
  let ws := bad.foldl (fun t w => putBytes t (8 * w) (List.replicate 8 0)) a.ws
  let touched (w : Nat) : Bool := keys.any fun k => k / 8 == w
  { a with ws := tputAll 0 ws (keys.zip data), wsUe := a.wsUe.filter (fun w => !touched w),
           wsCe := a.wsCe.filter (fun w => !touched w) }

/-! ## One tile cycle of the array -/

/-- Exchanges active and shadow contents at the given keys. -/
def swapKeys (act shd : Tbl Byte) (ks : List Nat) : Tbl Byte × Tbl Byte :=
  ks.foldl (fun (p : Tbl Byte × Tbl Byte) k => (tput 0 p.1 k (tget 0 p.2 k), tput 0 p.2 k (tget 0 p.1 k))) (act, shd)

/-- Rows (or side rows) and columns on the diagonal at distance d. -/
def diagonal (rows d : Nat) : List (Nat × Nat) :=
  ((List.range rows).filter fun r => decide (r ≤ d) && decide (d - r < 64)).map fun r => (r, d - r)

/-- R60: the elements that the exchange started at t₀ reaches in tile cycle t₀ + d. -/
def At.exchange (a : At) (d : Nat) : At :=
  let c := swapKeys a.act a.shd ((diagonal 64 d).map fun p => p.1 * 64 + p.2)
  let k := if d < 64 then swapKeys a.cbA a.cbS ((List.range 16).map fun i => d * 16 + i) else (a.cbA, a.cbS)
  let side := if d < 56 then [] else (diagonal 8 (d - 56)).flatMap fun p => [p.2 * 16 + p.1 * 2, p.2 * 16 + p.1 * 2 + 1]
  let w := swapKeys a.sdA a.sdS side
  { a with act := c.1, shd := c.2, cbA := k.1, cbS := k.2, sdA := w.1, sdS := w.2 }

def addTo (t : Tbl Int) (k : Nat) (v : Int) : Tbl Int := tput 0 t k (tget 0 t k + v)

/-- R63: the product that a cell caught in a switch of the weight format adds: a free value within the bound of R25. -/
def caughtFree (n r j : Nat) : Int := max (-65025) (min 65025 (Config.caughtProduct (n * 8192 + r * 128 + j)))

/-- R24, R51, R52: what the cells on a vector's diagonal add to the partial sums. -/
def Flight.cells (f : Flight) (a : At) (x : LCtx) (d free : Nat) : Tbl Int :=
  (diagonal 64 d).foldl (fun ps p =>
    let tab := f.tab.getD p.1 []
    let code := (tget 0 a.act (p.1 * 64 + p.2)).toNat
    if x.wfmt = 0 then
      if tab.isEmpty then
        addTo ps p.2 (f.xa.getD p.1 0 * operandW x.zpMode (int8 code) x.zpW)
      else addTo ps p.2 (caughtFree free p.1 p.2)
    else if tab.isEmpty then
      addTo (addTo ps p.2 (caughtFree free p.1 p.2)) (p.2 + 64) (caughtFree free p.1 (p.2 + 64))
    else
      addTo (addTo ps p.2 (tab.getD (codeIndex x.wfmt (code % 16)) 0)) (p.2 + 64)
        (tab.getD (codeIndex x.wfmt (code / 16)) 0)) f.psum

/-- R32, R53: what the side lane adds. -/
def Flight.sideLane (f : Flight) (a : At) (x : LCtx) (d : Nat) : Tbl Int :=
  if d < 56 then f.side
  else (diagonal 8 (d - 56)).foldl (fun t p =>
    if x.sideEn / 2 ^ p.1 % 2 = 1 then
      let v := f.sides.getD p.1 0
      let t := addTo t p.2 (v * int8 (tget 0 a.sdA (p.2 * 16 + p.1 * 2)).toNat)
      if x.wfmt = 0 then t
      else addTo t (p.2 + 64) (v * int8 (tget 0 a.sdA (p.2 * 16 + p.1 * 2 + 1)).toNat)
    else t) f.side

/-- R50: row d's west register, and in codebook mode its product table. -/
def Flight.enter (f : Flight) (a : At) (x : LCtx) (d : Nat) : Flight :=
  if d < 64 then
    let xa := operandA x.zpMode (codeOf x.actSigned ((f.codes.getD d 0).toNat)) x.zpA
    let tab := if x.wfmt = 0 then []
      else (List.range 16).map fun i => xa * operandW x.zpMode (int8 (tget 0 a.cbA (d * 16 + i)).toNat) x.zpW
    { f with xa := f.xa ++ [xa], tab := f.tab ++ [tab] }
  else f

/-- The output columns that cell column j feeds (R50). -/
def colsOf (wfmt j : Nat) : List Nat := if wfmt = 0 then [j] else [j, j + 64]

/-- R54: the south edge updates the accumulators of a cell column. -/
def accUpdate (acc : Tbl (Int × Bool)) (f : Flight) (x : LCtx) (j : Nat) : Tbl (Int × Bool) :=
  (colsOf x.wfmt j).foldl (fun t c =>
    let k := c * 256 + f.v % 256
    tput (0, false) t k (accAdd f.first (tget (0, false) t k) (tget 0 f.psum c + tget 0 f.side c))) acc

/-- One vector's events of tile cycle t_v + d, but for its narrowing (R50). -/
def stepFlight (s : State) (stop : Nat) (f : Flight) (d : Nat) : State × Flight :=
  let a := s.atile stop
  let x := s.actCtx stop f.old
  let f := f.enter a x d
  let f := { f with psum := f.cells a x d s.free, side := f.sideLane a x d }
  if 64 ≤ d ∧ d < 128 then (s.setAt stop { a with acc := accUpdate a.acc f x (d - 64) }, f) else (s, f)

/-- R62: the column bank's bias and scale word of a column; `old` reads the pending copy. -/
def State.colParams (s : State) (stop bank c : Nat) (old : Bool) : Int × Nat × Nat :=
  let sc := s.rd (reg stop ((if old then 0x3000 else 0x1000) + 0x400 * bank + 4 * c))
  let bi := s.rd (reg stop ((if old then 0x3800 else 0x2000) + 0x400 * bank + 4 * c))
  (int32 bi, bitsOf sc 0 16, bitsOf sc 16 6)

/-- R55, R62: narrowing of one column of a vector, with what its accumulator entry then holds. -/
def narrowCol (s : State) (stop : Nat) (f : Flight) (x : LCtx) (c : Nat) : Narrowed × Bool × (Int × Bool) :=
  let e := tget (0, false) (s.atile stop).acc (c * 256 + f.v % 256)
  let (bias, m, sh) := f.par.getD (c / 64) (0, 0, 0)
  let wide := (x.wide.take 8).contains c
  let r := if wide then narrowWide e.1 e.2 bias m sh else narrowAcc e.1 e.2 bias m sh x.zpOut x.qLo x.qHi
  (r, wide, (e.1, r.ovf))

/-- R62: the narrowing reads of tile cycle t_v + 65 + j, both output columns of cell column j. -/
def narrowFlight (s : State) (stop : Nat) (f : Flight) (j : Nat) : State × Flight :=
  let x := s.actCtx stop f.old
  let s := if x.wide.length > 8 then s.setFlag (reg stop 0x0200) 1 else s
  (colsOf x.wfmt j).foldl (fun (p : State × Flight) c =>
    let (r, wide, e) := narrowCol p.1 stop p.2 x c
    let a := p.1.atile stop
    let s := p.1.setAt stop { a with acc := tput (0, false) a.acc (c * 256 + p.2.v % 256) e }
    let s := s.monCount stop x.mon p.2.tag p.2.epoch [r]
    let f := p.2
    (s, if wide then { f with res := tput 0 f.res c x.zpOut, wide := f.wide ++ [(c, r.y)], cb := decide (x.wfmt ≠ 0) }
        else { f with res := tput 0 f.res c r.y, cb := decide (x.wfmt ≠ 0) })) (s, f)

/-- Latency of the array tile's output with its padding (R226, R227). -/
def State.outLatency (s : State) (stop : Nat) : Nat := 132 + s.rf (reg stop 0xD400) 0 4

/-- R56: the output register presents a vector. -/
def presentFlight (s : State) (stop c : Nat) (f : Flight) : State :=
  let a := s.atile stop
  let s := if a.out.taken then s else s.hazard stop 6 0
  let w := ((f.wide.filter fun p => p.1 < 64) ++ (f.wide.filter fun p => 64 ≤ p.1)).map fun p => BitVec.ofInt 16 p.2
  s.setAt stop { a with out := { codes := (List.range 128).map (fun i => byteOf (tget 0 f.res i)),
                                 wide := w ++ List.replicate (8 - w.length) 0, cb := f.cb, at_ := some c,
                                 taken := false } }

/-- Start of tile cycle c: the output register presents the vector that is due, vectors whose output is past leave, and
the narrowings of this cycle take the words of their bank as they stand before any write of the cycle (R62). -/
def State.atBegin (s : State) (stop c : Nat) : State :=
  let lat := s.outLatency stop
  let fl := ((s.atile stop).fl).filter fun f => c - f.t ≤ lat
  let s := s.setAt stop { s.atile stop with fl := [] }
  let s := fl.foldl (fun s f => if f.last && c - f.t == lat then presentFlight s stop c f else s) s
  s.setAt stop { s.atile stop with fl := fl.map fun f =>
    if f.last ∧ 65 ≤ c - f.t ∧ c - f.t < 129 then
      let j := c - f.t - 65
      { f with par := [s.colParams stop f.pbank j f.old, s.colParams stop f.pbank (j + 64) f.old] }
    else f }

/-- The narrowings of tile cycle c, under the layer context that is active in it (R63). -/
def State.narrowAll (s : State) (stop c : Nat) : State :=
  let p := (s.atile stop).fl.foldl (fun (p : State × List Flight) f =>
    let d := c - f.t
    if f.last ∧ 65 ≤ d ∧ d < 129 then
      let q := narrowFlight p.1 stop f (d - 65)
      (q.1, p.2 ++ [{ q.2 with par := [] }])
    else (p.1, p.2 ++ [f])) (s, [])
  p.1.setAt stop { p.1.atile stop with fl := p.2 }

/-- R59: the transfer of row k of a LOADW. -/
def State.loadRow (s : State) (stop k : Nat) (ld : LoadW) : State :=
  let aw := ld.w * 1024 + k * 64
  let words := wordsOf aw 64 ++ (ld.k.elim [] fun g => wordsOf (g * 1024 + k * 16) 16)
    ++ (ld.s.elim [] fun g => wordsOf (g * 1024 + k * 16) 16) ++ (ld.p.elim [] fun g => wordsOf (g.1 * 1024 + k * 16) 16)
  let a := s.atile stop
  let a1 := { a with shd := putBytes a.shd (k * 64) (a.wsRead aw 64) }
  let a2 := match ld.k with | some g => { a1 with cbS := putBytes a1.cbS (k * 16) (a.wsRead (g * 1024 + k * 16) 16) } | none => a1
  let a3 := match ld.s with | some g => { a2 with sdS := putBytes a2.sdS (k * 16) (a.wsRead (g * 1024 + k * 16) 16) } | none => a2
  let s1 := match ld.p with
    | some (g, bank) =>
      let b := a.wsRead (g * 1024 + k * 16) 16
      let w (i : Nat) : Word := BitVec.ofNat 32 (leNat ((b.drop (4 * i)).take 4))
      let s := (s.bankEarly stop bank k).bankEarly stop bank (k + 64)
      (((s.wr (reg stop (0x2000 + 0x400 * bank + 4 * k)) (w 0)).wr (reg stop (0x1000 + 0x400 * bank + 4 * k))
        (w 1 &&& 0x3FFFFF)).wr (reg stop (0x2000 + 0x400 * bank + 4 * (k + 64))) (w 2)).wr
        (reg stop (0x1000 + 0x400 * bank + 4 * (k + 64))) (w 3 &&& 0x3FFFFF)
    | none => s
  (s1.setAt stop a3).wsErrors stop words

/-- LOADW's move of tile cycle c; after row 63 the transfer ends (R59, R70). -/
def State.loadStep (s : State) (stop c : Nat) : State :=
  match (s.atile stop).ld with
  | none => s
  | some ld =>
    if ld.l ≤ c then
      let s := if c - ld.l < 64 then s.loadRow stop (c - ld.l) ld else s
      if 63 ≤ c - ld.l then (s.setAt stop { s.atile stop with ld := none }).clrFlag (reg stop 0x0010) 3 else s
    else s

/-- The rest of tile cycle c, after the issue: narrowing, exchanges, the array's flow, LOADW. -/
def State.atFlow (s : State) (stop c : Nat) : State :=
  let s := s.narrowAll stop c
  let a := s.atile stop
  let a := a.swaps.foldl (fun a t => a.exchange (c - t)) a
  let a := { a with swaps := a.swaps.filter fun t => decide (c - t < 126) }
  let fl := a.fl
  let s := s.setAt stop { a with fl := [] }
  let p := fl.foldl (fun (p : State × List Flight) f =>
    let q := stepFlight p.1 stop f (c - f.t)
    (q.1, p.2 ++ [q.2])) (s, [])
  let s := p.1.setAt stop { p.1.atile stop with fl := p.2 }
  (s.loadStep stop c).bump

/-! ## Operations -/

/-- R49, R63: vector 0 opens a pass; a changed `lctx` switches the tile's context. -/
def State.openPass (s : State) (stop w c : Nat) : State :=
  let lctx := osel w 12 2
  let pb := osel w 11 1
  let st := reg stop 0x0010
  let a := s.atile stop
  let early : Bool := s.rf st 0 2 != lctx && !a.fl.isEmpty
  let s := if early then s.hazard stop 8 lctx else s
  let ldBad : Bool := match a.ld with | some ld => osel w 10 1 == 1 && decide (c < ld.l + 1) | none => false
  let s := if ldBad then s.hazard stop 7 0 else s
  let s := ((s.wf st 0 2 lctx).wf st 2 1 pb).wrap st 16 16
  s.setAt stop { s.atile stop with
    pass := some { next := 0, accFirst := osel w 15 1 == 1, accLast := osel w 14 1 == 1, pbank := pb }
    swaps := if osel w 10 1 = 1 then a.swaps ++ [c] else a.swaps }

/-- The INT16 values of side rows 0 to 7 in an outlier flit (R166). -/
def sideValues (p : Payload) : List Int :=
  (List.range 8).map fun k => int16 (leNat [byteAt p (2 * k), byteAt p (2 * k + 1)])

/-- The same notice for each of n uncorrectable words. -/
def State.memNotices (s : State) (stop : Nat) (tag : Option Tag) : Nat → State
  | 0 => s
  | n + 1 => (s.memNotice stop tag).memNotices stop tag n

/-- R58: the held notices go out with the block in progress after the pops of a VEC. -/
def State.heldNotice (s : State) (stop : Nat) : State :=
  let n := (s.atile stop).held
  if n = 0 then s else (s.setAt stop { s.atile stop with held := 0 }).memNotices stop (s.curTag stop) n

/-- The pass that a vector joins before any `first` has opened one: the spec states no pass-start fields for it, so
`acc_first` and `acc_last` are free values (log 24). -/
def State.openedPass (s : State) (stop : Nat) : Pass :=
  (s.atile stop).pass.getD { next := 0, accFirst := Config.unstated 166 0 % 2 == 1, accLast := Config.unstated 166 1 % 2 == 1,
                             pbank := s.rf (reg stop 0x0010) 2 1 }

/-- VEC (R166) in tile cycle c. -/
def State.opVec (s : State) (stop w c : Nat) : State :=
  let first := osel w 16 1 = 1
  let bank := if first then osel w 11 1 else s.rf (reg stop 0x0010) 2 1
  let pa := s.popLq stop (osel w 21 3) true bank
  let ps := if osel w 17 1 = 1 then (let q := pa.1.popLq stop (osel w 18 3) false bank; (q.1, sideValues q.2.payload))
    else (pa.1, List.replicate 8 0)
  let s := ps.1.heldNotice stop
  let s := if first then s.openPass stop w c else s
  let a := s.atile stop
  let p := s.openedPass stop
  let s := if p.next ≥ 256 then s.setFlag (reg stop 0x0200) 0 else s
  let f : Flight := { t := c, v := p.next, codes := payloadBytes pa.2.payload, sides := ps.2, first := p.accFirst,
                      last := p.accLast, pbank := p.pbank, tag := s.blockTag stop, epoch := s.epochOf stop }
  s.setAt stop { a with fl := a.fl ++ [f], pass := some { p with next := p.next + 1 } }

/-- LOADW (R167) in tile cycle c. -/
def State.opLoadw (s : State) (stop w c : Nat) : State :=
  let a := s.atile stop
  let early := a.swaps.any fun t => decide (c < t + 64)
  let s := if early || a.ld.isSome then s.hazard stop 7 0 else s
  if a.ld.isSome then s
  else
    let r := if osel w 13 1 = 1 then s.ctx stop (osel w 14 5) else 0
    let ld : LoadW :=
      { l := c + s.rf (reg stop 0xD400) 8 4, w := s.afAddr stop (osel w 19 5) % 512
        k := if bitOf r 9 then some (bitsOf r 0 9) else none
        s := if bitOf r 19 then some (bitsOf r 10 9) else none
        p := if bitOf r 29 then some (bitsOf r 20 9, bitsOf r 30 1) else none }
    (s.setAt stop { a with ld := some ld }).setFlag (reg stop 0x0010) 3

/-- DROP (R168). -/
def State.opDrop (s : State) (stop w : Nat) : State :=
  (s.popLq stop (osel w 21 3) true (s.rf (reg stop 0x0010) 2 1)).1

/-- SENDV (R169) in tile cycle c; `ok` is `block_ok` as it stood at the start of the cycle. -/
def State.opSendv (s : State) (stop w c : Nat) (ok : Bool) : State :=
  let a := s.atile stop
  let o := a.out
  let s := if o.at_ = some c then s else s.setFlag (reg stop 0x0210) 3
  let s := s.setAt stop { a with out := { o with taken := true } }
  let ready := c + 2 + s.rf (reg stop 0xD400) 4 4
  let tag : Tag := (s.ctx stop (osel w 3 5)).setWidth 16
  let send (s : State) (rt : Nat) (p : Payload) : State :=
    let e := s.eopOf stop ok rt (osel w 10 2)
    e.1.sendOn stop rt e.2 tag p ready
  let s := send s (osel w 20 4) (payloadOf ((List.range 64).map fun i => o.codes.getD i 0))
  let s := if osel w 9 1 = 1 then
      (if o.cb then send s (osel w 16 4) (payloadOf ((List.range 64).map fun i => o.codes.getD (64 + i) 0))
       else s.setFlag (reg stop 0x0210) 4)
    else s
  if osel w 8 1 = 1 then
    send s (osel w 12 4) (payloadOf ((List.range 8).flatMap fun i => leBytes (o.wide.getD i 0).toNat 2))
  else s

end Sys2Proof.Machine
end

