-- ==== Sys2Proof/Machine/Banks.lean ====
section
/-! DEFINITION. The banks of a memory tile: cells and words (R96), ports (R97), the conflicts of a tile cycle (R98), ECC
(R100), regions (R101), buffers and handles (R112 to R115). The accesses of a tile cycle gather in `MtCycle`; closing the
cycle (Cycles.lean) resolves them bank by bank in the order MI, FE, EX, MO. -/

namespace Sys2Proof.Machine

def cellsPerTile : Nat := 24576

/-- R96: the two banks of a cell, its word in them, and a bank word's key. -/
def evenBank (cell : Nat) : Nat := 2 * (cell % 8)
def cellWord (cell : Nat) : Nat := cell / 8
def bankKey (bank word : Nat) : Nat := bank * 3072 + word

def Mt.word (m : Mt) (bank word : Nat) : BitVec 256 := tget 0 m.banks (bankKey bank word)

/-- A bank word as a read sees it: an uncorrectable quarter reads as zeros (R100). -/
def Mt.readWord (m : Mt) (bank word : Nat) : BitVec 256 :=
  let k := bankKey bank word
  (List.range 4).foldl (fun w i =>
    if (k * 4 + i) ∈ m.bkUe then w &&& ~~~((BitVec.ofNat 256 (2 ^ 64 - 1)) <<< (64 * i)) else w) (m.word bank word)

/-- Writes a bank word whole; that clears the error marks of its quarters. -/
def Mt.putWord (m : Mt) (bank word : Nat) (v : BitVec 256) : Mt :=
  let k := bankKey bank word
  { m with banks := tput 0 m.banks k v, bkUe := m.bkUe.filter (fun q => q / 4 != k),
           bkCe := m.bkCe.filter (fun q => q / 4 != k) }

/-- Writes the quarters of a bank word that the bits of `mask` name (R491). -/
def Mt.putPart (m : Mt) (bank word : Nat) (v : BitVec 256) (mask : Nat) : Mt :=
  if mask = 15 then m.putWord bank word v
  else
    let k := bankKey bank word
    let on (i : Nat) : Bool := mask.testBit i
    let field : BitVec 256 := (List.range 4).foldl (fun w i =>
      if on i then w ||| (BitVec.ofNat 256 (2 ^ 64 - 1) <<< (64 * i)) else w) 0
    let keep (l : List Nat) : List Nat := l.filter fun q => !(q / 4 == k && on (q % 4))
    { m with banks := tput 0 m.banks k ((m.word bank word &&& ~~~field) ||| (v &&& field)),
             bkUe := keep m.bkUe, bkCe := keep m.bkCe }

/-- A cell as reads see it, and a cell written whole. -/
def Mt.cellData (m : Mt) (cell : Nat) : Payload :=
  m.readWord (evenBank cell + 1) (cellWord cell) ++ m.readWord (evenBank cell) (cellWord cell)

def Mt.putCell (m : Mt) (cell : Nat) (p : Payload) : Mt :=
  (m.putWord (evenBank cell) (cellWord cell) (p.extractLsb' 0 256)).putWord (evenBank cell + 1) (cellWord cell)
    (p.extractLsb' 256 256)

/-- R100: what a read of the quarters `mask` of a bank word counts and reports; `tag` is the packet or line being read. -/
def State.bankErrors (s : State) (stop bank word : Nat) (tag : Tag) (mask : Nat) : State :=
  let m := s.mtile stop
  let k := bankKey bank word
  ((List.range 4).filter mask.testBit).foldl (fun s i =>
    let s := if (k * 4 + i) ∈ m.bkCe then (s.count (reg stop 0x0204) 0 32).setFlag (reg stop 0x0200) 0 else s
    if (k * 4 + i) ∈ m.bkUe then
      let s := (s.count (reg stop 0x0208) 0 32).setFlag (reg stop 0x0200) 1
      (s.wr (reg stop 0x020C) (BitVec.ofNat 32 (word + bank * 65536))).memNotice stop (some tag)
    else s) s

/-- R98: a losing access: its port's counter (1 FE, 2 EX, 3 MO), the flag and the latest conflict. -/
def State.conflict (s : State) (stop loser bank : Nat) (tag : Tag) : State :=
  let s := (s.count (reg stop (0x020C + 4 * loser)) 0 32).setFlag (reg stop 0x0200) 3
  (s.wr (reg stop 0x021C) (BitVec.ofNat 32 (bank + loser * 16 + tag.toNat * 65536))).hazard stop 1 bank

/-- Regions: register n covers the cell with a kind (R101). -/
def State.regionHas (s : State) (stop n cell : Nat) : Bool :=
  let r := s.rd (reg stop (0x0040 + 8 * n))
  decide (bitsOf r 0 15 ≤ cell) && decide (cell < bitsOf r 0 15 + bitsOf r 16 15) &&
    s.rf (reg stop (0x0044 + 8 * n)) 0 3 != 0

/-- R101: the kind of the region that a cell lies in, 0 for none. -/
def State.regionKind (s : State) (stop cell : Nat) : Nat :=
  match (List.range 8).find? fun n => s.regionHas stop n cell with
  | some n => s.rf (reg stop (0x0044 + 8 * n)) 0 3
  | none => 0

/-- R101: an access to a cell in no region sets `region_err`. -/
def State.regionCheck (s : State) (stop cell : Nat) : State :=
  if s.regionKind stop cell = 0 then s.setFlag (reg stop 0x0200) 5 else s

/-! ## Buffers -/

def bufLo (stop b : Nat) : Nat := reg stop (0x4000 + 8 * b)
def bufHi (stop b : Nat) : Nat := reg stop (0x4004 + 8 * b)

/-- Handle fields (R112). -/
def hMt (h : Word) : Nat := bitsOf h 24 8
def hGen (h : Word) : Nat := bitsOf h 16 8
def hBuf (h : Word) : Nat := bitsOf h 0 16

def bufFree : Nat := 0
def bufHeld : Nat := 1
def bufStale : Nat := 2

def State.bufState (s : State) (stop b : Nat) : Nat := s.rf (bufHi stop b) 14 2
def State.bufGen (s : State) (stop b : Nat) : Nat := s.rf (bufHi stop b) 6 8
def State.bufCells (s : State) (stop b : Nat) : Nat := s.rf (bufLo stop b) 15 13

/-- R115, Valid: the handle names a buffer of this tile, its generation matches and it is HELD. -/
def State.handleOk (s : State) (stop : Nat) (h : Word) : Bool :=
  decide (hMt h = mtIndex stop) && decide (hBuf h ≤ 1023) && decide (s.bufCells stop (hBuf h) ≠ 0) &&
    decide (hGen h = s.bufGen stop (hBuf h)) && decide (s.bufState stop (hBuf h) = bufHeld)

/-- R115, Beyond buffer: `stale_h` and its count. -/
def State.beyondBuffer (s : State) (stop : Nat) : State := (s.count (reg stop 0x0220) 0 16).setFlag (reg stop 0x0200) 6

/-- R115, Stale: as Beyond buffer, with a notice. -/
def State.staleHandle (s : State) (stop : Nat) (tag : Tag) : State :=
  (s.beyondBuffer stop).notice stop .error (s.pipeOf stop) (some tag)

/-- R114: a pop from a free list sets the buffer HELD. -/
def State.holdBuf (s : State) (stop : Nat) (h : Word) : State :=
  if hMt h = mtIndex stop ∧ hBuf h ≤ 1023 then s.wf (bufHi stop (hBuf h)) 14 2 bufHeld else s

/-! ## The tile cycle under way -/

/-- What a queue holds beside its descriptor. -/
def Mt.qxAt (m : Mt) (q : Nat) : QX := tget {} m.qx q
def Mt.setQx (m : Mt) (q : Nat) (x : QX) : Mt := { m with qx := tput {} m.qx q x }

/-- The words of a cell written through MI or FE in the tile cycle under way, `lo` and `hi` the quarters of each half. -/
def State.portPart (s : State) (stop cell : Nat) (p : Payload) (fe : Bool) (lo hi : Nat) : State :=
  let w (b m : Nat) (v : BitVec 256) : List BankWr :=
    if m = 0 then [] else [{ bank := b, word := cellWord cell, data := v, fe := fe, mask := m }]
  let ws := w (evenBank cell) lo (p.extractLsb' 0 256) ++ w (evenBank cell + 1) hi (p.extractLsb' 256 256)
  s.modMt stop fun m => { m with cy := { m.cy with wr := m.cy.wr ++ ws, mi := m.cy.mi || !fe, fe := m.cy.fe || fe } }

/-- A cell written through MI or FE, with the region check of R101. -/
def State.portWrite (s : State) (stop cell : Nat) (p : Payload) (fe : Bool) : State :=
  (s.regionCheck stop cell).portPart stop cell p fe 15 15

end Sys2Proof.Machine
end

