-- ==== Sys2Proof/Machine/Writers.lean ====
section
/-! DEFINITION. Ring writers: flits gathered into plane rows (R189 to R193). -/

namespace Sys2Proof.Machine

def rwReg (stop k off : Nat) : Nat := reg stop (0x3100 + 0x20 * k + off)

/-- R190: the writer of a memory tile that takes the pushes of queue q. -/
def State.writerOf (s : State) (stop q : Nat) : Option Nat :=
  if kindOf stop = .mt then (List.range 4).find? fun k => s.flag (rwReg stop k 0) 0 && s.rf (rwReg stop k 0) 1 6 == q else none

def State.wrt (s : State) (stop k : Nat) : Writer := tget {} (s.mtile stop).wrt k
def State.setWrt (s : State) (stop k : Nat) (x : Writer) : State := s.modMt stop fun m => { m with wrt := tput {} m.wrt k x }

/-- R193, R223: buffers in use once `n` more positions have come; `x` is the next position and `w` the row's width. -/
def buffersAfter (w : Nat) : Nat → Nat → Nat → Nat → Nat
  | used, _, _, 0 => used
  | used, fill, x, n + 1 =>
    let used1 := if fill = 0 then used + 1 else used
    let done := fill + 1 = 64 ∨ x + 1 ≥ w
    buffersAfter w used1 (if done then 0 else fill + 1) (if x + 1 ≥ w then 0 else x + 1) n

/-- R193, Full, and R223: a flit that leaves for the writer finds a place in a gather buffer. -/
def State.writerTakes (s : State) (stop k : Nat) : Bool :=
  let x := s.wrt stop k
  let fill := match x.bufs.getLast? with
    | some g => if g.full then 0 else g.n
    | none => 0
  buffersAfter (s.rf (rwReg stop k 0xC) 0 13) x.bufs.length fill (s.rf (rwReg stop k 0x14) 0 13) (x.resv + 1) ≤ 2

/-- R191: position x gathered: byte of plane r is `f r`. -/
def State.gather (s : State) (stop k : Nat) (f : Nat → Byte) : State :=
  let nch := s.rf (rwReg stop k 0) 20 7
  let w := s.rf (rwReg stop k 0xC) 0 13
  let x := s.rf (rwReg stop k 0x14) 0 13
  let r := s.wrt stop k
  let old := match r.bufs.getLast? with
    | some g => if g.full then none else some g
    | none => none
  let g := old.getD { x0 := x, n := 0, bytes := [], full := false, ends := false }
  let ends := x + 1 ≥ w
  let g := { g with bytes := tputAll 0 g.bytes ((List.range nch).map fun c => (g.n * 64 + c, f c)), n := g.n + 1,
                    full := decide (g.n + 1 = 64) || decide ends, ends := decide ends }
  let bufs := (if old.isSome then r.bufs.dropLast else r.bufs) ++ [g]
  (s.setWrt stop k { r with bufs := bufs }).wf (rwReg stop k 0x14) 0 13 (if ends then 0 else x + 1)

/-- R190, R193: a push that an enabled writer takes; the writer ignores its tag but for the notice of an abort. -/
def State.writerTake (s : State) (stop k op : Nat) (tag epoch : Tag) (p : Payload) : State :=
  if epoch ≠ s.epochOf stop then s.count (rwReg stop k 0x1C) 16 16
  else if op = 2 then
    let zp : Byte := (s.rd (rwReg stop k 4)).extractLsb' 24 8
    let s := ((s.setFlag (reg stop 0x3088) 1).count (rwReg stop k 0x1C) 0 16).notice stop .error (s.pipeOf stop) (some tag)
    s.gather stop k fun _ => zp
  else s.gather stop k (byteAt p)

/-- R193: a flit that reaches an enabled writer gives its reserved place back. -/
def State.writerFlit (s : State) (stop k : Nat) (f : Flit) : State :=
  let r := s.wrt stop k
  (s.setWrt stop k { r with resv := r.resv - 1 }).writerTake stop k f.op f.tag f.epoch f.payload

/-- R189: the cell of plane c, block b of the ring row that the writer writes. -/
def State.ringCell (s : State) (stop k c b : Nat) : Nat :=
  let a := s.rd (rwReg stop k 4)
  let planes := s.rf (rwReg stop k 8) 0 13
  (bitsOf a 0 15 + ((s.wrt stop k).rho * planes + c) * bitsOf a 15 7 + b) % cellsPerTile

/-- R191: a completed ring row is published. -/
def State.publishRow (s : State) (stop k : Nat) : State :=
  let c := s.rd (rwReg stop k 0)
  let hr := s.rf (rwReg stop k 8) 16 12
  let r := s.wrt stop k
  let s := s.setWrt stop k { r with rho := if r.rho + 1 ≥ hr then 0 else r.rho + 1 }
  let s := (s.wr (rwReg stop k 0x18) (s.rd (rwReg stop k 0x18) + 1)).wrap (rwReg stop k 0x14) 16 13
  s.credit (bitOf c 7) (s.rf (rwReg stop k 0x10) 0 16) stop 1

/-- R192: the pad rows above a frame wait to be written: at load and after each CANCEL. -/
def State.startFrame (s : State) (stop k : Nat) : State :=
  if s.flag (rwReg stop k 0) 0 && s.rf (rwReg stop k 0xC) 16 12 != 0 then
    s.setWrt stop k { s.wrt stop k with top := s.rf (rwReg stop k 0x10) 16 3 }
  else s

def State.startFrames (s : State) (stop : Nat) : State :=
  if kindOf stop = .mt then (List.range 4).foldl (fun s k => s.startFrame stop k) s else s

/-- R191, R192: a data row is complete; after `h` of them come the pad rows below the frame and above the next one. -/
def State.endRow (s : State) (stop k : Nat) : State :=
  let h := s.rf (rwReg stop k 0xC) 16 12
  let s := s.publishRow stop k
  let r := s.wrt stop k
  if h ≠ 0 ∧ h ≤ r.dataRows + 1 then
    let bot := s.rf (rwReg stop k 0x10) 19 3
    let s := s.setWrt stop k { r with dataRows := 0, bot := bot, top := s.rf (rwReg stop k 0x10) 16 3 }
    if bot = 0 then s.wf (rwReg stop k 0x14) 16 13 0 else s
  else s.setWrt stop k { r with dataRows := r.dataRows + 1 }

/-- R192: a pad row is complete; the last one below a frame ends it. -/
def State.endPad (s : State) (stop k : Nat) : State :=
  let s := s.publishRow stop k
  let r := s.wrt stop k
  if r.bot = 0 then s.setWrt stop k { r with top := r.top - 1 }
  else
    let s := s.setWrt stop k { r with bot := r.bot - 1 }
    if r.bot = 1 then s.wf (rwReg stop k 0x14) 16 13 0 else s

/-! ## The mesh-in port -/

/-- An enabled writer has a cell to write: of a pad row, or of a gather buffer that is complete. -/
def State.writerWork (s : State) (stop k : Nat) : Bool :=
  let r := s.wrt stop k
  s.flag (rwReg stop k 0) 0 && (r.bot + r.top != 0 || r.bufs.head?.any fun g => g.full)

/-- R194: MI is free in the tile cycle under way for ring writer k; for k of 4, for arrivals. -/
def State.miFree (s : State) (stop k : Nat) : Bool :=
  !(s.mtile stop).cy.mi && !(List.range k).any fun j => s.writerWork stop j

/-- R194: MI is free for a write of the host: no arrival waits for it either. -/
def State.hostMi (s : State) (stop : Nat) : Bool :=
  s.miFree stop 4 && !s.mesh.into.any fun x => x.1 == stop && (s.writerOf stop x.2.dstQ).isNone

/-- Hazard 11 of R231, R195: the writer whose ring row holds the cell has begun the row and not published it. -/
def State.unpublished (s : State) (stop cell : Nat) : Option Nat :=
  (List.range 4).find? fun k =>
    let r := s.wrt stop k
    let a := s.rd (rwReg stop k 4)
    let row := s.rf (rwReg stop k 8) 0 13 * bitsOf a 15 7
    let begun := r.cell != 0 || !r.bufs.isEmpty || s.rf (rwReg stop k 0x14) 0 13 != 0
    s.flag (rwReg stop k 0) 0 && begun && decide (bitsOf a 0 15 + r.rho * row ≤ cell) &&
      decide (cell < bitsOf a 0 15 + (r.rho + 1) * row)

/-- R191, R192: one cell of writer k goes to the ring through MI; after the last cell of a row the row is published. A row that
the block being expanded has read from is written before its release: hazard 11 (log 24). -/
def State.writeRing (s : State) (stop k : Nat) : State :=
  if !s.miFree stop k || !s.writerWork stop k then s
  else
    let r := s.wrt stop k
    let c := s.rd (rwReg stop k 0)
    let a := s.rd (rwReg stop k 4)
    let zp : Byte := a.extractLsb' 24 8
    let put (s : State) (n plane block : Nat) (bs : List Byte) : State :=
      let cell := s.ringCell stop k (bitsOf c 8 12 + plane) block
      let s := if r.cell < n && (s.mtile stop).xread.contains cell then s.hazard stop 11 k else s
      if r.cell < n then s.portWrite stop cell (payloadOf bs) false else s
    let step (s : State) (n : Nat) : State × Bool :=
      (s.setWrt stop k { s.wrt stop k with cell := if n ≤ r.cell + 1 then 0 else r.cell + 1 }, decide (n ≤ r.cell + 1))
    if r.bot + r.top ≠ 0 then
      let rc := bitsOf a 15 7
      let n := bitsOf c 20 7 * rc
      let x := step (put s n (r.cell / rc) (r.cell % rc) (List.replicate 64 zp)) n
      if x.2 then x.1.endPad stop k else x.1
    else match r.bufs with
    | [] => s
    | g :: rest =>
      let n := bitsOf c 20 7
      let bs := (List.range 64).map fun i => if i < g.n then tget 0 g.bytes (i * 64 + r.cell) else zp
      let x := step (put s n r.cell (g.x0 / 64) bs) n
      if x.2 then
        let s := x.1.setWrt stop k { x.1.wrt stop k with bufs := rest }
        if g.ends then s.endRow stop k else s
      else x.1

/-- R193, Epoch change. The pad rows of the next frame come when the CANCEL has set the sync objects (R251, log 24). -/
def State.writerEpoch (s : State) (stop k : Nat) : State :=
  let r := s.wrt stop k
  (s.setWrt stop k { r with bufs := [], dataRows := 0, bot := 0, top := 0, cell := 0 }).wr (rwReg stop k 0x14) 0

end Sys2Proof.Machine
end

