-- ==== Sys2Proof/Machine/Cushion.lean ====
section
/-! DEFINITION. The cushion: queues of packets (R102 to R110), handle queues and free lists (R111 to R114), and how a spilled
queue goes on (R245). -/

namespace Sys2Proof.Machine

def qReg (stop q off : Nat) : Nat := reg stop (0x1000 + 0x20 * q + off)

/-- Field of a queue's descriptor (R129). -/
def State.qf (s : State) (stop q off lo n : Nat) : Nat := s.rf (qReg stop q off) lo n
def State.setQf (s : State) (stop q off lo n v : Nat) : State := s.wf (qReg stop q off) lo n v
def State.qbit (s : State) (stop q off i : Nat) : Bool := s.flag (qReg stop q off) i
def State.qx (s : State) (stop q : Nat) : QX := (s.mtile stop).qxAt q
def State.modQx (s : State) (stop q : Nat) (f : QX → QX) : State := s.modMt stop fun m => m.setQx q (f (m.qxAt q))

def State.qLevel (s : State) (stop q : Nat) : Nat := s.qf stop q 0x10 0 16
def State.qLimit (s : State) (stop q : Nat) : Nat := s.qf stop q 0 16 16
def State.qResv (s : State) (stop q : Nat) : Nat := s.qf stop q 0x10 16 16
def State.qHead (s : State) (stop q : Nat) : Nat := s.qf stop q 8 0 16
def State.qOpenLen (s : State) (stop q : Nat) : Nat := s.qf stop q 0xC 16 13
def State.qOpen (s : State) (stop q : Nat) : Bool := s.qbit stop q 0xC 29
def State.qIsHandle (s : State) (stop q : Nat) : Bool := s.qbit stop q 0 1

/-- Cells, or handles, committed in staging (R245). -/
def QX.staged (x : QX) (handles : Bool) : Nat :=
  match x.spill with
  | some p => if handles then (p.staged.map fun c => c.slots.length).sum else p.staged.length
  | none => 0

/-- Cells, or handles, whose write to the segment is not acknowledged: they are still resident (R244). -/
def QX.writing (x : QX) (handles : Bool) : Nat :=
  match x.spill with
  | some p => if handles then (p.writing.map fun c => c.slots.length).sum else p.writing.length
  | none => 0

/-- Committed and resident behind the head region. -/
def QX.behind (x : QX) (handles : Bool) : Nat := x.staged handles + x.writing handles

/-! ## The pool -/

/-- R102: the cell that the head of the free list gives. -/
def Mt.takeCell (m : Mt) : Option (Nat × Mt) :=
  match m.free, m.cy.frees with
  | c :: r, _ => some (c, { m with free := r })
  | [], f :: r => some (f.2, { m with cy := { m.cy with frees := r } })
  | [], [] => none

def Mt.poolFree (m : Mt) : Nat := m.free.length + m.cy.frees.length

/-- R102: cells freed in one tile cycle join in increasing queue number, those of one queue in their order. -/
def insertFree (q c : Nat) : List (Nat × Nat) → List (Nat × Nat)
  | [] => [(q, c)]
  | f :: r => if q < f.1 then (q, c) :: f :: r else f :: insertFree q c r

def State.freeCells (s : State) (stop q : Nat) (cells : List Nat) : State :=
  s.modMt stop fun m => { m with cy := { m.cy with frees := cells.foldl (fun l c => insertFree q c l) m.cy.frees } }

def Mt.sideAt (m : Mt) (c : Nat) : SideEnt := tget {} m.side c
def Mt.setSide (m : Mt) (c : Nat) (e : SideEnt) : Mt :=
  { m with side := tput {} m.side c e, sideUe := m.sideUe.filter (fun x => x != c) }
/-- Changes a field of a side-RAM entry in place. -/
def Mt.linkTo (m : Mt) (c next : Nat) : Mt := { m with side := tput {} m.side c { m.sideAt c with link := next } }

/-- `n` cells along the links from a cell, up to one whose side-RAM entry fails (R110); whether one does. -/
def Mt.cellsFrom (m : Mt) (c : Nat) : Nat → List Nat × Bool
  | 0 => ([], false)
  | n + 1 =>
    if m.sideUe.contains c then ([], true)
    else let r := m.cellsFrom (m.sideAt c).link n; (c :: r.1, r.2)

/-- The cells of a packet from a cell on, at most `n`, up to one whose side-RAM entry fails (R110); whether one does. -/
def Mt.packetFrom (m : Mt) (c : Nat) : Nat → List Nat × Bool
  | 0 => ([], false)
  | n + 1 =>
    if m.sideUe.contains c then ([], true)
    else if (m.sideAt c).eop then ([c], false)
    else let r := m.packetFrom (m.sideAt c).link n; (c :: r.1, r.2)

/-- R109: credits of n pushes that a queue returns. -/
def State.qCredit (s : State) (stop q n : Nat) : State := s.credit (s.qbit stop q 0 4) (s.qf stop q 4 0 16) stop n

/-- A push that is dropped: counted, and its credit returned at once (R107, R109). -/
def State.qDrop (s : State) (stop q : Nat) : State := (s.count (qReg stop q 0x1C) 16 16).qCredit stop q 1

/-- R110: a queue whose side-RAM entry fails, if `bad` says that one does. -/
def State.qFaultIf (s : State) (stop q : Nat) (bad : Bool) : State :=
  if !bad || s.qbit stop q 0x18 5 then s
  else ((((s.setFlag (qReg stop q 0x18) 5).setFlag (reg stop 0x0200) 2).tallyOwner stop 21).notice stop .error (s.pipeOf stop) none).event 15 stop q
    (some (s.pipeOf stop))

/-! ## Pushes into a data queue -/

/-- R106: a rewind of the open packet. -/
def State.rewind (s : State) (stop q : Nat) : State :=
  let w := (s.mtile stop).cellsFrom (s.qf stop q 0xC 0 16) (s.qOpenLen stop q)
  let x := s.qx stop q
  let s := (s.freeCells stop q w.1).qCredit stop q w.1.length
  let s := (s.setQf stop q 8 16 16 x.preTail).setQf stop q 0xC 0 30 0
  (s.count (qReg stop q 0x1C) 0 16).qFaultIf stop q w.2

/-- R106: the outcome of a push that breaks a packet: a rewind, or a drop where none is open; then the discard state
unless the push ends the packet. -/
def State.breakPacket (s : State) (stop q op : Nat) : State :=
  let s := if s.qOpen stop q then (s.rewind stop q).qCredit stop q 1 else s.qDrop stop q
  if op = 0 then s.setFlag (qReg stop q 0xC) 30 else s

/-- R244: with its writes acknowledged, a victim enters spilled state. -/
def State.enterSpilled (s : State) (stop q : Nat) : State :=
  match (s.qx stop q).spill with
  | some p =>
    if p.entered || !p.writing.isEmpty then s
    else (s.setFlag (reg stop (0x6000 + 8 * q)) 0).modQx stop q fun x => { x with spill := some { p with entered := true } }
  | none => s

/-- R245: in spilled state committed cells of staging follow the writes under way while the segment has room; when nothing is
left in the segment, staging joins the head region and the spilled state ends. -/
def State.spillPump (s : State) (stop q : Nat) : State :=
  let s := s.enterSpilled stop q
  let x := s.qx stop q
  match x.spill with
  | none => s
  | some p =>
    if !p.entered then s
    else if p.writing.isEmpty && p.wr == p.rd then
      let h := s.qIsHandle stop q
      let lvl := s.qLevel stop q
      let first := match p.staged with
        | c :: _ => c.cell
        | [] => if s.qOpen stop q then s.qf stop q 0xC 0 16 else 0
      let pk := if h then x.staged true
        else (p.staged.filter fun c => ((s.mtile stop).sideAt c.cell).sop).length
      let ftag := if h then x.tags.getD lvl 0 else ((s.mtile stop).sideAt first).tag
      let links := !(h || lvl == 0 || (p.staged.isEmpty && !s.qOpen stop q))
      let bad := links && (s.mtile stop).sideUe.contains p.headLast
      let s := if links && !bad then s.modMt stop fun m => m.linkTo p.headLast first else s.qFaultIf stop q bad
      let s := if lvl = 0 ∧ !p.staged.isEmpty then (s.setQf stop q 8 0 16 first).setQf stop q 0x14 16 16 ftag.toNat else s
      let s := if p.staged.isEmpty && !h then (if s.qOpen stop q then s.modQx stop q fun x => { x with preTail := p.headLast }
        else s.setQf stop q 8 16 16 p.headLast) else s
      let s := s.setQf stop q 0x10 0 16 (lvl + x.staged h)
      let s := s.setQf stop q 0x14 0 16 (s.qf stop q 0x14 0 16 + pk)
      let die := dieOf stop
      let s := { s with segs := tput [] s.segs die (tget [] s.segs die ++ [p.seg]) }
      let s := s.wf 0x8010 (16 * die) 16 (s.rf 0x8010 (16 * die) 16 + 1)
      let s := s.clrFlag (reg stop (0x6000 + 8 * q)) 0
      s.modQx stop q fun x => { x with spill := none }
    else
      let room := p.cells - (p.wr + p.writing.length - p.rd)
      s.modQx stop q fun x =>
        { x with spill := some { p with writing := p.writing ++ p.staged.take room, staged := p.staged.drop room } }

/-- A commit of the open packet (R105); during a spill it is committed in staging (R245). -/
def State.commit (s : State) (stop q : Nat) : State :=
  let start := s.qf stop q 0xC 0 16
  let n := s.qOpenLen stop q
  let x := s.qx stop q
  let w := (s.mtile stop).cellsFrom start n
  let cells := w.1
  let s := s.modMt stop fun m => { m with side := tput {} m.side start { m.sideAt start with tag := x.openTag } }
  let s := (s.setQf stop q 0xC 0 30 0).qFaultIf stop q w.2
  match x.spill with
  | some p =>
    (s.modQx stop q fun x => { x with spill := some { p with staged := p.staged ++ cells.map fun c => ({ cell := c } : SpCell) } }).spillPump
      stop q
  | none =>
    let lvl := s.qLevel stop q
    let s := if lvl = 0 then (s.setQf stop q 8 0 16 start).setQf stop q 0x14 16 16 x.openTag.toNat else s
    let s := s.setQf stop q 0x10 0 16 (lvl + n)
    s.setQf stop q 0x14 0 16 (s.qf stop q 0x14 0 16 + 1)

/-- Whether the tail is linked to the cell that follows it: it is, unless what it held has left the queue. -/
def State.tailLinks (s : State) (stop q : Nat) : Bool :=
  s.qOpen stop q || (match (s.qx stop q).spill with
    | some p => !p.staged.isEmpty
    | none => decide (s.qLevel stop q ≠ 0))

/-- A push that stores its cell (R105). -/
def State.storeCell (s : State) (stop q op : Nat) (fe : Bool) (tag : Tag) (data : Payload) : State :=
  match (s.mtile stop).takeCell with
  | none => s
  | some (c, m) =>
    let opening := !s.qOpen stop q
    let tail := s.qf stop q 8 16 16
    let m := if s.tailLinks stop q then m.linkTo tail c else m
    let m := m.setSide c { link := 0, tag := 0, sop := opening, eop := decide (op = 1) }
    let s := s.setMt stop m
    let s := if opening then
        ((s.setQf stop q 0xC 0 16 c).setFlag (qReg stop q 0xC) 29).modQx stop q fun x => { x with openTag := tag, preTail := tail }
      else s
    let s := s.setQf stop q 0xC 16 13 (s.qOpenLen stop q + 1)
    let s := (s.setQf stop q 8 16 16 c).portWrite stop c data fe
    if op = 1 then s.commit stop q else s

/-- R106, R107: one more cell would pass `limit`, or the pool is empty. -/
def State.qOver (s : State) (stop q : Nat) : Bool :=
  decide (s.qLimit stop q < s.qLevel stop q + (s.qx stop q).behind false + s.qOpenLen stop q + s.qResv stop q + 1) ||
    (s.mtile stop).poolFree == 0

/-- R107: a push of a cell; `fe` says that it comes from the fetch engine, `op` is 0 PUSH, 1 PUSH_EOP or 2 PUSH_ABORT. -/
def State.pushData (s : State) (stop q : Nat) (fe : Bool) (op : Nat) (tag epoch : Tag) (data : Payload) : State :=
  let s := s.modQx stop q fun x => { x with pushes := x.pushes + 1 }
  if !s.qbit stop q 0 0 then (s.setFlag (qReg stop q 0x18) 2).qCredit stop q 1
  else if s.qbit stop q 0x18 5 then s.qDrop stop q
  else if s.qbit stop q 0 3 != fe then (s.setFlag (qReg stop q 0x18) 2).qDrop stop q
  else if s.qbit stop q 0xC 30 then
    (if op = 0 then s else s.clrFlag (qReg stop q 0xC) 30).qDrop stop q
  else if epoch ≠ s.epochOf stop then s.breakPacket stop q op
  else if s.qOpen stop q && tag != (s.qx stop q).openTag then s.breakPacket stop q op
  else if op ≠ 2 ∧ s.qOpen stop q ∧ s.qOpenLen stop q = 4096 then
    (s.setFlag (qReg stop q 0x18) 3).breakPacket stop q op
  else if op ≠ 2 ∧ s.qOver stop q then
    ((s.setFlag (qReg stop q 0x18) 1).breakPacket stop q op).hazard stop 4 q
  else if op = 2 then
    (if s.qOpen stop q then (s.rewind stop q).qCredit stop q 1 else s.qDrop stop q)
  else if s.tailLinks stop q && (s.mtile stop).sideUe.contains (s.qf stop q 8 16 16) then (s.qFaultIf stop q true).qDrop stop q
  else s.storeCell stop q op fe tag data

/-! ## Pops of a data queue -/

/-- R107, Pop: the head cell leaves the queue. -/
def State.dropHead (s : State) (stop q : Nat) : State :=
  let c := s.qHead stop q
  let e := (s.mtile stop).sideAt c
  let lvl := s.qLevel stop q - 1
  let bad := e.eop && lvl != 0 && (s.mtile stop).sideUe.contains e.link
  let tag := if lvl = 0 ∨ bad then 0 else if e.eop then ((s.mtile stop).sideAt e.link).tag.toNat else s.qf stop q 0x14 16 16
  let free := (s.qx stop q).restored.contains c
  let s := (s.setQf stop q 0x10 0 16 lvl).setQf stop q 0x14 16 16 tag
  let s := s.setQf stop q 8 0 16 (if lvl = 0 then 0 else e.link)
  let s := if e.eop then s.setQf stop q 0x14 0 16 (s.qf stop q 0x14 0 16 - 1) else s
  let s := (s.freeCells stop q [c]).qCredit stop q (if free then 0 else 1)
  (s.modQx stop q fun x => { x with pops := x.pops + 1, restored := x.restored.erase c }).qFaultIf stop q bad

/-- R107, R110: whether a POP or PEEK finds a head cell; the state after a fault that it finds, and the underrun. -/
def State.headReady (s : State) (stop q : Nat) : State × Bool :=
  if !s.qbit stop q 0 0 then (s.setFlag (qReg stop q 0x18) 2, false)
  else
    let s := s.qFaultIf stop q (s.qLevel stop q != 0 && (s.mtile stop).sideUe.contains (s.qHead stop q))
    if s.qbit stop q 0x18 5 || s.qLevel stop q == 0 then
      ((s.setFlag (qReg stop q 0x18) 0).underrun stop q, false)
    else (s, true)

/-- R107: the value and the tag that a pop or peek returns where it meets no head cell. -/
def State.popEmpty (s : State) (stop q : Nat) : Payload × Tag :=
  if s.qbit stop q 0 0 then ((s.qx stop q).last, (s.qx stop q).lastTag) else (0, 0)

/-- R107, Pop, discard packet: all remaining cells of the head packet leave; those that a spill holds in its segment are
not restored. -/
def State.discardPacket (s : State) (stop q : Nat) : State :=
  let m := s.mtile stop
  let w := m.packetFrom (s.qHead stop q) (s.qLevel stop q)
  let cells := w.1
  let ends := cells.any fun c => (m.sideAt c).eop
  let tag := BitVec.ofNat 16 (s.qf stop q 0x14 16 16)
  let v := m.cellData (cells.getLastD 0)
  let s := (cells.foldl (fun s _ => s.dropHead stop q) s).qFaultIf stop q w.2
  let s := if ends then s else s.setQf stop q 0x14 0 16 (s.qf stop q 0x14 0 16 - 1)
  let s := s.modQx stop q fun x => { x with skip := !ends, last := if cells.isEmpty then x.last else v, lastTag := tag }
  s.spillPump stop q

/-! ## Handle queues -/

/-- Distinct cells that hold a queue's handles. -/
def slotCells (l : List Nat) : List Nat := (l.map (· / 8)).eraseDups

/-- R111: where the next handle goes: a place in a cell that the queue holds, or none for a new cell. The queue uses
⌈limit ÷ 8⌉ cells in turn. -/
def nextSlot (x : QX) (limit : Nat) : Option Nat :=
  match x.slots.getLast?, x.slots.head? with
  | some l, some h =>
    if l % 8 < 7 then (if x.slots.contains (l + 1) then none else some (l + 1))
    else if (slotCells x.slots).length < (limit + 7) / 8 then none
    else if x.slots.contains (h / 8 * 8) then none else some (h / 8 * 8)
  | _, _ => none

/-- A payload with `n` bytes from byte `i` replaced. -/
def setPayload (p : Payload) (i n : Nat) (v : BitVec 512) : Payload :=
  let mask : Payload := BitVec.ofNat 512 (2 ^ (8 * n) - 1) <<< (8 * i)
  (p &&& ~~~mask) ||| ((v <<< (8 * i)) &&& mask)

/-- Head and tail of a handle queue as its registers show them. -/
def State.handleEnds (s : State) (stop q : Nat) : State :=
  let x := s.qx stop q
  let s := (s.setQf stop q 8 0 16 (x.slots.headD 0 / 8)).setQf stop q 8 16 16 (x.slots.getLastD 0 / 8)
  s.setQf stop q 0x14 16 16 (if s.qLevel stop q = 0 then 0 else (x.tags.headD 0).toNat)

/-- A handle committed in a handle queue, written through a port or, at load and after CANCEL, directly. The quarters of its
cell that hold it and its tag are merged (R491). -/
def State.storeHandle (s : State) (stop q : Nat) (port : Option Bool) (tag : Tag) (h : Word) : State :=
  let got : Option (Nat × Mt) := match nextSlot (s.qx stop q) (s.qLimit stop q) with
    | some l => some (l, s.mtile stop)
    | none => (s.mtile stop).takeCell.map fun p => (p.1 * 8, p.2.setSide p.1 {})
  match got with
  | none => s
  | some (l, m) =>
    let i := l % 8
    let c := l / 8
    let lo := 2 ^ (i / 2)
    let hi := 2 ^ (i / 4)
    let p := setPayload (setPayload (m.cellData c) (4 * i) 4 (h.setWidth 512)) (32 + 2 * i) 2 (tag.setWidth 512)
    let s := s.setMt stop m
    let s := (s.bankErrors stop (evenBank c) (cellWord c) tag lo).bankErrors stop (evenBank c + 1) (cellWord c) tag hi
    let s := match port with
      | some fe => (s.regionCheck stop c).portPart stop c p fe lo hi
      | none => s.modMt stop fun m => (m.putPart (evenBank c) (cellWord c) (p.extractLsb' 0 256) lo).putPart (evenBank c + 1)
          (cellWord c) (p.extractLsb' 256 256) hi
    let s := s.modQx stop q fun x =>
      { x with slots := x.slots ++ [l], tags := x.tags ++ [tag], filled := if port.isNone then x.filled ++ [l] else x.filled }
    let s := match (s.qx stop q).spill with
      | some sp => (s.modQx stop q fun x =>
          { x with spill := some { sp with staged := sp.staged ++ [({ cell := l / 8, slots := [l] } : SpCell)] } }).spillPump stop q
      | none => (s.setQf stop q 0x10 0 16 (s.qLevel stop q + 1)).setQf stop q 0x14 0 16 (s.qf stop q 0x14 0 16 + 1)
    s.handleEnds stop q

/-- R111, Overflow of a handle push. -/
def State.handleOver (s : State) (stop q : Nat) : Bool :=
  decide (s.qLimit stop q < s.qLevel stop q + (s.qx stop q).behind true + s.qResv stop q + 1) ||
    ((nextSlot (s.qx stop q) (s.qLimit stop q)).isNone && (s.mtile stop).poolFree == 0)

/-- R114: the handle that a free list stores, with the buffer made FREE and its generation advanced. -/
def State.returnHandle (s : State) (stop : Nat) (h : Word) : Option (State × Word) :=
  let b := hBuf h
  if hMt h = mtIndex stop ∧ b ≤ 1023 ∧ hGen h = s.bufGen stop b ∧
      (s.bufState stop b = bufHeld ∨ s.bufState stop b = bufStale) then
    let g := (s.bufGen stop b + 1) % 256
    some ((s.wf (bufHi stop b) 14 2 bufFree).wf (bufHi stop b) 6 8 g, setBits h 16 8 g)
  else none

/-- R111, R114: a push of one handle through MI or FE. With `chk` false, the return of a handle by the host or at the end of a
fill, it passes the port check (R115); `epoch` none: the queue's own. -/
def State.pushHandle (s : State) (stop q : Nat) (chk fe : Bool) (op : Nat) (tag : Tag) (epoch : Option Tag) (h : Word) :
    State :=
  let s := s.modQx stop q fun x => { x with pushes := x.pushes + 1 }
  let wrongPort := chk && s.qbit stop q 0 3 != fe
  let wrongEpoch := match epoch with
    | some e => e != s.epochOf stop
    | none => false
  if !s.qbit stop q 0 0 then (s.setFlag (qReg stop q 0x18) 2).qCredit stop q 1
  else if s.qbit stop q 0x18 5 then s.qDrop stop q
  else if wrongPort then (s.setFlag (qReg stop q 0x18) 2).qDrop stop q
  else if wrongEpoch then s.qDrop stop q
  else if op ≠ 2 ∧ s.handleOver stop q then ((s.setFlag (qReg stop q 0x18) 1).qDrop stop q).hazard stop 4 q
  else if op = 2 then s.qDrop stop q
  else if (nextSlot (s.qx stop q) (s.qLimit stop q)).isNone && (s.qx stop q).slots.getLast?.any fun l => (s.mtile stop).sideUe.contains (l / 8) then
    (s.qFaultIf stop q true).qDrop stop q
  else if s.qbit stop q 0 2 then
    match s.returnHandle stop h with
    | some (s, h) => s.storeHandle stop q (some fe) tag h
    | none => (s.setFlag (qReg stop q 0x18) 4).qDrop stop q
  else s.storeHandle stop q (some fe) tag h

/-- R109, R113, R246: a handle whose pop returns a credit. -/
def QX.pays (x : QX) (l : Nat) : Bool := !x.restored.contains l && !x.filled.contains l

/-- R111: the head handle leaves its queue. -/
def State.dropHandle (s : State) (stop q : Nat) : State :=
  let x := s.qx stop q
  let l := x.slots.headD 0
  let left := x.slots.drop 1
  let s := (s.setQf stop q 0x10 0 16 (s.qLevel stop q - 1)).setQf stop q 0x14 0 16 (s.qf stop q 0x14 0 16 - 1)
  let s := s.modQx stop q fun x =>
    { x with slots := left, tags := x.tags.drop 1, pops := x.pops + 1, restored := x.restored.erase l, filled := x.filled.erase l }
  let bad := match left with
    | n :: _ => s.qLevel stop q != 0 && n / 8 != l / 8 && (s.mtile stop).sideUe.contains (n / 8)
    | [] => false
  let s := if (slotCells left).contains (l / 8) then s else s.freeCells stop q [l / 8]
  (((s.qCredit stop q (if x.pays l then 1 else 0)).handleEnds stop q).spillPump stop q).qFaultIf stop q bad

/-- R190: a push into the index of an enabled ring writer is the writer's; another goes to the queue, of either kind. -/
def State.pushAny (s : State) (stop q : Nat) (fe : Bool) (op : Nat) (tag epoch : Tag) (data : Payload) : State :=
  match s.writerOf stop q with
  | some k => s.writerTake stop k op tag epoch data
  | none =>
    if s.qIsHandle stop q then s.pushHandle stop q true fe op tag (some epoch) (data.setWidth 32)
    else s.pushData stop q fe op tag epoch data

end Sys2Proof.Machine
end

