-- ==== Sys2Proof/Machine/Expander.lean ====
section
/-! DEFINITION. The im2col expander (R196 to R199) and the operations of a memory tile's schedule (R170 to R177) but
FETCH and SHALT. -/

namespace Sys2Proof.Machine

/-- Latencies of a memory tile with their padding (R226, R227): EXPAND, the sends, HPOP, HRET. -/
def State.mtLat (s : State) (stop base field : Nat) : Nat := base + s.rf (reg stop 0xD400) (4 * field) 4

/-- An expander descriptor (R206). -/
structure XDesc where
  rbase : Nat
  rc : Nat
  zp : Byte
  w : Nat
  xoff : Int
  sx : Nat
  en : Bool
  deriving DecidableEq, Repr

def State.xdesc (s : State) (stop n : Nat) : XDesc :=
  let a := s.rd (reg stop (0x3000 + 8 * n))
  let b := s.rd (reg stop (0x3004 + 8 * n))
  { rbase := bitsOf a 0 15, rc := bitsOf a 15 7, zp := a.extractLsb' 24 8, w := bitsOf b 0 13, xoff := int8 (bitsOf b 13 8),
    sx := bitsOf b 21 2, en := bitOf b 31 }

/-- R171, R199: the descriptor can step. -/
def XDesc.ok (d : XDesc) : Bool := d.en && d.sx != 3 && d.rc != 0 && d.w != 0 && decide (d.w ≤ 64 * d.rc)

def XDesc.npos (d : XDesc) : Nat := 64 / 2 ^ d.sx

/-- R196: the window byte that each position takes, none where it is padded. -/
def XDesc.window (d : XDesc) (af : Nat) : List (Option Nat) :=
  let fl := d.xoff / 64
  let o := (d.xoff - 64 * fl).toNat
  let b := (((af : Int) - d.rbase) % (d.rc : Int)).toNat
  (List.range d.npos).map fun p =>
    let xs : Int := 64 * b + d.xoff + ((p * 2 ^ d.sx : Nat) : Int)
    if xs < 0 ∨ (d.w : Int) ≤ xs then none else some (o + p * 2 ^ d.sx)

/-- R196: the first window cell. -/
def XDesc.cell0 (d : XDesc) (af : Nat) : Nat := (((af : Int) + d.xoff / 64) % (cellsPerTile : Int)).toNat

/-- R207: the K-rows of a block. -/
def State.nrows (s : State) (stop : Nat) : Nat :=
  let n := s.rf (reg stop 0x3080) 0 7
  if n = 0 ∨ n > 64 then 64 else n

/-- R197: the pointers after a step of `npos` positions: row, column, and whether the block is complete. -/
def nextPos (nrows npos row col : Nat) : Nat × Nat × Bool :=
  let wrapRow := row + 1 = nrows
  let row1 := if wrapRow then 0 else row + 1
  let col1 := if wrapRow then col + npos else col
  if col1 ≥ 64 then (row1, 0, true) else (row1, col1, false)

/-- R197, R207: the expansion slot after another. -/
def State.slotAfter (s : State) (stop slot : Nat) : Nat := if slot = s.rf (reg stop 0x3080) 24 4 then 0 else slot + 1

/-- R197: a flush of a completed block, and the slot that will be next when it comes to write. -/
def State.addFlush (s : State) (stop buf tcl : Nat) : State :=
  let f : Flush := match (s.mtile stop).flushes.getLast? with
    | some f => { buf := buf, tcl := tcl, start := max (tcl + 1) (f.start + 64), keep := true, slot := if f.keep then s.slotAfter stop f.slot else 0 }
    | none => { buf := buf, tcl := tcl, start := tcl + 1, keep := true, slot := s.rf (reg stop 0x3084) 16 4 }
  s.modMt stop fun m => { m with flushes := m.flushes ++ [f] }

/-- EXPAND in tile cycle c (R171, R196, R197). -/
def State.opExpand (s : State) (stop w c : Nat) : State :=
  let d := s.xdesc stop (osel w 20 4)
  if !d.ok then s.setFlag (reg stop 0x0224) 2
  else
    let af := s.afAddr stop (osel w 15 5)
    let win := d.window af
    let lanes := (win.filterMap fun x => x.map (· / 32)).eraseDups
    let cell (k : Nat) : Nat := (d.cell0 af + k / 2) % cellsPerTile
    let st := reg stop 0x3084
    let row := s.rf st 0 6
    let col := s.rf st 8 6
    let buf := s.rf st 14 1
    let s := lanes.foldl (fun s k => s.regionCheck stop (cell k)) s
    let s := (lanes.filterMap fun k => s.unpublished stop (cell k)).eraseDups.foldl (fun s k => s.hazard stop 11 k) s
    let lam := s.mtLat stop 4 0
    let rd : ExRead :=
      { lanes := lanes.map (fun k => (k, evenBank (cell k) + k % 2, cellWord (cell k)))
        pos := win.map (fun x => x.map fun b => (b / 32, b % 32))
        zp := d.zp, buf := buf, row := row, col := col, land := c + lam, tag := (s.mtile stop).curTag }
    let (r1, c1, full) := nextPos (s.nrows stop) d.npos row col
    let s := s.modMt stop fun m =>
      { m with cy := { m.cy with ex := some rd }, xread := if full then [] else (m.xread ++ lanes.map cell).eraseDups }
    let s := (s.wf st 0 6 r1).wf st 8 6 c1
    if full then (s.wf st 14 1 (1 - buf)).addFlush stop buf (c + lam) else s

/-- R198: a segment that lands in a buffer whose flush has not finished. -/
def Mt.lateStep (m : Mt) (x : XStep) : Bool :=
  m.flushes.any fun f => f.buf == x.buf && decide (f.tcl < x.land) && decide (x.land < f.start + 64)

/-- The landing of a segment in the transpose buffer (R196 to R198). -/
def State.landStep (s : State) (stop : Nat) (x : XStep) : State :=
  if x.seg.isEmpty then s
  else if (s.mtile stop).lateStep x then
    let s := (s.setFlag (reg stop 0x3088) 0).count (reg stop 0x308C) 0 16
    (s.notice stop .error (s.pipeOf stop) (some (s.mtile stop).curTag)).hazard stop 12 x.buf
  else
    s.modMt stop fun m => { m with xb := putBytes m.xb (x.buf * 4096 + x.row * 64 + x.col) (x.seg.take (64 - x.col)) }

/-- R197: the cell that write v of a flush goes to. -/
def State.flushTo (s : State) (stop : Nat) (f : Flush) (v : Nat) : Nat :=
  (s.rf (reg stop 0x3080) 8 15 + 64 * f.slot + v) % cellsPerTile

/-- R197: byte r of a flushed cell is buffer row r, column v. -/
def Mt.flushData (m : Mt) (f : Flush) (v : Nat) : Payload :=
  payloadOf ((List.range 64).map fun r => tget 0 m.xb (f.buf * 4096 + r * 64 + v))

/-- R199: the region check of a flush write. -/
def State.flushRegion (s : State) (stop cell : Nat) : State :=
  if s.regionKind stop cell = 4 then s else s.setFlag (reg stop 0x0200) 5

/-- R197: the end of a flush: the buffer reads as zeros and the slot pointer advances. -/
def State.flushEnd (s : State) (stop : Nat) (f : Flush) : State :=
  (s.wf (reg stop 0x3084) 16 4 (if f.keep then s.slotAfter stop f.slot else 0)).modMt stop fun m =>
    { m with xb := m.xb.filter (fun e => e.1 / 4096 != f.buf), flushes := m.flushes.filter fun g => g.tcl != f.tcl }

/-- R194, R197: what a flush does in tile cycle c: write v takes MI in the cycle of `start` + v. -/
def State.flushCycle (s : State) (stop c : Nat) (f : Flush) : State :=
  if c < f.start then s
  else
    let v := c - f.start
    let cell := s.flushTo stop f v
    let s := (s.flushRegion stop cell).portPart stop cell ((s.mtile stop).flushData f v) false 15 15
    if 63 ≤ v then s.flushEnd stop f else s

/-- EXPANDER_FLUSH: the flush under way, or due in the next tile cycle, ends: the cells that the tile cycles have not written yet
are written, each as if its cycle had granted MI (log 24). A frozen tile flushes nothing (R146). -/
def State.flushDue (s : State) (stop : Nat) : State :=
  match (s.mtile stop).flushes.head? with
  | some f =>
    let c := s.cycOf stop
    if s.schState stop = schWait ∨ c + 1 < f.start then s
    else ((List.range (f.start + 63 - c)).foldl (fun s i =>
      let v := 63 - i
      let cell := s.flushTo stop f v
      (s.flushRegion stop cell).modMt stop fun m => m.putCell cell (m.flushData f v)) s).flushEnd stop f
  | none => s

/-- R197: the return of the pointers at load, at `go` and at a change of epoch. -/
def State.expanderReturn (s : State) (stop : Nat) : State :=
  let st := reg stop 0x3084
  let buf := s.rf st 14 1
  let busy := !(s.mtile stop).flushes.isEmpty
  let s := ((s.wf st 0 6 0).wf st 8 6 0).wf st 14 1 0
  let s := if busy then s else s.wf st 16 4 0
  s.modMt stop fun m =>
    { m with xb := if m.flushes.any (fun f => f.buf == buf) then m.xb else m.xb.filter (fun e => e.1 / 4096 != buf)
             steps := [], xread := [], flushes := m.flushes.map (fun f => { f with keep := false })
             cy := { m.cy with ex := m.cy.ex.map fun e => { e with pos := [] } } }

/-! ## Queue and send operations -/

def Mt.addMo (m : Mt) (r : MoRead) : Mt := { m with cy := { m.cy with mo := m.cy.mo ++ [r] } }

/-- HPOP in tile cycle c (R173). -/
def State.opHpop (s : State) (stop w c : Nat) : State :=
  let q := osel w 18 6
  let cr := osel w 13 5
  let at_ := c + s.mtLat stop 3 2
  let h := s.headReady stop q
  if h.2 then
    let x := h.1.qx stop q
    let l := x.slots.headD 0
    let tag := x.tags.headD 0
    (h.1.dropHandle stop q).modMt stop fun m =>
      { m.addMo { cell := l / 8, lo := true, hi := false, tag := tag, use := .handle at_ cr (32 * (l % 8)) tag q } with curTag := tag }
  else
    let v := h.1.popEmpty stop q
    h.1.modMt stop fun m => { m with ctxw := m.ctxw ++ [(at_, cr, v.1.setWidth 32, v.2.setWidth 32)] }

/-- HRET in tile cycle c (R174): the push is applied after its latency. -/
def State.opHret (s : State) (stop w c : Nat) : State :=
  let cr := osel w 13 5
  s.modMt stop fun m =>
    { m with hrets := m.hrets ++ [(c + s.mtLat stop 2 3, osel w 18 6, s.ctx stop cr, (s.ctx stop ((cr + 1) % 32)).setWidth 16)] }

/-- The push of an HRET, which takes MI unless a flush write has it (R174, R194). -/
def State.hretPush (s : State) (stop q : Nat) (h : Word) (tag : Tag) : State :=
  if (s.mtile stop).cy.mi then s.setFlag (reg stop 0x3088) 2
  else
    let s := s.modMt stop fun m => { m with cy := { m.cy with mi := true } }
    if s.qIsHandle stop q && (s.writerOf stop q).isNone then s.pushHandle stop q true false 0 tag none h
    else s.pushAny stop q false 1 tag (s.epochOf stop) (h.setWidth 512)

/-- SENDQ in tile cycle c (R175). -/
def State.opSendq (s : State) (stop w c : Nat) : State :=
  let q := osel w 18 6
  let rt := osel w 14 4
  let ptype := osel w 12 2
  let ready := c + s.mtLat stop 3 1
  if osel w 10 1 = 1 then
    if !s.qbit stop q 0 0 then s.setFlag (qReg stop q 0x18) 2
    else if s.qbit stop q 0x18 5 || s.qf stop q 0x14 0 16 == 0 then (s.setFlag (qReg stop q 0x18) 0).underrun stop q
    else s.discardPacket stop q
  else
    let h := s.headReady stop q
    let s := h.1
    if h.2 then
      let cell := s.qHead stop q
      let tag : Tag := BitVec.ofNat 16 (s.qf stop q 0x14 16 16)
      let op := ptypeOp ptype ((s.mtile stop).sideAt cell).eop
      let pop := osel w 11 1 = 0
      let r : MoRead := { cell := cell, lo := true, hi := true, tag := tag,
                          use := .send ready rt op tag (s.epochOf stop) (if pop then some q else none) }
      let s := s.modMt stop fun m => { m.addMo r with curTag := tag }
      if pop then (s.dropHead stop q).spillPump stop q else s
    else
      let v := s.popEmpty stop q
      s.sendFlit stop rt (ptypeOp ptype false) v.2 (s.epochOf stop) v.1 ready

/-- Hazard 12 of R231: the cell is of an expansion slot whose flush has not written it by tile cycle c. -/
def State.unwrittenCell (s : State) (stop cell c : Nat) : Bool :=
  let base := s.rf (reg stop 0x3080) 8 15
  (s.mtile stop).flushes.any fun f =>
    let v := cell - (base + 64 * f.slot)
    decide (base + 64 * f.slot ≤ cell) && decide (v < 64) && decide (c ≤ f.start + v)

/-- SENDA in tile cycle c (R176). -/
def State.opSenda (s : State) (stop w c : Nat) : State :=
  let cell := s.afAddr stop (osel w 19 5) % cellsPerTile
  let tag : Tag := (s.ctx stop (osel w 8 5)).setWidth 16
  let s := s.regionCheck stop cell
  let s := if s.unwrittenCell stop cell c then s.hazard stop 12 cell else s
  let r : MoRead := { cell := cell, lo := true, hi := true, tag := tag,
                      use := .send (c + s.mtLat stop 3 1) (osel w 15 4) (osel w 13 2) tag (s.epochOf stop) none }
  s.modMt stop fun m => { m.addMo r with curTag := tag }

/-- SENDB in tile cycle c (R177). -/
def State.opSendb (s : State) (stop w c : Nat) : State :=
  let cr := osel w 19 5
  let h := s.ctx stop cr
  let tag : Tag := (s.ctx stop ((cr + 1) % 32)).setWidth 16
  let o := s.afAddr stop (osel w 14 5)
  let ready := c + s.mtLat stop 3 1
  let s := s.modMt stop fun m => { m with curTag := tag }
  let n := s.bufCells stop (hBuf h)
  let op := ptypeOp (osel w 8 2) (decide (o + 1 = n))
  if !s.handleOk stop h then (s.staleHandle stop tag).sendFlit stop (osel w 10 4) op tag (s.epochOf stop) 0 ready
  else if n ≤ o then (s.beyondBuffer stop).sendFlit stop (osel w 10 4) op tag (s.epochOf stop) 0 ready
  else
    let cell := (s.rf (bufLo stop (hBuf h)) 0 15 + o) % cellsPerTile
    let s := s.regionCheck stop cell
    s.modMt stop fun m => m.addMo { cell := cell, lo := true, hi := true, tag := tag,
                                    use := .send ready (osel w 10 4) op tag (s.epochOf stop) none }

/-- Handle writes into context registers that are due at the end of tile cycle c (R142, R173). -/
def State.mtCtxDue (s : State) (stop c : Nat) : State × List (Nat × Word) :=
  let due := (s.mtile stop).ctxw.filter fun x => decide (x.1 ≤ c)
  (s.modMt stop fun m => { m with ctxw := m.ctxw.filter fun x => !decide (x.1 ≤ c) },
   due.flatMap fun x => [(x.2.1, x.2.2.1), (x.2.1 + 1, x.2.2.2)])

end Sys2Proof.Machine
end

