-- ==== Sys2Proof/Machine/Streams.lean ====
section
/-! DEFINITION. Streams: descriptors and their elements (R116 to R120), the fetch engine (R121, R122), admission at the
HBM ports and the regulator (R123, R124), the return of reads (R115, R119, R126). -/

namespace Sys2Proof.Machine

/-- R307: a register of camera c. -/
def camReg (c off : Nat) : Nat := 0x00400000 + 0x100 * c + off

/-- A stream descriptor (R117). -/
structure Desc where
  base : Nat
  esize : Nat
  ndim : Nat
  pad : Nat
  padValue : Byte
  epoch : Tag
  drain : Nat
  dstQ : Nat
  toBuf : Bool
  freeQ : Nat
  pktDim : Nat
  tagBase : Tag
  counts : List Nat
  strides : List Int
  off0 : Int
  lim0 : Nat
  off1 : Int
  lim1 : Nat
  deriving DecidableEq, Repr

def signed (bits v : Nat) : Int := if v ≥ 2 ^ (bits - 1) then (v : Int) - 2 ^ bits else v

def State.sdesc (s : State) (stop slot : Nat) : Desc :=
  let raw : BitVec 512 := (List.range 16).foldl (fun (b : BitVec 512) w =>
    b ||| ((s.rd (reg stop (0x2000 + 0x40 * slot + 4 * w))).setWidth 512 <<< (32 * w))) 0
  let f (lo n : Nat) : Nat := (raw.extractLsb' lo n).toNat
  let nd := f 50 3
  { base := f 0 48, esize := [1, 2, 4, 64].getD (f 48 2) 1, ndim := nd, pad := f 53 3, padValue := raw.extractLsb' 56 8,
    epoch := raw.extractLsb' 64 16, drain := f 80 16, dstQ := f 96 6, toBuf := f 102 1 == 1, freeQ := f 103 6,
    pktDim := f 109 3, tagBase := raw.extractLsb' 112 16,
    counts := (List.range 6).map fun k => if k < nd then f (128 + 52 * k) 20 else 1
    strides := (List.range 6).map fun k => if k < nd then signed 32 (f (148 + 52 * k) 32) else 0
    off0 := signed 12 (f 440 12), lim0 := f 452 20, off1 := signed 12 (f 472 12), lim1 := f 484 20 }

/-- Elements of the stream, elements of a packet and cells of a packet (R118, R119). -/
def Desc.total (d : Desc) : Nat := d.counts.foldl (· * ·) 1
def Desc.perPacket (d : Desc) : Nat := (d.counts.take (d.pktDim + 1)).foldl (· * ·) 1
def Desc.perCell (d : Desc) : Nat := 64 / d.esize
def Desc.pktCells (d : Desc) : Nat := (d.perPacket * d.esize + 63) / 64

/-- R118: the address of element e, none where it is padded. -/
def Desc.addr (d : Desc) (e : Nat) : Option Int :=
  let idx := (d.counts.foldl (fun (p : List Int × Nat) n => (p.1 ++ [((p.2 % n : Nat) : Int)], p.2 / n)) ([], e)).1
  let two := d.ndim ≥ 2
  let i0 := idx.getD 0 0
  let i1 := idx.getD 1 0
  let c0 := if d.pad ≠ 0 then i0 + d.off0 else i0
  let c1 := if d.pad ≠ 0 ∧ two then i1 + d.off1 else i1
  let out (c : Int) (l : Nat) : Bool := decide (c < 0) || decide ((l : Int) ≤ c)
  let padded := d.pad == 1 && (out c0 d.lim0 || (two && out c1 d.lim1))
  let clampTo (c : Int) (l : Nat) : Int := if c < 0 then 0 else if (l : Int) ≤ c then (l : Int) - 1 else c
  let c0 := if d.pad = 2 then clampTo c0 d.lim0 else c0
  let c1 := if d.pad = 2 ∧ two then clampTo c1 d.lim1 else c1
  let cs := c0 :: c1 :: idx.drop 2
  if padded then none
  else some ((cs.zip d.strides).foldl (fun a p => a + p.1 * p.2) (d.base : Int))

def hbmEnd : Nat := 0xC00000000

/-- R120, code 4. -/
def addrBad (a : Int) : Bool := decide (a < 0) || decide ((hbmEnd : Int) ≤ a)

/-- R120: the checks made when a slot starts: codes 1, 2, 3 and 5, 0 for none. -/
def Desc.check (d : Desc) : Nat :=
  let used := (List.range 6).filter fun k => decide (k < d.ndim)
  if d.base % d.esize ≠ 0 ∨ used.any (fun k => d.strides.getD k 0 % (d.esize : Int) != 0) then 1
  else if d.ndim = 0 ∨ 6 < d.ndim ∨ used.any (fun k => d.counts.getD k 0 == 0) then 2
  else if 3 ≤ d.pad ∨ (d.pad ≠ 0 ∧ (d.lim0 = 0 ∨ (2 ≤ d.ndim ∧ d.lim1 = 0))) then 3
  else if d.ndim ≤ d.pktDim ∨ 4096 < d.pktCells then 5
  else 0

/-! ## Crops of the frame store -/

def up4k (n : Nat) : Nat := (n + 4095) / 4096 * 4096

/-- R300: the frame-store ring of an enabled camera whose slots hold an address: its base, its slots, the slot. -/
def State.slotAt (s : State) (a : Nat) : Option (Nat × Nat × Nat) :=
  (List.range 32).findSome? fun c =>
    let base := 4096 * s.rf (camReg c 8) 0 24
    let n := s.rf (camReg c 0xC) 0 16
    let first := base + up4k (64 + 64 * n)
    let z := up4k (s.rf (camReg c 4) 0 15 * (64 * s.rf (camReg c 0xC) 16 16))
    if s.flag (camReg c 0) 0 && decide (first ≤ a) && decide (a < first + n * z) then some (base, n, (a - first) / z) else none

/-- R301: `wseq` of a ring. -/
def State.wseq (s : State) (base : Nat) : Word := BitVec.ofNat 32 (leNat (s.hbmGet base 4))

/-- R14, R303: at its start a stream that reads a slot of a ring reads `wseq`: the ring, its slots and the slot's frame. -/
def State.cropStart (s : State) (base : Nat) : Option (Nat × Nat × Nat) :=
  match s.slotAt base with
  | some (ring, n, k) =>
    let w := (s.wseq ring).toNat
    if w = 0xFFFFFFFF then none else some (ring, n, w - (w + n - k) % n)
  | none => none

/-- R14, R303: after its last read it reads `wseq` again; a frame whose slot may have been reused is notified. -/
def State.cropEnd (s : State) (stop slot : Nat) : State :=
  match (tget {} (s.mtile stop).strm slot).crop with
  | some (ring, n, f) =>
    if (s.wseq ring - BitVec.ofNat 32 f).toNat < n then s
    else s.notice stop .overwrite (s.pipeOf stop) (some (s.sdesc stop slot).tagBase)
  | none => s

def sstat (stop slot : Nat) : Nat := reg stop (0x2404 + 16 * slot)

def State.strm (s : State) (stop slot : Nat) : Strm := tget {} (s.mtile stop).strm slot
def State.setStrm (s : State) (stop slot : Nat) (x : Strm) : State := s.modMt stop fun m => { m with strm := tput {} m.strm slot x }

/-- Global stream number (R116). -/
def streamNo (stop slot : Nat) : Nat := mtIndex stop * 16 + slot

/-- R120: a fault of a slot. -/
def State.streamFault (s : State) (stop slot code : Nat) : State :=
  let s := ((s.setFlag (sstat stop slot) 2).wf (sstat stop slot) 3 3 code).setFlag (reg stop 0x0200) 4
  s.event 5 stop (streamNo stop slot + code * 65536) (some (s.pipeOf stop))

/-- R172: FETCH, or a host write of `start`. -/
def State.startStream (s : State) (stop slot : Nat) : State :=
  let d := s.sdesc stop slot
  if s.flag (sstat stop slot) 0 then s.setFlag (reg stop 0x0224) 0
  else if d.epoch ≠ s.epochOf stop then s.setFlag (reg stop 0x0224) 1
  else if d.check ≠ 0 then s.streamFault stop slot d.check
  else (s.setFlag (sstat stop slot) 0).setStrm stop slot { crop := s.cropStart d.base }

/-- Releases cells that a slot has reserved in its data queue (R121, R126). -/
def State.releaseResv (s : State) (stop slot n : Nat) : State :=
  let d := s.sdesc stop slot
  let x := s.strm stop slot
  let s := s.setStrm stop slot { x with resv := x.resv - n }
  if d.toBuf then s else s.setQf stop d.dstQ 0x10 16 16 (s.qResv stop d.dstQ - n)

/-- A handle that the engine gives back to the free list of its slot, through FE; it meets R114 alone (R115). -/
def State.giveBack (s : State) (stop freeQ : Nat) (h : Word) (tag : Tag) : State := s.pushHandle stop freeQ false true 1 tag none h

/-! ## Pushing what has arrived -/

/-- The bytes of cell i of packet j, if every element of it has arrived (R119). -/
def Desc.cellBytes (d : Desc) (data : Tbl (List Byte)) (j i : Nat) : Option (List Byte) :=
  let first := j * d.perPacket + i * d.perCell
  let n := min d.perCell (d.perPacket - i * d.perCell)
  let parts := (List.range n).map fun e => tget [] data (first + e)
  if parts.any (·.isEmpty) then none else some (let bs := parts.flatten; bs ++ List.replicate (64 - bs.length) 0)

/-- R115: a cell of a fill: written into the buffer that the handle names. -/
def State.fillCell (s : State) (stop slot : Nat) (d : Desc) (h : Word) (i : Nat) (tag : Tag) (p : Payload) : State :=
  let x := s.strm stop slot
  let b := hBuf h
  let cell := (s.rf (bufLo stop b) 0 15 + i) % cellsPerTile
  if x.fillStale then s.portWrite stop cell p true
  else if !s.handleOk stop h then s.staleHandle stop tag
  else if s.bufCells stop b ≤ i then s.beyondBuffer stop
  else
    let s := (s.wf (bufHi stop b) 16 16 d.epoch.toNat).portWrite stop cell p true
    if d.epoch = s.epochOf stop then s
    else ((s.wf (bufHi stop b) 14 2 bufStale).count (reg stop 0x0220) 16 16).setStrm stop slot { x with fillStale := true }

/-- What a slot does next at the FE port (R97, R119, R120): nothing; the end of a stream with every packet pushed; the push of
a finished fill's handle; of a complete cell; in a slot that stops, with no read in flight: the abort of an open packet, the
return of a handle, the end. -/
inductive FeStep where
  | idle | done | handle | cell (bytes : List Byte) | abort | giveBack | stop
  deriving DecidableEq, Repr

/-- The step is a push, and takes FE. -/
def FeStep.pushes : FeStep → Bool
  | .handle | .cell _ | .abort | .giveBack => true
  | .idle | .done | .stop => false

/-- R190, R193: a push of the slot finds a place, where it goes to a ring writer. -/
def State.dstTakes (s : State) (stop : Nat) (d : Desc) : Bool :=
  d.toBuf || (s.writerOf stop d.dstQ).all fun k => s.writerTakes stop k

def State.feNext (s : State) (stop slot : Nat) : FeStep :=
  let d := s.sdesc stop slot
  let x := s.strm stop slot
  if !s.flag (sstat stop slot) 0 then .idle
  else if d.total ≤ x.pkt * d.perPacket then .done
  else if d.toBuf && x.cell == d.pktCells then .handle
  else match d.cellBytes x.data x.pkt x.cell with
    | some bs => if s.dstTakes stop d then .cell bs else .idle
    | none =>
      if x.stopping = 0 ∨ s.rf (sstat stop slot) 8 8 ≠ 0 then .idle
      else if !d.toBuf && x.cell != 0 && x.stopping != 3 then (if s.dstTakes stop d then .abort else .idle)
      else if !x.handles.isEmpty then .giveBack
      else .stop

/-- A packet of a slot is complete: its elements and its handle go. -/
def State.nextPacket (s : State) (stop slot : Nat) (d : Desc) : State :=
  let x := s.strm stop slot
  let lo := (x.pkt + 1) * d.perPacket
  (s.wrap (sstat stop slot) 16 16).setStrm stop slot
    { x with cell := 0, pkt := x.pkt + 1, handles := x.handles.drop 1, fillStale := false
             data := x.data.filter fun e => decide (lo ≤ e.1) }

/-- The push of one complete cell through FE (R119); the handle of a fill follows in a push of its own. -/
def State.pushCell (s : State) (stop slot : Nat) (d : Desc) (p : Payload) : State :=
  let x := s.strm stop slot
  let tag := d.tagBase + BitVec.ofNat 16 x.pkt
  let last := x.cell + 1 = d.pktCells
  let s := s.releaseResv stop slot 1
  let s := if d.toBuf then s.fillCell stop slot d (x.handles.headD 0) x.cell tag p
    else s.pushAny stop d.dstQ true (if last then 1 else 0) tag d.epoch p
  if last ∧ !d.toBuf then s.nextPacket stop slot d else s.setStrm stop slot { s.strm stop slot with cell := x.cell + 1 }

/-- One step of a slot at FE. -/
def State.feStep (s : State) (stop slot : Nat) (k : FeStep) : State :=
  let d := s.sdesc stop slot
  let x := s.strm stop slot
  let tag := d.tagBase + BitVec.ofNat 16 x.pkt
  let h := x.handles.headD 0
  let s := if k.pushes then s.modMt stop fun m => { m with cy := { m.cy with fe := true } } else s
  match k with
  | .idle => s
  | .done => (((s.cropEnd stop slot).setFlag (sstat stop slot) 1).clrFlag (sstat stop slot) 0).setStrm stop slot {}
  | .handle =>
    (if x.fillStale then s.giveBack stop d.freeQ h tag
     else s.pushHandle stop d.dstQ true true 1 tag (some d.epoch) h).nextPacket stop slot d
  | .cell bs => s.pushCell stop slot d (payloadOf bs)
  | .abort => (s.pushAny stop d.dstQ true 2 tag d.epoch 0).setStrm stop slot { x with cell := 0 }
  | .giveBack => (s.giveBack stop d.freeQ h tag).setStrm stop slot { x with handles := x.handles.drop 1 }
  | .stop => (((s.cropEnd stop slot).releaseResv stop slot x.resv).clrFlag (sstat stop slot) 0).setStrm stop slot {}

/-- R97: the fetch engine's steps in the tile cycle under way, at most `n`: one push, of the lowest slot that has one (log 24). -/
def State.fePump (s : State) (stop : Nat) : Nat → State
  | 0 => s
  | n + 1 =>
    let may (k : Nat) : Bool :=
      let e := s.feNext stop k
      e != .idle && !(e.pushes && (s.mtile stop).cy.fe)
    match (List.range 16).find? may with
    | some k => (s.feStep stop k (s.feNext stop k)).fePump stop n
    | none => s

/-- Every slot ends at most once and pushes at most once in a tile cycle. -/
def State.feRun (s : State) (stop : Nat) : State := s.fePump stop 33

/-- A slot that is to stop ends once no read of it is in flight and what it holds has gone (R120, R126, R172). -/
def State.stopStream (s : State) (stop slot why : Nat) : State :=
  if !s.flag (sstat stop slot) 0 then s
  else
    let x := s.strm stop slot
    (s.setStrm stop slot { x with stopping := if x.stopping = 0 then why else x.stopping }).feRun stop

/-- R172: SHALT, or a host write of `halt`. -/
def State.haltStream (s : State) (stop slot : Nat) : State := s.stopStream stop slot 2

/-! ## Reserving and issuing -/

/-- R118: elements from `e` on, at most `n`, that are padded. -/
def Desc.padRun (d : Desc) (e : Nat) : Nat → Nat
  | 0 => 0
  | n + 1 => if (d.addr e).isNone then d.padRun (e + 1) n + 1 else 0

/-- R118: padded elements next in turn are at hand without a read. -/
def State.takePads (s : State) (stop slot : Nat) : State :=
  let d := s.sdesc stop slot
  let x := s.strm stop slot
  let n := d.padRun x.next (x.resvEnd - x.next)
  if n = 0 then s
  else
    let fill := (List.range n).map fun i => (x.next + i, List.replicate d.esize d.padValue)
    (s.setStrm stop slot { x with next := x.next + n, data := tputAll [] x.data fill }).feRun stop

/-- R121: the slot reserves its next packet. A handle is popped through MO, which the engine takes in a tile cycle that leaves it
idle (log 24). -/
def State.reserve (s : State) (stop slot : Nat) : State :=
  let d := s.sdesc stop slot
  let x := s.strm stop slot
  if !s.flag (sstat stop slot) 0 || d.epoch != s.epochOf stop || x.stopping != 0 || x.popping || decide (x.next < x.resvEnd) ||
      decide (d.total ≤ x.next) then s
  else
    let c := d.pktCells
    if d.toBuf then
      let q := d.freeQ
      if !(s.mtile stop).cy.mo.isEmpty || s.qLevel stop q == 0 || !s.qbit stop q 0 0 || s.qbit stop q 0x18 5 then s
      else
        let h := s.headReady stop q
        if !h.2 then h.1
        else
          let l := (s.qx stop q).slots.headD 0
          let tag := (s.qx stop q).tags.headD 0
          let s := (h.1.dropHandle stop q).setStrm stop slot { x with popping := true }
          s.modMt stop fun m => { m with cy := { m.cy with mo := m.cy.mo ++
            [{ cell := l / 8, lo := true, hi := false, tag := tag, use := .engine slot (32 * (l % 8)) tag q }] } }
    else
      let q := d.dstQ
      if s.qLevel stop q + (s.qx stop q).behind false + s.qOpenLen stop q + s.qResv stop q + c ≤ s.qLimit stop q then
        ((s.setQf stop q 0x10 16 16 (s.qResv stop q + c)).setStrm stop slot
          { x with resvEnd := x.next + d.perPacket, resv := x.resv + c }).takePads stop slot
      else s

/-- R114, R120, R121: the handle that the engine has popped names the packet's buffer; a slot that has stopped meanwhile gives
it back. -/
def State.engineHandle (s : State) (stop slot q : Nat) (tag : Tag) (h : Word) : State :=
  let d := s.sdesc stop slot
  let x := s.strm stop slot
  let s := s.modQx stop q fun y => { y with last := h.setWidth 512, lastTag := tag }
  let s := if s.qbit stop q 0 2 then s.holdBuf stop h else s
  if !x.popping then s.giveBack stop q h tag
  else
    let c := d.pktCells
    let s := s.setStrm stop slot
      { x with popping := false, resvEnd := x.next + d.perPacket, resv := x.resv + c, handles := x.handles ++ [h] }
    if hMt h = mtIndex stop ∧ hBuf h ≤ 1023 ∧ s.bufCells stop (hBuf h) < c then
      (s.streamFault stop slot 6).stopStream stop slot 1
    else s.takePads stop slot

/-- R122: the key of a slot. -/
def streamKey (level drain : Nat) : Nat := if drain = 0 then 0xFFFFFF else min 0xFFFFFF (level * 4096 / drain)

def State.slotKey (s : State) (stop slot : Nat) : Nat :=
  let d := s.sdesc stop slot
  let r := (s.strm stop slot).resv
  streamKey (if d.toBuf then s.qLevel stop d.dstQ * d.pktCells + r else s.qLevel stop d.dstQ + r) d.drain

/-- R122: a slot has a reserved packet with reads still to issue. -/
def State.slotReady (s : State) (stop slot : Nat) : Bool :=
  let x := s.strm stop slot
  s.flag (sstat stop slot) 0 && (s.sdesc stop slot).epoch == s.epochOf stop && x.stopping == 0 && decide (x.next < x.resvEnd)

/-- The slot with the smallest key, ties to the lower slot. -/
def State.chooseSlot (s : State) (stop : Nat) : Option Nat :=
  ((List.range 16).filter (s.slotReady stop)).foldl (fun (b : Option Nat) k => match b with
    | some j => if s.slotKey stop k < s.slotKey stop j then some k else b
    | none => some k) none

/-- R116: elements from `e` on, at most `n`, that lie in the 64-byte block b. -/
def Desc.blockRun (d : Desc) (b : Int) (e : Nat) : Nat → Nat
  | 0 => 0
  | n + 1 => match d.addr e with
    | some a => if a / 64 = b then d.blockRun b (e + 1) n + 1 else 0
    | none => 0

/-- R116, R122: the engine's next read, which covers the consecutive elements that share its block. -/
def State.issueRead (s : State) (stop : Nat) : State :=
  if 128 ≤ ((List.range 16).map fun k => s.rf (sstat stop k) 8 8).sum then s
  else match s.chooseSlot stop with
  | none => s
  | some slot =>
    let key := s.slotKey stop slot
    let s := s.takePads stop slot
    let d := s.sdesc stop slot
    let x := s.strm stop slot
    match (if x.next < x.resvEnd then d.addr x.next else none) with
    | none => s
    | some a =>
      if addrBad a then (s.streamFault stop slot 4).stopStream stop slot 1
      else
        let n := d.blockRun (a / 64) x.next (x.resvEnd - x.next)
        let s := s.setStrm stop slot { x with next := x.next + n }
        let s := (s.wf (sstat stop slot) 8 8 (s.rf (sstat stop slot) 8 8 + 1)).wf (reg stop (0x2408 + 16 * slot)) 0 24 key
        let rd : FRead :=
          { stop := stop, slot := slot, el := x.next, n := n, addr := (a / 64).toNat * 64, key := key, admitted := false }
        { s with reads := s.reads ++ [rd] }.takePads stop slot

/-! ## HBM ports -/

/-- R304: the stack and the HBM port of an address. -/
def stackOf (a : Nat) : Nat := if a < 0x600000000 then 0 else 1
def portOf (a : Nat) : Nat := stackOf a * 8 + (a % 0x600000000 / 256 % 32) / 4

/-- R304: the pseudo-channel of an address, numbered across both stacks. -/
def pseudoOf (a : Nat) : Nat := stackOf a * 32 + a % 0x600000000 / 256 % 32

/-- R304, R310: the addresses of the transactions in flight at the HBM ports: fetch reads admitted, frame-store writes, spill
writes. -/
def State.hbmTraffic (s : State) : List Nat :=
  ((s.reads.filter fun r => r.admitted).map fun r => r.addr) ++ (s.ingest.cams.flatMap fun c => c.2.writes.map fun w => w.addr) ++
    s.mt.flatMap fun t => t.2.qx.flatMap fun q => q.2.spill.elim [] fun p =>
      (p.writing.zipIdx.filter fun c => c.1.sent.isSome).map fun c => p.base + 0x40 + 8 * p.cells + 64 * ((p.wr + c.2) % p.cells)

/-- R304: a pseudo-channel keeps at most 256 transactions in flight. -/
def State.pcFlight (s : State) (pc : Nat) : Nat := min 256 ((s.hbmTraffic.filter fun a => pseudoOf a == pc).length)

/-- R310: transactions in flight at a port, over its four pseudo-channels. -/
def State.hbpFlight (s : State) (port : Nat) : Nat := ((List.range 4).map fun i => s.pcFlight (4 * port + i)).sum

/-- R123: smaller keys first, ties to the lower global stream number. -/
def FRead.before (a b : FRead) : Bool :=
  decide (a.key < b.key) || (a.key == b.key && decide (streamNo a.stop a.slot < streamNo b.stop b.slot))

/-- R123, R304: the read that a port would let in in this CK_MESH cycle; one whose pseudo-channel is full waits. -/
def State.candidate (s : State) (port : Nat) : Option FRead :=
  if tget 0 s.hbpCk port = s.ck + 1 then none
  else (s.reads.filter fun r => !r.admitted && portOf r.addr == port && decide (s.pcFlight (pseudoOf r.addr) < 256)).foldl (fun (b : Option FRead) r => match b with
    | some x => if r.before x then some r else b
    | none => some r) none

def insertRead (r : FRead) : List FRead → List FRead
  | [] => [r]
  | x :: l => if r.before x then r :: x :: l else x :: insertRead r l

/-- R123: which candidates the tokens suffice for, in rank order; the counts are those of stack A, stack B, global. -/
def grantReads : List FRead → Nat → Nat → Nat → List FRead
  | [], _, _, _ => []
  | r :: l, a, b, g =>
    if g = 0 ∨ (if stackOf r.addr = 0 then a else b) = 0 then grantReads l a b g
    else r :: (if stackOf r.addr = 0 then grantReads l (a - 1) b (g - 1) else grantReads l a (b - 1) (g - 1))

def hbpReg (port off : Nat) : Nat := 0x03000000 + 0x100 * port + off

/-- R123: HBM_READ_ADMIT of a port. -/
def State.portAdmit (s : State) (port : Nat) : State :=
  match s.candidate port with
  | none => s
  | some r =>
    let cands := ((List.range 16).filterMap s.candidate).foldl (fun l r => insertRead r l) []
    let ta := s.rf 0x0300F00C 0 16
    let tb := s.rf 0x0300F00C 16 16
    let tg := s.rf 0x0300F010 0 16
    if (grantReads cands ta tb tg).contains r then
      let s := if stackOf r.addr = 0 then s.wf 0x0300F00C 0 16 (ta - 1) else s.wf 0x0300F00C 16 16 (tb - 1)
      let s := s.wf 0x0300F010 0 16 (tg - 1)
      { s with reads := s.reads.map (fun x => if x = r then { x with admitted := true } else x)
               hbpCk := tput 0 s.hbpCk port (s.ck + 1) }
    else
      let k := 16 + stackOf r.addr
      if tget 0 s.hbpCk k = s.ck + 1 then s
      else { s.count (0x0300F014 + 4 * stackOf r.addr) 0 32 with hbpCk := tput 0 s.hbpCk k (s.ck + 1) }

/-- R124: one bucket in one CK_MESH cycle: accumulator and tokens. -/
def bucketTick (acc tokens rate depth : Nat) : Nat × Nat :=
  let a := acc + rate
  (a % 256, if tokens < depth then min depth (tokens + a / 256) else tokens)

/-- R124: REGULATOR_TICK. -/
def State.regulator (s : State) : State :=
  let b := s.bucket
  let a := bucketTick b.accA (s.rf 0x0300F00C 0 16) (s.rf 0x0300F000 0 12) (s.rf 0x0300F000 16 16)
  let c := bucketTick b.accB (s.rf 0x0300F00C 16 16) (s.rf 0x0300F004 0 12) (s.rf 0x0300F004 16 16)
  let g := bucketTick b.accG (s.rf 0x0300F010 0 16) (s.rf 0x0300F008 0 13) (s.rf 0x0300F008 16 16)
  { ((s.wf 0x0300F00C 0 16 a.2).wf 0x0300F00C 16 16 c.2).wf 0x0300F010 0 16 g.2 with
    bucket := { accA := a.1, accB := c.1, accG := g.1 } }

/-- R305: what an HBM port counts for a read of a 64-byte block. -/
def State.hbmErrors (s : State) (a : Nat) : State :=
  (List.range 8).foldl (fun s i =>
    let w := a / 8 + i
    let p := portOf a
    let s := if w ∈ s.hbm.ce then s.count (hbpReg p 0) 0 32 else s
    if w ∈ s.hbm.ue then (s.count (hbpReg p 4) 0 32).wr (hbpReg p 8) (BitVec.ofNat 32 (8 * w / 16)) else s) s

/-- R119, R305: the return of the k-th read. -/
def State.readReturn (s : State) (k : Nat) : State :=
  match takeAt s.reads k with
  | none => s
  | some (r, rest) =>
    if !r.admitted then s
    else
      let stop := r.stop
      let slot := r.slot
      let d := s.sdesc stop slot
      let x := s.strm stop slot
      let block := s.hbmGet r.addr 64
      let bad := s.hbmHasUe r.addr 64
      let s := { s with reads := rest }.hbmErrors r.addr
      let s := if bad then s.memNotice stop (some (d.tagBase + BitVec.ofNat 16 (r.el / d.perPacket))) else s
      let got := (List.range r.n).map fun i =>
        let a := ((d.addr (r.el + i)).getD 0).toNat
        (r.el + i, (block.drop (a % 64)).take d.esize)
      let s := s.setStrm stop slot { x with data := tputAll [] x.data got }
      (s.wf (sstat stop slot) 8 8 (s.rf (sstat stop slot) 8 8 - 1)).feRun stop

end Sys2Proof.Machine
end

