-- ==== Sys2Proof/Machine/Spill.lean ====
section
/-! DEFINITION. Spill and restore of cushion queues (R244 to R247). A spill's cells are read through MO in tile cycles that leave
it idle, and restored cells are written through MI (R97, log 24). -/

namespace Sys2Proof.Machine

/-- Handles of a queue grouped into runs that lie in one cell. -/
def slotRuns : List Nat → List SpCell
  | [] => []
  | l :: r =>
    match slotRuns r with
    | g :: gs => if g.cell = l / 8 then { g with slots := l :: g.slots } :: gs else { cell := l / 8, slots := [l] } :: g :: gs
    | [] => [{ cell := l / 8, slots := [l] }]

/-- R418: the cells that spills have yet to restore. -/
def State.drainLeft (s : State) : Nat :=
  (s.mt.flatMap fun t => t.2.qx.map fun q => q.2.spill.elim 0 fun p => p.wr - p.rd + p.writing.length + p.staged.length).sum

/-- R418: `n` more cells are restored. A drain is over when no cell is left, and what is spilled after that begins another (log 24). -/
def State.drainProgress (s : State) (n : Nat) : State :=
  let done := (s.rd 0x1040).toNat
  let done := (if done = (s.rd 0x1044).toNat then 0 else done) + n
  s.progress 4 done (done + s.drainLeft)

/-- R418: a queue begins to spill: the first one begins a drain. -/
def State.drainBegin (s : State) : State :=
  if s.mt.any fun t => t.2.qx.any fun q => q.2.spill.isSome then s else s.progress 4 0 0

/-- R244, steps 1 and 2: all but the victim's head packet is to be written to the segment, as far as it has room; it enters
spilled state once these writes are acknowledged. -/
def State.spillQueue (s : State) (stop q seg base cells window : Nat) : State :=
  let m := s.mtile stop
  let x := s.qx stop q
  let lvl := s.qLevel stop q
  let h := s.qIsHandle stop q
  let all := m.cellsFrom (s.qHead stop q) lvl
  let head := m.packetFrom (s.qHead stop q) lvl
  let keep := if h then min lvl 1 else head.1.length
  let go : List SpCell := if h then slotRuns (x.slots.drop keep) else (all.1.drop keep).map fun c => ({ cell := c } : SpCell)
  let s := (s.drainBegin.setQf stop q 0x10 0 16 keep).setQf stop q 0x14 0 16 (min (s.qf stop q 0x14 0 16) 1)
  let s := s.modQx stop q fun x =>
    { x with spill := some { seg := seg, base := base, cells := cells, wr := 0, rd := 0, writing := go.take cells,
                             staged := go.drop cells, headLast := head.1.getLastD 0 }
             lastWindow := some window }
  let s := s.wr (reg stop (0x6000 + 8 * q)) (BitVec.ofNat 32 (window % 2 ^ 15 * 2 + seg % 2 ^ 16 * 2 ^ 16))
  ((s.qFaultIf stop q (!h && all.2)).spillPump stop q).drainProgress 0

/-- R247: the header of a segment. -/
def State.segHeader (s : State) (stop q : Nat) (p : Spill) : State :=
  let pipe := s.pipeOf stop
  let cfg := s.rf (0x8100 + 4 * pipe) 16 8
  let w0 := mtIndex stop + q * 2 ^ 8 + boolNat (s.qIsHandle stop q) * 2 ^ 14 + pipe * 2 ^ 16
  let bs := leBytes w0 4 ++ leBytes p.wr 4 ++ leBytes p.rd 4 ++ leBytes ((s.epochOf stop).toNat + cfg * 2 ^ 16) 4
  s.hbmPut p.base (bs ++ List.replicate 48 0)

/-- R247: what a cell whose data MO has read becomes in its segment: the side entry and the data. -/
def State.segCell (s : State) (stop q : Nat) (c : SpCell) (v : Payload) : Nat × Payload :=
  if c.slots.isEmpty then
    let e := (s.mtile stop).sideAt c.cell
    (e.tag.toNat + boolNat e.sop * 2 ^ 16 + boolNat e.eop * 2 ^ 17, v)
  else
    let x := s.qx stop q
    let tag (l : Nat) : Tag := x.tags.getD (x.slots.idxOf l) 0
    let bs := c.slots.flatMap fun l => leBytes (v.extractLsb' (32 * (l % 8)) 32).toNat 4
    let ts := c.slots.flatMap fun l => leBytes (tag l).toNat 2
    ((tag (c.slots.headD 0)).toNat + 2 ^ 16 + 2 ^ 17 + c.slots.length * 2 ^ 18,
     payloadOf (bs ++ List.replicate (32 - bs.length) 0 ++ ts))

/-- The first cell of a spill that has not been read yet. -/
def Spill.unread (p : Spill) : Option SpCell := p.writing.find? fun c => c.sent.isNone

/-- R244, R97: with MO idle in the tile cycle under way, the lowest queue that spills has its next cell read. -/
def State.spillRead (s : State) (stop : Nat) : State :=
  let m := s.mtile stop
  let next (e : Nat × QX) : Option (Nat × SpCell) :=
    if s.qbit stop e.1 0x18 5 then none else e.2.spill.bind fun p => p.unread.map fun c => (e.1, c)
  if !m.cy.mo.isEmpty then s
  else match m.qx.findSome? next with
  | none => s
  | some (q, c) =>
    if m.sideUe.contains c.cell then s.qFaultIf stop q true
    else
      let x := s.qx stop q
      let tag := if c.slots.isEmpty then (m.sideAt c.cell).tag else x.tags.getD (x.slots.idxOf (c.slots.headD 0)) 0
      s.modMt stop fun m => { m with cy := { m.cy with mo := [{ cell := c.cell, lo := true, hi := true, tag := tag, use := .spill q }] } }

/-- The first unread cell of a list is sent. -/
def markSent (v : Nat × Payload) : List SpCell → List SpCell
  | [] => []
  | c :: r => if c.sent.isNone then { c with sent := some v } :: r else c :: markSent v r

/-- A cell that MO has read leaves for its segment. -/
def State.spillSent (s : State) (stop q : Nat) (v : Payload) : State :=
  match (s.qx stop q).spill with
  | none => s
  | some p => match p.unread with
    | none => s
    | some c =>
      let d := s.segCell stop q c v
      let a := p.base + 0x40 + 8 * p.cells + 64 * (p.wr % p.cells)
      (s.modQx stop q fun x => { x with spill := some { p with writing := markSent d p.writing } }).post stop (hbpStop (portOf a)) 7 false
        (.spill stop q false false)

/-- R244, R246: an acknowledged spill write frees its cell and returns its credits. -/
def State.spillAck (s : State) (stop q : Nat) : State :=
  match (s.qx stop q).spill with
  | none => s
  | some p =>
    match p.writing with
    | [] => s
    | c :: rest => match c.sent with
      | none => s
      | some (side, data) =>
       if p.acks = 0 then s
       else
        let slot := p.wr % p.cells
        let s := s.hbmPut (p.base + 0x40 + 8 * slot) (leBytes side 8)
        let s := s.hbmPut (p.base + 0x40 + 8 * p.cells + 64 * slot) (payloadBytes data)
        let p := { p with wr := p.wr + 1, writing := rest, acks := p.acks - 1 }
        let s := s.segHeader stop q p
        let x := s.qx stop q
        let s := if c.slots.isEmpty then
            ((s.freeCells stop q [c.cell]).qCredit stop q (if x.restored.contains c.cell then 0 else 1)).modQx stop q fun x =>
              { x with restored := x.restored.erase c.cell, spill := some p }
          else
            let keep := (x.slots.zip x.tags).filter fun l => !c.slots.contains l.1
            let n := (c.slots.filter x.pays).length
            let s := if (slotCells (keep.map (·.1))).contains c.cell then s else s.freeCells stop q [c.cell]
            (s.qCredit stop q n).modQx stop q fun x =>
              { x with slots := keep.map (·.1), tags := keep.map (·.2), spill := some p
                       restored := x.restored.filter (fun l => !c.slots.contains l)
                       filled := x.filled.filter fun l => !c.slots.contains l }
        let s := if c.slots.isEmpty then s else s.handleEnds stop q
        s.spillPump stop q

/-- R246: free cells of a tile's restore window (MT_RWIN). -/
def State.rwinFree (s : State) (stop : Nat) : Nat :=
  128 - ((s.mtile stop).qx.map fun e =>
    if s.qIsHandle stop e.1 then (slotCells e.2.restored).length else e.2.restored.length).sum

/-- R245: a restored cell is written through MI and joins the head region. -/
def State.linkRestored (s : State) (stop q : Nat) (p : Spill) (side : Nat) (data : Payload) : State :=
  let lvl := s.qLevel stop q
  match (s.mtile stop).takeCell with
  | none => s
  | some (c, m) =>
    let tag : Tag := BitVec.ofNat 16 side
    let n := side / 2 ^ 18 % 16
    if s.qIsHandle stop q then
      let s := (s.setMt stop (m.setSide c {})).portWrite stop c data false
      let new := (List.range n).map fun i => c * 8 + i
      let tags := (List.range n).map fun i => data.extractLsb' (256 + 16 * i) 16
      let s := s.modQx stop q fun x =>
        { x with slots := x.slots.take lvl ++ new ++ x.slots.drop lvl, tags := x.tags.take lvl ++ tags ++ x.tags.drop lvl
                 restored := x.restored ++ new, spill := some p }
      ((s.setQf stop q 0x10 0 16 (lvl + n)).setQf stop q 0x14 0 16 (s.qf stop q 0x14 0 16 + n)).handleEnds stop q
    else
      let sop := side / 2 ^ 16 % 2 == 1
      let bad := lvl != 0 && m.sideUe.contains p.headLast
      let m := m.setSide c { link := 0, tag := tag, sop := sop, eop := side / 2 ^ 17 % 2 == 1 }
      let m := if lvl = 0 ∨ bad then m else m.linkTo p.headLast c
      let s := (s.setMt stop m).portWrite stop c data false
      let s := if lvl = 0 then (s.setQf stop q 8 0 16 c).setQf stop q 0x14 16 16 p.tag.toNat else s
      let s := s.setQf stop q 0x10 0 16 (lvl + 1)
      let s := if sop then s.setQf stop q 0x14 0 16 (s.qf stop q 0x14 0 16 + 1) else s
      (s.modQx stop q fun x => { x with restored := x.restored ++ [c], spill := some { p with headLast := c } }).qFaultIf stop q bad

/-- R245: committed cells of the head region. -/
def State.headCells (s : State) (stop q : Nat) : Nat :=
  if s.qIsHandle stop q then (slotCells ((s.qx stop q).slots.take (s.qLevel stop q))).length else s.qLevel stop q

/-- R245: the tile takes the cell at the front of a segment: the segment holds one, the head region and the restore window have
room, the pool has a cell, and MI is free. -/
def State.restores (s : State) (stop q : Nat) (p : Spill) : Bool :=
  p.entered && decide (p.rd < p.wr) && decide (s.headCells stop q < 128) && s.rwinFree stop != 0 && (s.mtile stop).poolFree != 0 &&
    s.miFree stop 4

/-- R245: in a tile cycle the lowest queue that can take back a cell of its segment asks for the one at the front. -/
def State.restoreAsk (s : State) (stop : Nat) : State :=
  let due (e : Nat × QX) : Bool := e.2.spill.any fun p => p.asked == 0 && s.restores stop e.1 p
  match (s.mtile stop).qx.find? due with
  | some (q, x) => match x.spill with
    | some p =>
      let a := p.base + 0x40 + 8 * p.cells + 64 * (p.rd % p.cells)
      (s.modQx stop q fun x => { x with spill := some { p with asked := 1 } }).post stop (hbpStop (portOf a)) 7 false (.spill stop q true false)
    | none => s
  | none => s

/-- R245, R247: the return of the cell at the front of a segment. -/
def State.restore (s : State) (stop q : Nat) : State :=
  match (s.qx stop q).spill with
  | none => s
  | some p =>
    if p.asked = 2 ∧ s.restores stop q p then
      let slot := p.rd % p.cells
      let sa := p.base + 0x40 + 8 * slot
      let da := p.base + 0x40 + 8 * p.cells + 64 * slot
      let bad := s.hbmHasUe sa 8 || s.hbmHasUe da 64
      let side := leNat (s.hbmGet sa 8)
      let data : Payload := if bad then 0 else payloadOf (s.hbmGet da 64)
      let tag : Tag := if side / 2 ^ 16 % 2 = 1 then BitVec.ofNat 16 side else p.tag
      let s := (s.hbmErrors (sa / 64 * 64)).hbmErrors da
      let s := if bad then s.memNotice stop (some tag) else s
      let p := { p with rd := p.rd + 1, tag := tag, asked := 0 }
      let s := s.segHeader stop q p
      let s := if (s.qx stop q).skip then
          s.modQx stop q fun x => { x with spill := some p, skip := side / 2 ^ 17 % 2 == 0 }
        else s.linkRestored stop q p side data
      (s.spillPump stop q).drainProgress 1
    else s

end Sys2Proof.Machine
end

