-- ==== Sys2Proof/Machine/Cycles.lean ====
section
/-! DEFINITION. The tile cycle of a memory tile: at its end the accesses to each bank are resolved in the order MI, FE, EX, MO
(R97, R98), and what has been read goes to its use. MI is granted in the order of R194: the flush write and HRET stand in the
cycle before any command of the cycle comes, ring writers and arrivals wait for a cycle that leaves it free. -/

namespace Sys2Proof.Machine

/-- The bank writes of a cycle in port order: FE words whose bank MI has taken are dropped (R98). -/
def State.resolveWrites (s : State) (stop : Nat) (cy : MtCycle) : State × List Nat :=
  let mi := cy.wr.filter fun w => !w.fe
  let fe := cy.wr.filter fun w => w.fe
  let p := mi.foldl (fun (p : State × List Nat) w => (p.1.modMt stop (·.putPart w.bank w.word w.data w.mask), w.bank :: p.2)) (s, [])
  fe.foldl (fun (p : State × List Nat) w =>
    if w.bank ∈ p.2 then (p.1.conflict stop 1 w.bank (s.mtile stop).curTag, p.2)
    else (p.1.modMt stop (·.putPart w.bank w.word w.data w.mask), w.bank :: p.2)) p

/-- One read of a bank: the word, or the output latch where the bank is taken (R98). -/
def State.bankRead (s : State) (stop loser bank word : Nat) (tag : Tag) (taken : List Nat) : State × BitVec 256 × List Nat :=
  if bank ∈ taken then (s.conflict stop loser bank tag, tget 0 (s.mtile stop).latch bank, taken)
  else
    let v := (s.mtile stop).readWord bank word
    ((s.modMt stop fun m => { m with latch := tput 0 m.latch bank v }).bankErrors stop bank word tag 15, v, bank :: taken)

/-- EX: the lanes in order, then the segment on its way to the transpose buffer (R196). -/
def State.resolveEx (s : State) (stop : Nat) (e : ExRead) (taken : List Nat) : State × List Nat :=
  let p := e.lanes.foldl (fun (p : State × Tbl (BitVec 256) × List Nat) l =>
    let r := p.1.bankRead stop 2 l.2.1 l.2.2 e.tag p.2.2
    (r.1, tput 0 p.2.1 l.1 r.2.1, r.2.2)) (s, [], taken)
  let seg := e.pos.map fun x => match x with
    | some (lane, i) => (tget 0 p.2.1 lane).extractLsb' (8 * i) 8
    | none => e.zp
  (p.1.modMt stop fun m => { m with steps := m.steps ++ [{ land := e.land, buf := e.buf, row := e.row, col := e.col, seg := seg }] },
   p.2.2)

/-- What the words that MO read become: a flit on a route, a handle on its way to context registers or to the fetch engine,
a cell on its way to a segment. -/
def State.deliver (s : State) (stop : Nat) (r : MoRead) (v : Payload) : State :=
  match r.use with
  | .send ready rt op tag epoch lastQ =>
    let s := match lastQ with
      | some q => s.modMt stop fun m => m.setQx q { m.qxAt q with last := v, lastTag := tag }
      | none => s
    s.sendFlit stop rt op tag epoch v ready
  | .handle at_ cr bit tag q =>
    let h : Word := v.extractLsb' bit 32
    let s := s.modMt stop fun m =>
      { m.setQx q { m.qxAt q with last := h.setWidth 512, lastTag := tag } with
        ctxw := m.ctxw ++ [(at_, cr, h, tag.setWidth 32)] }
    if s.flag (reg stop (0x1000 + 0x20 * q)) 2 then s.holdBuf stop h else s
  | .engine slot bit tag q => s.engineHandle stop slot q tag (v.extractLsb' bit 32)
  | .spill q => s.spillSent stop q v
  | .host => s

/-- MO: both halves of a cell (R98, Half-cell), then its use. MO reads one cell in a cycle: `late` says that another read has
had it, so this one returns the latches (log 24). A spill's read that meets a taken bank is made again. -/
def State.resolveMo (s : State) (stop : Nat) (r : MoRead) (late : Bool) (taken : List Nat) : State × List Nat :=
  let b0 := evenBank r.cell
  let lost := if late then [b0, b0 + 1] else []
  let again := match r.use with
    | .spill _ => late || taken.contains b0 || taken.contains (b0 + 1)
    | _ => false
  if again then (s, taken)
  else
    let a := if r.lo then s.bankRead stop 3 b0 (cellWord r.cell) r.tag (lost ++ taken) else (s, 0, taken)
    let b := if r.hi then a.1.bankRead stop 3 (b0 + 1) (cellWord r.cell) r.tag (lost ++ a.2.2) else (a.1, 0, a.2.2)
    (b.1.deliver stop r (b.2.1 ++ a.2.1), b.2.2)

/-- R98: the end of a tile cycle for the banks. -/
def State.closeCycle (s : State) (stop : Nat) : State :=
  let cy := (s.mtile stop).cy
  let s := s.modMt stop fun m => { m with cy := {}, free := m.free ++ cy.frees.map (·.2) }
  let w := s.resolveWrites stop cy
  let e := match cy.ex with
    | some e => w.1.resolveEx stop e w.2
    | none => w
  (cy.mo.foldl (fun (p : (State × List Nat) × Bool) r => (p.1.1.resolveMo stop r p.2 p.1.2, true)) (e, false)).1.1

/-- What runs in every tile cycle of a memory tile, frozen or not (R146): the fetch engine's push and a spill's read. -/
def State.mtRun (s : State) (stop : Nat) : State := ((s.feRun stop).spillRead stop).restoreAsk stop

/-- End of tile cycle c, after the slots: segments that land, the flush under way, HRET pushes that are due, then the fetch engine
and spills. -/
def State.mtEnd (s : State) (stop c : Nat) : State :=
  let land := (s.mtile stop).steps.filter fun x => decide (x.land ≤ c)
  let s := s.modMt stop fun m => { m with steps := m.steps.filter fun x => !decide (x.land ≤ c) }
  let s := land.foldl (fun s x => s.landStep stop x) s
  let s := match (s.mtile stop).flushes.head? with
    | some f => s.flushCycle stop c f
    | none => s
  let due := (s.mtile stop).hrets.filter fun h => decide (h.1 ≤ c)
  let s := s.modMt stop fun m => { m with hrets := m.hrets.filter fun h => !decide (h.1 ≤ c) }
  let s := due.foldl (fun s h => s.hretPush stop h.2.1 h.2.2.1 h.2.2.2) s
  s.mtRun stop

/-- Something of a memory tile goes on without a command. -/
def Mt.busy (m : Mt) : Bool :=
  m.cy != {} || !m.steps.isEmpty || !m.flushes.isEmpty || !m.hrets.isEmpty || !m.ctxw.isEmpty ||
    m.qx.any fun q => q.2.spill.any fun p => p.unread.isSome || (p.entered && decide (p.rd < p.wr) && p.asked == 0)

end Sys2Proof.Machine
end

