-- ==== Sys2Proof/Machine/Lanes.lean ====
section
/-! DEFINITION. The functions of the special-function tile over FP32 words: tables (R81, R82), reductions (R83), softmax
(R84), norms (R85), pooling (R87), resize (R88), top-k (R89) and the depthwise lane (R90, R91). They read work memory
through a function of byte addresses. -/

namespace Sys2Proof.Machine

/-! ## Tables -/

def tblBelow (rd : Nat → Word) (lin : Bool) (u : Word) : Word :=
  let m := bitsOf (rd 0x014) 1 2
  if m = 2 then rd 0x008
  else if m = 1 ∧ lin then fadd (rd 0x020) (fmul (rd 0x024) u)
  else rd 0x020

def tblAbove (rd : Nat → Word) (lin : Bool) (u : Word) : Word :=
  let m := bitsOf (rd 0x014) 3 2
  if m = 2 then rd 0x00C
  else if m = 1 ∧ lin then fadd (rd 0x818) (fmul (rd 0x81C) (fsub u (fofInt 255)))
  else fadd (rd 0x818) (rd 0x81C)

def tblAt (rd : Nat → Word) (i : Nat) (f : Word) : Word := fadd (rd (0x020 + 8 * i)) (fmul (rd (0x024 + 8 * i)) f)

/-- R82, before the result is one of FP32 under R36. -/
def tblRaw (rd : Nat → Word) (x : Word) : Word :=
  if isNan x then qnan
  else if !bitOf (rd 0x014) 0 then
    let u := fmul (fsub x (rd 0)) (rd 4)
    if isNan u then qnan
    else if flt u 0 then tblBelow rd true u
    else if fge u (fofInt 256) then tblAbove rd true u
    else
      let i := (ffloor u).toNat
      tblAt rd i (fsub u (fofInt i))
  else if isZero x then rd 0x010
  else if flt x 0 then qnan
  else
    let e : Int := (bitsOf x 23 8 : Int) - 127
    let lo := int8 (bitsOf (rd 0x014) 8 8)
    if e < lo then tblBelow rd false 0
    else if e > lo + 15 then tblAbove rd false (fofInt 256)
    else tblAt rd (((e - lo) * 16).toNat + bitsOf x 19 4) (roundDy false (bitsOf x 0 19) (-19))

/-- R82, R178: TBL computes in FP32, so a constant of the table, too, comes out as a result of R36. -/
def tblEval (rd : Nat → Word) (x : Word) : Word := fcanon (tblRaw rd x)

/-- The 64-bit words of a table, by number, that its evaluation at x reads (R77, R81). -/
def tblWords (rd : Nat → Word) (x : Word) : List Nat :=
  let below : List Nat := if bitsOf (rd 0x014) 1 2 = 2 then [1] else [4]
  let above : List Nat := if bitsOf (rd 0x014) 3 2 = 2 then [1] else [0x103]
  if isNan x then []
  else if !bitOf (rd 0x014) 0 then
    let u := fmul (fsub x (rd 0)) (rd 4)
    [2, 0] ++ (if isNan u then [] else if flt u 0 then below else if fge u (fofInt 256) then above
      else [4 + (ffloor u).toNat])
  else if isZero x ∨ flt x 0 then [2]
  else
    let e : Int := (bitsOf x 23 8 : Int) - 127
    let lo := int8 (bitsOf (rd 0x014) 8 8)
    2 :: (if e < lo then below else if e > lo + 15 then above else [4 + ((e - lo) * 16).toNat + bitsOf x 19 4])

/-! ## Reductions -/

/-- R83: lane-wise sums of 64-lane vectors, starting from the given lanes. -/
def laneSums (start : List Word) (vecs : List (List Word)) : List Word :=
  vecs.foldl (fun acc v => (List.range 64).map fun l => fadd (acc.getD l 0) (v.getD l 0)) start

/-- R83: the six folding steps, w = 32 down to 1; lane 0 is the result. -/
def foldLanes : Nat → List Word → List Word
  | 0, v => v
  | n + 1, v => foldLanes n ((List.range (2 ^ n)).map fun l => fadd (v.getD l 0) (v.getD (l + 2 ^ n) 0))

def foldSum (lanes : List Word) : Word := (foldLanes 6 lanes).getD 0 0

/-- Values of channels in vectors of 64 lanes; lanes beyond the last hold +0. -/
def vectorsOf (xs : List Word) : List (List Word) :=
  (List.range ((xs.length + 63) / 64)).map fun v => (List.range 64).map fun l => xs.getD (64 * v + l) 0

def sumChannels (xs : List Word) : Word := foldSum (laneSums (List.replicate 64 0) (vectorsOf xs))

/-- R84. -/
def softmax (tbl : Word → Word) (xs : List Word) : List Word :=
  let m := xs.foldl fmax fnegInf
  let es := xs.map fun x => tbl (fsub x m)
  let r := fdiv fone (sumChannels es)
  es.map fun e => fmul e r

/-- R85: 1 ÷ sqrt(var + eps). -/
def rsqrtOf (var eps : Word) : Word := fdiv fone (fsqrt (fadd var eps))

def normOut (d rs g b : Word) : Word := fadd (fmul (fmul d rs) g) b

/-- R85, layer norm; `g` and `b` are γ and β by channel. -/
def layerNorm (g b : Nat → Word) (eps : Word) (xs : List Word) : List Word :=
  let invN := fdiv fone (fofInt xs.length)
  let mean := fmul (sumChannels xs) invN
  let ds := xs.map fun x => fsub x mean
  let var := fmul (sumChannels (ds.map fun d => fmul d d)) invN
  let rs := rsqrtOf var eps
  (ds.zipIdx).map fun (d, k) => normOut d rs (g k) (b k)

/-- R85: mean and rs of a group from its folded sums. -/
def groupStats (s1 s2 eps : Word) (n : Nat) : Word × Word :=
  let invN := fdiv fone (fofInt n)
  let mean := fmul s1 invN
  let var := fmax (fsub (fmul s2 invN) (fmul mean mean)) 0
  (mean, rsqrtOf var eps)

/-! ## Geometry (R184) -/

structure Geom where
  inU : Nat
  outU : Nat
  wIn : Nat
  hr : Nat
  kh : Nat
  kw : Nat
  wOut : Nat
  sx : Nat
  dil : Nat
  padLeft : Nat
  hIn : Nat
  y0 : Int
  deriving DecidableEq, Repr

def geomOf (c0 c1 c2 c3 : Word) : Geom :=
  { inU := bitsOf c0 0 16, outU := bitsOf c0 16 16, wIn := bitsOf c1 0 12, hr := bitsOf c1 12 12,
    kh := bitsOf c1 24 3 + 1, kw := bitsOf c1 27 3 + 1, wOut := bitsOf c2 0 12, sx := bitsOf c2 12 2 + 1,
    dil := bitsOf c2 14 1 + 1, padLeft := bitsOf c2 16 3, hIn := bitsOf c2 20 12, y0 := int16 (bitsOf c3 0 16) }

def Geom.ok (g : Geom) : Bool :=
  decide (1 ≤ g.wIn) && decide (1 ≤ g.hr) && decide (g.kh ≤ 7) && decide (g.kw ≤ 7) && decide (1 ≤ g.wOut) &&
    decide (1 ≤ g.hIn)

/-- The cell (row, column) of window position (i, j) of output x, if it is not padded. -/
def Geom.cell (g : Geom) (dil x i j : Nat) : Option (Int × Int) :=
  let yy : Int := g.y0 + i * dil
  let xx : Int := (x * g.sx : Nat) - (g.padLeft : Int) + j * dil
  if xx < 0 ∨ xx ≥ g.wIn ∨ yy < 0 ∨ yy ≥ g.hIn then none else some (yy, xx)

/-- Index of a cell in its line ring. -/
def Geom.ringIndex (g : Geom) (yy xx : Int) : Nat := (yy % g.hr).toNat * g.wIn + xx.toNat

def Geom.window (g : Geom) : List (Nat × Nat) := (List.range g.kh).flatMap fun i => (List.range g.kw).map fun j => (i, j)

/-- R87: the cells of a window that are in range, row by row (none: padded). -/
def Geom.cells (g : Geom) (dil x : Nat) : List (Option (Int × Int)) := g.window.map fun p => g.cell dil x p.1 p.2

/-- R184, R231, code 11: a row of those that a window reads is not resident: two of them share a place of the ring. -/
def Geom.notResident (g : Geom) (rows : List Int) : Option Nat :=
  let hr : Int := g.hr
  let inside := rows.filter fun (y : Int) => decide (0 ≤ y) && decide (y < (g.hIn : Int))
  (inside.find? fun (y : Int) => inside.any fun (z : Int) => z != y && z % hr == y % hr).map fun (y : Int) => (y % hr).toNat

/-- Byte address of lane l of an FP32 cell, and of a code cell's lane. -/
def Geom.fpAddr (g : Geom) (yy xx : Int) (l : Nat) : Nat := (g.inU + g.ringIndex yy xx * 4) * 64 + 4 * l
def Geom.codeAddr (g : Geom) (yy xx : Int) (l : Nat) : Nat := (g.inU + g.ringIndex yy xx) * 64 + l

/-- R87, one lane of maximum pooling; a single cell, too, comes out as a result of R36 (R178). -/
def maxPool (vals : List (Option Word)) : Word :=
  match vals.filterMap id with
  | [] => 0
  | v :: vs => vs.foldl fmax (fcanon v)

/-- R87, one lane of average pooling. The sum starts from +0, as R83 states for channels (DESIGN CHOICE, log 24). -/
def avgPool (padIncl : Bool) (vals : List (Option Word)) : Word :=
  let xs := if padIncl then vals.map fun v => v.getD 0 else vals.filterMap id
  if xs.isEmpty then 0 else fmul (xs.foldl fadd 0) (fdiv fone (fofInt xs.length))

/-- R88: source coordinate of output index d. -/
def srcCoord (d : Int) (rho : Word) : Word := fsub (fmul (fadd (fofInt d) fhalf) rho) fhalf

/-- R88: floor clamped to [0, n − 1]; for a NaN, whose index the spec does not state, a free value. -/
def clampFloor (free : Nat) (s : Word) (n : Nat) : Nat :=
  if isNan s then Config.unstated 88 free % n
  else if flt s 0 then 0
  else if fge s (fofInt n) then n - 1
  else min (ffloor s).toNat (n - 1)

def nearest (free : Nat) (d : Int) (rho : Word) (n : Nat) : Nat := clampFloor free (fadd (srcCoord d rho) fhalf) n

/-- R88: i0, i1 and f of bilinear resize. -/
def bilinear (free : Nat) (d : Int) (rho : Word) (n : Nat) : Nat × Nat × Word :=
  let s := srcCoord d rho
  if flt s 0 then (0, 0, 0)
  else
    let i0 := clampFloor free s n
    (i0, min (i0 + 1) (n - 1), fsub s (fofInt (ffloor s)))

def lerp (a b f : Word) : Word := fadd a (fmul (fsub b a) f)

/-! ## Top-k (R89) -/

/-- a ranks before b: by value, NaN last, equal values by channel; so do two NaNs (DESIGN CHOICE, log 24). -/
def ranksBefore (a b : Word × Nat) : Bool :=
  match (FV.unpack a.1).key, (FV.unpack b.1).key with
  | some x, some y => decide (x > y) || (decide (x = y) && decide (a.2 < b.2))
  | some _, none => true
  | none, some _ => false
  | none, none => decide (a.2 < b.2)

def insertRank (a : Word × Nat) : List (Word × Nat) → List (Word × Nat)
  | [] => [a]
  | b :: r => if ranksBefore a b then a :: b :: r else b :: insertRank a r

def topK (k : Nat) (xs : List Word) : List (Word × Nat) :=
  (xs.zipIdx).foldl (fun acc a => (insertRank a acc).take k) []

end Sys2Proof.Machine
end

