-- ==== Sys2Proof/Machine/SftTile.lean ====
section
/-! DEFINITION. The special-function tile: local memory and its errors (R75 to R78), input conversion (R79), deferred
writes (R178), and every operation of its three slots (R179 to R185). -/

namespace Sys2Proof.Machine

/-- A latency of the special-function tile with its padding field (R226, R227, R234). -/
def State.sftLat (s : State) (stop base field : Nat) : Nat := base + s.rf (reg stop 0xD400) (4 * field) 4

def workBase : Nat := 0x8000
def workSize : Nat := 0x18000

/-- A byte of work memory: zero beyond its end and in an uncorrectable word (R77, R178). -/
def Sft.wm (x : Sft) (a : Nat) : Byte :=
  if a < workSize then (if (workBase + a) / 8 ∈ x.lmUe then 0 else tget 0 x.lm (workBase + a)) else 0

def Sft.wmBytes (x : Sft) (a n : Nat) : List Byte := (List.range n).map fun i => x.wm (a + i)
def Sft.wmWord (x : Sft) (a : Nat) : Word := BitVec.ofNat 32 (leNat (x.wmBytes a 4))

/-- A word of a table slot. -/
def Sft.tblRd (x : Sft) (t off : Nat) : Word :=
  let a := t * 0x1000 + off
  if a / 8 ∈ x.lmUe then 0 else BitVec.ofNat 32 (leNat (getBytes x.lm a 4))

def Sft.lane (x : Sft) (v l : Nat) : Word := tget 0 x.v (v * 64 + l)
def Sft.vec (x : Sft) (v : Nat) : List Word := (List.range 64).map (x.lane v)

/-- R77: what reading 64-bit words of local memory counts and reports; a word that one operation reads often counts once (DESIGN
CHOICE, log 24). -/
def State.lmErrors (s : State) (stop : Nat) (words : List Nat) : State :=
  let x := s.sftile stop
  words.foldl (fun s w =>
    let s := if w ∈ x.lmCe then (s.count (reg stop 0x0204) 0 32).setFlag (reg stop 0x0200) 0 else s
    if w ∈ x.lmUe then
      let s := (s.count (reg stop 0x0208) 0 32).setFlag (reg stop 0x0200) 1
      (s.wr (reg stop 0x020C) (BitVec.ofNat 32 (w * 8))).memNotice stop (s.curTag stop)
    else s) s

/-- The words of local memory that a byte range touches. -/
def lmWords (a n : Nat) : List Nat := if n = 0 then [] else (List.range ((a + n - 1) / 8 - a / 8 + 1)).map fun i => a / 8 + i

/-- Reads of work memory as (byte address, length): `wm_range` where one passes the end, and errors. -/
def State.wmReads (s : State) (stop : Nat) (rs : List (Nat × Nat)) : State :=
  let s := if rs.any (fun r => decide (r.1 + r.2 > workSize)) then s.setFlag (reg stop 0x0210) 3 else s
  s.lmErrors stop ((rs.flatMap fun r => lmWords (workBase + r.1) (min r.2 (workSize - r.1))).eraseDups)

/-- The words of local memory that a table's evaluation at some values reads. -/
def Sft.tblReads (x : Sft) (t : Nat) (xs : List Word) : List Nat :=
  ((xs.flatMap (tblWords (x.tblRd t))).map fun w => t * 0x200 + w).eraseDups

/-- R182: an operation touches units of a RUN in progress. -/
def State.touchRun (s : State) (stop c unit n : Nat) : State × Bool :=
  let x := s.sftile stop
  match x.run with
  | some r =>
    if decide (c ≤ r.last) && r.uses.any (fun u => decide (unit < u.1 + u.2) && decide (u.1 < unit + n)) then
      ((s.setSft stop { x with run := some { r with touched := true } }).hazard stop 10 unit, true)
    else (s, false)
  | none => (s, false)

/-- Bytes that a touch of a RUN leaves undefined: free values (R182). -/
def freeBytes (free a n : Nat) : List Byte := (List.range n).map fun i => Config.touchedByte (free * 2 ^ 20 + a + i)

/-- A write that shows after tile cycle `at_`. -/
def State.sftLater (s : State) (stop at_ : Nat) (t : SftTarget) : State :=
  let x := s.sftile stop
  s.setSft stop { x with wr := x.wr ++ [{ at_ := at_, target := t }] }

/-- A write of bytes into local memory: whole words clear their error, a partial one merges into zeros (R491). -/
def Sft.lmWrite (x : Sft) (a : Nat) (data : List Byte) : Sft :=
  let ws := lmWords a data.length
  let lm := (x.lmUe.filter fun w => ws.contains w).foldl (fun t w => putBytes t (8 * w) (List.replicate 8 0)) x.lm
  { x with lm := putBytes lm a data, lmUe := x.lmUe.filter (fun w => !ws.contains w),
           lmCe := x.lmCe.filter (fun w => !ws.contains w) }

/-- Bytes written from a work-memory address, dropped beyond its end (R178). -/
def Sft.wmWrite (x : Sft) (a : Nat) (data : List Byte) : Sft := x.lmWrite (workBase + a) (data.take (workSize - a))

def laneBytes (ws : List Word) : List Byte := ws.flatMap fun w => leBytes w.toNat 4

/-- End of tile cycle c: the writes that are due, in order of issue, and a RUN's results after its last cycle. -/
def State.sftEnd (s : State) (stop c : Nat) : State :=
  let x := s.sftile stop
  let due := x.wr.filter fun w => decide (w.at_ ≤ c)
  let x1 := due.foldl (fun (x : Sft) w =>
    match w.target with
    | .vreg n lanes => { x with v := (lanes.zipIdx).foldl (fun t p => tput 0 t (n * 64 + p.2) p.1) x.v }
    | .bytes a data => x.wmWrite a data) { x with wr := x.wr.filter fun w => decide (c < w.at_) }
  let x2 : Sft := match x1.run with
    | some r =>
      if r.last ≤ c then
        { (r.results.foldl (fun (x : Sft) q => x.wmWrite q.1 (if r.touched then freeBytes s.free q.1 q.2.length else q.2)) x1)
          with run := none }
      else x1
    | none => x1
  let x3 := { x2 with outs := x2.outs.filter fun t => decide (c < t) }
  let s := (s.setSft stop x3).bump
  s.wf (reg stop 0x0010) 2 1 (boolNat (x3.run.isSome || !x3.wr.isEmpty || !x3.outs.isEmpty))

/-- R93: a send is in progress until a tile cycle. -/
def State.sftSending (s : State) (stop at_ : Nat) : State :=
  s.setSft stop { s.sftile stop with outs := (s.sftile stop).outs ++ [at_] }

/-- Counts an operation started (R93). -/
def State.sftOp (s : State) (stop : Nat) (lctx : Option Nat) : State :=
  let s := s.wrap (reg stop 0x0010) 16 16
  match lctx with
  | some n => s.wf (reg stop 0x0010) 0 2 n
  | none => s

/-- Word k of SFT_LCTXn (R94). -/
def State.sctx (s : State) (stop n k : Nat) : Word := s.rd (reg stop (0x0100 + 0x20 * n + 4 * k))

/-- Narrowing fields of a context (R37): out_scale, zp_out, q_lo, q_hi, monitor slot. -/
structure OutCtx where
  scale : Word
  zp : Int
  lo : Int
  hi : Int
  mon : Nat
  deriving DecidableEq, Repr

def State.outCtx (s : State) (stop n : Nat) : OutCtx :=
  let w0 := s.sctx stop n 0
  let w1 := s.sctx stop n 1
  let sg := bitOf w0 2
  { scale := s.sctx stop n 2, zp := codeOf sg (bitsOf w0 24 8), lo := codeOf sg (bitsOf w1 0 8),
    hi := codeOf sg (bitsOf w1 8 8), mon := bitsOf w0 3 2 }

/-! ## IN slot -/

/-- R79: byte l of a flit converted as input A or B. -/
def State.convLane (s : State) (stop n : Nat) (b : Bool) (code : Byte) (k : Nat) : Word :=
  let w0 := s.sctx stop n 0
  let w1 := s.sctx stop n 1
  let sg := bitOf w0 (if b then 1 else 0)
  let zp := codeOf sg (bitsOf w0 (if b then 16 else 8) 8)
  let base := bitsOf w1 (if b then 24 else 16) 8
  let idx := if bitOf w0 (if b then 6 else 5) then (base + k) % 256 else base
  let sw := s.rd (reg stop (0x1000 + 4 * idx))
  fofCode (codeOf sg code.toNat) zp (bitsOf sw 0 16) (bitsOf sw 16 6)

/-- CVTA and CVTB (R180) in tile cycle c. -/
def State.opCvt (s : State) (stop w c : Nat) (b : Bool) : State :=
  let n := osel w 0 2
  let s := s.sftOp stop (some n)
  let p := s.popLq stop (osel w 21 3) (!b) 0
  let k0 := bitsOf (p.1.ctx stop (osel w 13 5)) 0 16
  let lanes := ((payloadBytes p.2.payload).zipIdx).map fun (x, l) => p.1.convLane stop n b x (k0 + l)
  p.1.sftLater stop (c + p.1.sftLat stop 4 0) (.vreg (osel w 18 3) lanes)

/-- RAW (R180). -/
def State.opRaw (s : State) (stop w c : Nat) : State :=
  let s := s.sftOp stop none
  let p := s.popLq stop (osel w 21 3) true 0
  let u := p.1.afAddr stop (osel w 16 5)
  let s := (p.1.touchRun stop c u 1).1
  let s := if u ≥ 1536 then s.setFlag (reg stop 0x0210) 3 else s
  s.sftLater stop (c + s.sftLat stop 3 1) (.bytes (u * 64) (payloadBytes p.2.payload))

/-- LDV (R180). -/
def State.opLdv (s : State) (stop w c : Nat) : State :=
  let s := s.sftOp stop none
  let u := s.afAddr stop (osel w 16 5)
  let t := s.touchRun stop c u 4
  let x := t.1.sftile stop
  let bs := if t.2 then freeBytes t.1.free (2 ^ 19) 256 else x.wmBytes (u * 64) 256
  let lanes := (List.range 64).map fun l => BitVec.ofNat 32 (leNat ((bs.drop (4 * l)).take 4))
  let s := t.1.wmReads stop [(u * 64, 256)]
  s.sftLater stop (c + s.sftLat stop 3 1) (.vreg (osel w 21 3) lanes)

/-! ## OP slot -/

/-- R182: a RUN in progress drops the operation and sets `run_busy`. -/
def State.runBusy (s : State) (stop c : Nat) : Bool :=
  match (s.sftile stop).run with
  | some r => decide (c ≤ r.last)
  | none => false

/-- ADD, MUL and MAX (R181). -/
def State.opAlu (s : State) (stop w c : Nat) (f : Word → Word → Word) : State :=
  if s.runBusy stop c then s.setFlag (reg stop 0x0210) 4
  else
    let s := s.sftOp stop none
    let x := s.sftile stop
    let lanes := (List.range 64).map fun l => f (x.lane (osel w 18 3) l) (x.lane (osel w 15 3) l)
    s.sftLater stop (c + s.sftLat stop 4 2) (.vreg (osel w 21 3) lanes)

/-- TBL (R82, R181). -/
def State.opTbl (s : State) (stop w c : Nat) : State :=
  if s.runBusy stop c then s.setFlag (reg stop 0x0210) 4
  else
    let s := s.sftOp stop none
    let x := s.sftile stop
    let t := osel w 15 3
    let lanes := (x.vec (osel w 18 3)).map (tblEval (x.tblRd t))
    let s := s.lmErrors stop (x.tblReads t (x.vec (osel w 18 3)))
    s.sftLater stop (c + s.sftLat stop 6 3) (.vreg (osel w 21 3) lanes)

/-- What a RUN computes: its occupancy beside its padding, results as (work-memory byte address, bytes), the byte ranges
that it reads, the words of a table that it reads, the codes that its monitor counts. -/
structure RunPlan where
  cycles : Nat
  results : List (Nat × List Byte)
  reads : List (Nat × Nat)
  table : List Nat := []
  codes : List Narrowed := []
  deriving DecidableEq, Repr

/-- SOFTMAX (R84, R183). -/
def planSoftmax (x : Sft) (c0 c1 : Word) : Option RunPlan :=
  let n := bitsOf c1 0 13
  if 1 ≤ n ∧ n ≤ 4096 then
    let a := bitsOf c0 0 16 * 64
    let xs := (List.range n).map fun k => x.wmWord (a + 4 * k)
    let m := xs.foldl fmax fnegInf
    some { cycles := 3 * ((n + 63) / 64) + 30, reads := [(a, 4 * n)]
           table := x.tblReads (bitsOf c1 16 3) (xs.map fun v => fsub v m)
           results := [(bitsOf c0 16 16 * 64, laneBytes (softmax (tblEval (x.tblRd (bitsOf c1 16 3))) xs))] }
  else none

/-- LNORM (R85, R183). -/
def planLnorm (x : Sft) (eps c0 c1 c2 : Word) : Option RunPlan :=
  let n := bitsOf c1 0 13
  if 1 ≤ n ∧ n ≤ 4096 then
    let a := bitsOf c0 0 16 * 64
    let g := bitsOf c2 0 16 * 64
    let b := bitsOf c2 16 16 * 64
    let xs := (List.range n).map fun k => x.wmWord (a + 4 * k)
    some { cycles := 4 * ((n + 63) / 64) + 36, reads := [(a, 4 * n), (g, 4 * n), (b, 4 * n)]
           results := [(bitsOf c0 16 16 * 64,
             laneBytes (layerNorm (fun k => x.wmWord (g + 4 * k)) (fun k => x.wmWord (b + 4 * k)) eps xs))] }
  else none

/-- Position p of a group-norm input: lanes from `n` upwards count as +0 (R183). -/
def gnLanes (x : Sft) (a n p : Nat) : List Word :=
  (List.range 64).map fun l => if l < n then x.wmWord (a + p * 256 + 4 * l) else 0

/-- GN_STAT (R85, R183). -/
def planGnStat (x : Sft) (eps c0 c1 c2 : Word) : Option RunPlan :=
  let n := bitsOf c1 0 7
  let ps := bitsOf c1 8 16
  let fin := bitOf c1 31
  if 1 ≤ n ∧ n ≤ 64 ∧ 1 ≤ ps ∧ ps ≤ 384 then
    let a := bitsOf c0 0 16 * 64
    let o := bitsOf c0 16 16 * 64
    let start (off : Nat) : List Word :=
      (List.range 64).map fun l => if bitOf c1 30 then x.wmWord (o + off + 4 * l) else 0
    let vecs := (List.range ps).map (gnLanes x a n)
    let s1 := laneSums (start 0) vecs
    let s2 := laneSums (start 256) (vecs.map fun v => v.map fun w => fmul w w)
    let st := groupStats (foldSum s1) (foldSum s2) eps (bitsOf c2 0 24)
    some { cycles := ps + (if fin then 30 else 10), reads := (List.range ps).map (fun p => (a + 256 * p, 4 * n)) ++ (if bitOf c1 30 then [(o, 512)] else [])
           results := [(o, laneBytes s1), (o + 256, laneBytes s2)] ++
             (if fin then [(o + 512, laneBytes [st.1, st.2])] else []) }
  else none

/-- GN_APPLY (R85, R183). The lanes from `n_chan` upwards of a result are not stated: free values. -/
def planGnApply (x : Sft) (free : Nat) (c0 c1 c2 c3 : Word) : Option RunPlan :=
  let n := bitsOf c1 0 7
  let ps := bitsOf c1 8 16
  if 1 ≤ n ∧ n ≤ 64 ∧ 1 ≤ ps ∧ ps ≤ 384 ∧ bitsOf c1 24 8 = 0 then
    let a := bitsOf c0 0 16 * 64
    let st := bitsOf c2 0 16 * 64
    let g := bitsOf c3 0 16 * 64
    let b := bitsOf c3 16 16 * 64
    let mean := x.wmWord st
    let rs := x.wmWord (st + 4)
    some { cycles := ps + 12, reads := (List.range ps).map (fun p => (a + 256 * p, 4 * n)) ++ [(st, 8), (g, 4 * n), (b, 4 * n)]
           results := [(bitsOf c0 16 16 * 64, laneBytes ((List.range ps).flatMap fun p => (List.range 64).map fun l =>
             if l < n then normOut (fsub (x.wmWord (a + p * 256 + 4 * l)) mean) rs (x.wmWord (g + 4 * l)) (x.wmWord (b + 4 * l))
             else BitVec.ofNat 32 (Config.unstated 183 (free * 65536 + p * 64 + l))))] }
  else none

/-- The byte ranges of the cells that a pooling row reads. -/
def Geom.fpReads (g : Geom) (dil : Nat) : List (Nat × Nat) :=
  (List.range g.wOut).flatMap fun x => (g.cells dil x).filterMap fun c => c.map fun p => (g.fpAddr p.1 p.2 0, 256)

/-- MAXPOOL and AVGPOOL (R87, R184). -/
def planPool (x : Sft) (g : Geom) (base : Nat) (f : List (Option Word) → Word) : Option RunPlan :=
  if g.ok then
    some { cycles := g.wOut * g.kh * g.kw + base, reads := g.fpReads 1
           results := [(g.outU * 64, laneBytes ((List.range g.wOut).flatMap fun ox => (List.range 64).map fun l =>
             f ((g.cells 1 ox).map fun c => c.map fun p => x.wmWord (g.fpAddr p.1 p.2 l))))] }
  else none

/-- RESIZE_N (R88, R184); the cells come out as results of R36 (R178). -/
def planResizeN (x : Sft) (free : Nat) (g : Geom) (rx ry : Word) : Option RunPlan :=
  if g.ok then
    let iy := nearest free g.y0 ry g.hIn
    let at_ (ox : Nat) : Nat := g.fpAddr iy (nearest free ox rx g.wIn) 0
    some { cycles := g.wOut + 10, reads := (List.range g.wOut).map fun ox => (at_ ox, 256)
           results := [(g.outU * 64, laneBytes ((List.range g.wOut).flatMap fun ox => (List.range 64).map fun l =>
             fcanon (x.wmWord (at_ ox + 4 * l))))] }
  else none

/-- RESIZE_B (R88, R184): horizontally first, then vertically. -/
def planResizeB (x : Sft) (free : Nat) (g : Geom) (rx ry : Word) : Option RunPlan :=
  if g.ok then
    let v := bilinear free g.y0 ry g.hIn
    let row (iy : Nat) (h : Nat × Nat × Word) (l : Nat) : Word :=
      lerp (x.wmWord (g.fpAddr iy h.1 l)) (x.wmWord (g.fpAddr iy h.2.1 l)) h.2.2
    some { cycles := 2 * g.wOut + 14
           reads := (List.range g.wOut).flatMap fun (ox : Nat) =>
             let h := bilinear free ox rx g.wIn
             [(g.fpAddr v.1 h.1 0, 256), (g.fpAddr v.1 h.2.1 0, 256), (g.fpAddr v.2.1 h.1 0, 256), (g.fpAddr v.2.1 h.2.1 0, 256)]
           results := [(g.outU * 64, laneBytes ((List.range g.wOut).flatMap fun (ox : Nat) =>
             let h := bilinear free ox rx g.wIn
             (List.range 64).map fun l => lerp (row v.1 h l) (row v.2.1 h l) v.2.2))] }
  else none

/-- TOPK (R89, R183). -/
def planTopk (x : Sft) (o : OutCtx) (c0 c1 : Word) : Option RunPlan :=
  let n := bitsOf c1 0 13
  let k := bitsOf c1 16 5
  if 1 ≤ n ∧ n ≤ 4096 ∧ 1 ≤ k ∧ k ≤ 16 then
    let a := bitsOf c0 0 16 * 64
    let top := topK k ((List.range n).map fun i => x.wmWord (a + 4 * i))
    let ns := top.map fun p => narrowFp p.1 o.scale o.zp o.lo o.hi
    let ents := (top.zip ns).map (fun p => p.1.2 + (byteOf p.2.y).toNat * 65536) ++
      List.replicate (k - top.length) (0xFFFF + (byteOf o.zp).toNat * 65536)
    some { cycles := (n + 63) / 64 * k + 18, reads := [(a, 4 * n)], codes := ns
           results := [(bitsOf c0 16 16 * 64, ents.flatMap fun e => leBytes e 4)] }
  else none

/-- Depthwise operand fields of a context (R24, R94). -/
structure DwCtx where
  signed : Bool
  zpMode : Nat
  zpA : Int
  zpW : Int
  deriving DecidableEq, Repr

/-- The accumulator of one depthwise output: taps in row-major order with saturation (R90). -/
def dwAcc (x : Sft) (q : DwCtx) (g : Geom) (wBase ch ox l : Nat) : Int :=
  g.window.foldl (fun acc p =>
    let a := match g.cell g.dil ox p.1 p.2 with
      | some c => codeOf q.signed (x.wm (g.codeAddr c.1 c.2 l)).toNat
      | none => q.zpA
    let w := int8 (x.wm (wBase + ch * 32 + p.1 * g.kw + p.2)).toNat
    sat32 (acc + operandA q.zpMode a q.zpA * operandW q.zpMode w q.zpW)) 0

/-- DWCONV (R90, R91, R184). `ovf` stays 0 in special-function tiles, as R48 states. -/
def planDwconv (x : Sft) (q : DwCtx) (o : OutCtx) (g : Geom) (c4 c5 : Word) : Option RunPlan :=
  if g.ok && g.kh == g.kw && (g.kh == 3 || g.kh == 5) && decide (g.sx ≤ 2) then
    let wb := bitsOf c4 0 16 * 64
    let pb := bitsOf c4 16 16 * 64
    let ch0 := bitsOf c5 0 16
    let ns := (List.range g.wOut).flatMap fun ox => (List.range 64).map fun l =>
      let ch := ch0 + l
      let sc := x.wmWord (pb + 8 * ch + 4)
      narrowAcc (dwAcc x q g wb ch ox l) false (int32 (x.wmWord (pb + 8 * ch))) (bitsOf sc 0 16) (bitsOf sc 16 6) o.zp o.lo o.hi
    some { cycles := g.wOut * g.kh + 16, codes := ns.map fun n => { n with ovf := false }
           reads := (List.range 64).map (fun l => (wb + 32 * (ch0 + l), g.kh * g.kw)) ++ [(pb + 8 * ch0, 512)] ++
             (List.range g.wOut).flatMap fun ox =>
               (g.cells g.dil ox).filterMap fun c => c.map fun p => (g.codeAddr p.1 p.2 0, 64)
           results := [(g.outU * 64, ns.map fun n => byteOf n.y)] }
  else none

/-- The plan of a RUN's function, none where its parameters break a limit (R183, R184). -/
def State.runPlan (s : State) (stop fn cr n : Nat) : Option RunPlan :=
  let x := s.sftile stop
  let c (i : Nat) : Word := s.ctx stop ((cr + i) % 32)
  let g := geomOf (c 0) (c 1) (c 2) (c 3)
  let w4 := s.sctx stop n 4
  let w0 := s.sctx stop n 0
  let q : DwCtx := { signed := bitOf w0 0, zpMode := bitsOf w4 4 2, zpA := codeOf (bitOf w0 0) (bitsOf w0 8 8),
                     zpW := int8 (bitsOf w4 6 8) }
  match fn with
  | 0 => planSoftmax x (c 0) (c 1)
  | 1 => planLnorm x (s.sctx stop n 3) (c 0) (c 1) (c 2)
  | 2 => planGnStat x (s.sctx stop n 3) (c 0) (c 1) (c 2)
  | 3 => planGnApply x s.free (c 0) (c 1) (c 2) (c 3)
  | 4 => planPool x g 10 maxPool
  | 5 => planPool x g 14 (avgPool (bitOf w4 14))
  | 6 => planResizeN x s.free g (c 4) (c 5)
  | 7 => planResizeB x s.free g (c 4) (c 5)
  | 8 => planTopk x (s.outCtx stop n) (c 0) (c 1)
  | 9 => planDwconv x q (s.outCtx stop n) g (c 4) (c 5)
  | _ => none

/-- R184: the input rows that a spatial function's window takes. -/
def State.windowRows (s : State) (stop fn cr : Nat) : List Int × Geom :=
  let c (i : Nat) : Word := s.ctx stop ((cr + i) % 32)
  let g := geomOf (c 0) (c 1) (c 2) (c 3)
  let down (dil : Nat) : List Int := (List.range g.kh).map fun i => g.y0 + (i * dil : Nat)
  (if fn = 4 ∨ fn = 5 then down 1
    else if fn = 9 then down g.dil
    else if fn = 7 then (let v := bilinear s.free g.y0 (c 5) g.hIn; [(v.1 : Int), (v.2.1 : Int)])
    else [], g)

/-- The units that byte ranges cover, as (first, count). -/
def unitsOf (rs : List (Nat × Nat)) : List (Nat × Nat) := rs.map fun r => (r.1 / 64, (r.1 % 64 + r.2 + 63) / 64)

/-- R182: a write that is on its way when a RUN starts lands in its units before its last cycle: that unit. -/
def Sft.landsIn (x : Sft) (uses : List (Nat × Nat)) (last : Nat) : Option Nat :=
  x.wr.findSome? fun w => match w.target with
    | .bytes a data => (unitsOf [(a, data.length)]).findSome? fun v =>
        if decide (w.at_ ≤ last) && uses.any (fun u => decide (v.1 < u.1 + u.2) && decide (u.1 < v.1 + v.2)) then some v.1 else none
    | .vreg _ _ => none

/-- RUN (R182) in tile cycle c. -/
def State.opRun (s : State) (stop w c : Nat) : State :=
  if s.runBusy stop c then s.setFlag (reg stop 0x0210) 4
  else
    let n := osel w 0 2
    let fn := osel w 20 4
    match s.runPlan stop fn (osel w 15 5) n with
    | none => (s.setFlag (reg stop 0x0210) 5).event 11 stop fn (some (s.pipeOf stop))
    | some p =>
      let s := s.sftOp stop (some n)
      let r := s.windowRows stop fn (osel w 15 5)
      let s := (r.2.notResident r.1).elim s fun y => s.hazard stop 11 y
      let outs := p.results.map fun r => (r.1, r.2.length)
      let s := if outs.any (fun r => decide (r.1 + r.2 > workSize)) then s.setFlag (reg stop 0x0210) 3 else s
      let s := ((s.wmReads stop p.reads).lmErrors stop p.table).monCount stop (s.outCtx stop n).mon (s.blockTag stop) (s.epochOf stop) p.codes
      let uses := unitsOf (p.reads ++ outs)
      let last := c + s.sftLat stop p.cycles 6
      let hit := (s.sftile stop).landsIn uses last
      let s := hit.elim s fun u => s.hazard stop 10 u
      s.setSft stop { s.sftile stop with
        run := some { last := last, results := p.results, uses := uses, touched := hit.isSome } }

/-! ## OUT slot -/

/-- NSEND (R86, R185) in tile cycle c. -/
def State.opNsend (s : State) (stop w c : Nat) (ok : Bool) : State :=
  let n := osel w 0 2
  let s := s.sftOp stop (some n)
  let x := s.sftile stop
  let o := s.outCtx stop n
  let w4 := s.sctx stop n 4
  let t := bitsOf w4 0 3
  let vals := x.vec (osel w 21 3)
  let vals := if bitOf w4 3 then vals.map (tblEval (x.tblRd t)) else vals
  let s := if bitOf w4 3 then s.lmErrors stop (x.tblReads t (x.vec (osel w 21 3))) else s
  let ns := vals.map fun v => narrowFp v o.scale o.zp o.lo o.hi
  let s := s.monCount stop o.mon (s.blockTag stop) (s.epochOf stop) ns
  let e := (s.sftSending stop (c + s.sftLat stop 5 4)).eopOf stop ok (osel w 17 4) (osel w 15 2)
  e.1.sendOn stop (osel w 17 4) e.2 ((e.1.ctx stop (osel w 10 5)).setWidth 16) (payloadOf (ns.map fun r => byteOf r.y))
    (c + e.1.sftLat stop 5 4)

/-- STV (R185). -/
def State.opStv (s : State) (stop w c : Nat) : State :=
  let s := s.sftOp stop none
  let u := s.afAddr stop (osel w 16 5)
  let s := (s.touchRun stop c u 4).1
  let s := if u + 4 > 1536 then s.setFlag (reg stop 0x0210) 3 else s
  s.sftLater stop (c + s.sftLat stop 3 5) (.bytes (u * 64) (laneBytes ((s.sftile stop).vec (osel w 21 3))))

/-- SENDM (R185). -/
def State.opSendm (s : State) (stop w c : Nat) (ok : Bool) : State :=
  let s := s.sftOp stop none
  let u := s.afAddr stop (osel w 19 5)
  let t := s.touchRun stop c u 1
  let bs := if t.2 then freeBytes t.1.free (2 ^ 19 + 256) 64 else (t.1.sftile stop).wmBytes (u * 64) 64
  let s := t.1.wmReads stop [(u * 64, 64)]
  let e := (s.sftSending stop (c + s.sftLat stop 3 5)).eopOf stop ok (osel w 15 4) (osel w 13 2)
  e.1.sendOn stop (osel w 15 4) e.2 ((e.1.ctx stop (osel w 8 5)).setWidth 16) (payloadOf bs) (c + e.1.sftLat stop 3 5)

end Sys2Proof.Machine
end

