-- ==== Sys2Proof/Machine/SyncUnits.lean ====
section
/-! DEFINITION. The sync units (R151 to R153, R159). -/

namespace Sys2Proof.Machine

def syuVal (obj : Nat) : Nat := 0x00800000 + 4 * (obj % 65536)
def syuPend (unit : Nat) : Nat := 0x00880000 + 16 * unit

/-- R151: a wait is satisfied. -/
def waitHolds (value thr : Word) : Bool := 0 ≤ (value - thr).toInt

/-- Entries of a unit's wait table, as SYU_PENDu shows them. -/
def State.pendCount (s : State) (unit : Nat) : State :=
  let n := (s.sync.waits.filter fun w => syuOf w.obj == unit).length
  let s := s.wf (syuPend unit) 0 12 n
  if s.rf (syuPend unit) 16 12 < n then s.wf (syuPend unit) 16 12 n else s

/-- R159: the four units show their wait tables' entries. -/
def State.pendCounts (s : State) : State := (List.range 4).foldl State.pendCount s

/-- R151: a unit sends a reply or an acknowledgement. -/
def State.reply (s : State) (stop slot obj : Nat) (ack : Bool) : State :=
  s.post (syuStop (syuOf obj)) stop 2 true (.reply { stop := stop, slot := slot, obj := obj, ack := ack })

/-- R152: after an operation the waits on its object are evaluated, in the order of their arrival. -/
def State.evalWaits (s : State) (obj : Nat) : State :=
  let v := s.rd (syuVal obj)
  let met (w : WaitEnt) : Bool := w.obj == obj && waitHolds v w.thr
  let go := s.sync.waits.filter met
  let s := { s with sync := { s.sync with waits := s.sync.waits.filter fun w => !met w } }
  (go.foldl (fun s w => s.reply w.src w.slot obj false) s).pendCount (syuOf obj)

/-- R152: an operation joins those of its unit; among the n that reached the unit last, given newest first, it stands by its
source. -/
def backInsert (m : SyncMsg) : Nat → List SyncMsg → List SyncMsg
  | _, [] => [m]
  | n, x :: r =>
    if syuOf x.obj ≠ syuOf m.obj then x :: backInsert m n r
    else if n ≠ 0 ∧ m.src < x.src then x :: backInsert m (n - 1) r
    else m :: x :: r

/-- R152: an operation reaches its unit. -/
def State.syncArrive (s : State) (m : SyncMsg) : State :=
  let u := syuOf m.obj
  let c := tget (0, 0) s.sync.came u
  let n := if c.1 = s.ck + 1 then c.2 else 0
  let msgs := if n = 0 then s.sync.msgs ++ [m] else (backInsert m n s.sync.msgs.reverse).reverse
  { s with sync := { s.sync with msgs := msgs, came := tput (0, 0) s.sync.came u (s.ck + 1, n + 1) } }

/-- One operation applied by a unit (R151, R159). -/
def State.syncOp (s : State) (m : SyncMsg) : State :=
  let s := s.count (syuPend (syuOf m.obj) + 4) 0 32
  match m with
  | .signal o n _ => (s.wr (syuVal o) (s.rd (syuVal o) + n)).evalWaits o
  | .reset o src =>
    let s := if s.sync.waits.any fun w => w.obj == o then s.hazard src 5 o else s
    (s.wr (syuVal o) 0).evalWaits o
  | .wait o thr src slot =>
    let v := s.rd (syuVal o)
    let far := decide (2 ^ 31 ≤ max v.toNat thr.toNat - min v.toNat thr.toNat)
    let s := if far then s.hazard src 5 o else s
    if waitHolds v thr then s.reply src slot o false
    else
      let w : WaitEnt := { obj := o, thr := thr, src := src, slot := slot }
      let s := { s with sync := { s.sync with waits := s.sync.waits ++ [w] } }
      s.pendCount (syuOf o)
  | .cancel o src slot =>
    let s := { s with sync := { s.sync with waits := s.sync.waits.filter fun w => !(w.obj == o && w.src == src && w.slot == slot) } }
    (s.reply src slot o true).pendCount (syuOf o)

/-- R152: the k-th operation may be applied: no other of its unit comes before it. -/
def State.syncReady (s : State) (k : Nat) : Bool :=
  match s.sync.msgs[k]? with
  | some m => !(s.sync.msgs.take k).any fun x => syuOf x.obj == syuOf m.obj
  | none => false

/-- Replies of one unit reach one stop in the order in which the unit sent them (R218). -/
def State.replyReady (s : State) (k : Nat) : Bool :=
  match s.sync.replies[k]? with
  | some r => !(s.sync.replies.take k).any fun x => x.stop == r.stop && syuOf x.obj == syuOf r.obj
  | none => false

/-- The k-th operation at the units, if it is of the kind that the command names. -/
def State.applySync (s : State) (k : Nat) (p : SyncMsg → Bool) : State :=
  match takeAt s.sync.msgs k with
  | none => s
  | some (m, rest) =>
    if p m && s.syncReady k then
      let s := { s with sync := { s.sync with msgs := rest } }
      s.syncOp m
    else s

def SyncMsg.isSignal : SyncMsg → Bool
  | .signal _ _ _ => true
  | _ => false
def SyncMsg.isReset : SyncMsg → Bool
  | .reset _ _ => true
  | _ => false
def SyncMsg.isWait : SyncMsg → Bool
  | .wait _ _ _ _ => true
  | _ => false
def SyncMsg.isCancel : SyncMsg → Bool
  | .cancel _ _ _ => true
  | _ => false

end Sys2Proof.Machine
end

