-- ==== Sys2Proof/Machine/Schedule.lean ====
section
/-! DEFINITION. Schedules: waits and freezes (R146 to R148, R150), the issue of a bundle and the order of a tile cycle
(R137, R142), loops (R138), starting and stopping (R134, R155), and the tile cycles of a tile that issues nothing. -/

namespace Sys2Proof.Machine

def schErr (stop : Nat) : Nat := reg stop 0xD008
def armReg (stop k : Nat) : Nat := reg stop (0xD240 + 4 * k)
def loopReg (stop k : Nat) : Nat := reg stop (0xD200 + 8 * k)

/-- A schedule stops in a state; an array tile's held notices are discarded (R58). -/
def State.stopWith (s : State) (stop st : Nat) : State :=
  (if kindOf stop = .at then s.setAt stop { s.atile stop with held := 0 } else s).setSchState stop st

/-! ## Operations of a bundle -/

/-- Operations by slot and opcode (R165, R170, R179); a CTL operation by its code. -/
inductive TileOp where
  | vec | loadw | drop | sendv
  | expand | fetch | shalt | hpop | hret | sendq | senda | sendb
  | cvta | cvtb | raw | ldv | add | mul | max | tbl | run (fn : Nat) | nsend | stv | sendm
  deriving DecidableEq, Repr

/-- The operation that opcode `opc` of slot `i` (0 IN, 1 OP, 2 OUT) names in a tile of a kind. A code that the kind does not
define is refused at load and does nothing. -/
def opOf (k : Kind) (i opc w : Nat) : Option TileOp :=
  match k, i, opc with
  | .at, 0, 1 => some .vec
  | .at, 1, 1 => some .loadw
  | .at, 1, 2 => some .drop
  | .at, 2, 1 => some .sendv
  | .mt, 0, 1 => some .expand
  | .mt, 0, 2 => some .fetch
  | .mt, 0, 3 => some .shalt
  | .mt, 1, 1 => some .hpop
  | .mt, 1, 2 => some .hret
  | .mt, 2, 1 => some .sendq
  | .mt, 2, 2 => some .senda
  | .mt, 2, 3 => some .sendb
  | .sft, 0, 1 => some .cvta
  | .sft, 0, 2 => some .cvtb
  | .sft, 0, 3 => some .raw
  | .sft, 0, 4 => some .ldv
  | .sft, 1, 1 => some .add
  | .sft, 1, 2 => some .mul
  | .sft, 1, 3 => some .max
  | .sft, 1, 4 => some .tbl
  | .sft, 1, 5 => some (.run (osel w 20 4))
  | .sft, 2, 1 => some .nsend
  | .sft, 2, 2 => some .stv
  | .sft, 2, 3 => some .sendm
  | _, _, _ => none

def slotOp (stop : Nat) (b : Bundle) (i : Nat) : Option TileOp := opOf (kindOf stop) i (bOpc b i) (bSlot b i)

/-- The bundle holds the operation in one of its slots. -/
def holdsOp (stop : Nat) (b : Bundle) (o : TileOp) : Bool := (List.range 3).any fun i => slotOp stop b i == some o

/-- R141: the address form of a slot, for the operations that take one. -/
def formOf (o : TileOp) (w : Nat) : Option Nat :=
  match o with
  | .expand => some (osel w 15 5)
  | .loadw | .senda | .sendm => some (osel w 19 5)
  | .sendb => some (osel w 14 5)
  | .raw | .ldv | .stv => some (osel w 16 5)
  | _ => none

/-- Post-increment of a slot (R141). -/
def State.slotPost (s : State) (stop : Nat) (b : Bundle) (i : Nat) : List (Nat × Word) :=
  match slotOp stop b i with
  | some o => match formOf o (bSlot b i) with
    | some af => s.afPost stop af
    | none => []
  | none => []

/-- One slot's operation in tile cycle c; `ok` is `block_ok` at the start of the cycle. -/
def State.doOp (s : State) (stop : Nat) (o : TileOp) (w c : Nat) (ok : Bool) : State :=
  match o with
  | .vec => s.opVec stop w c
  | .loadw => s.opLoadw stop w c
  | .drop => s.opDrop stop w
  | .sendv => s.opSendv stop w c ok
  | .expand => s.opExpand stop w c
  | .fetch => s.startStream stop (osel w 20 4)
  | .shalt => s.haltStream stop (osel w 20 4)
  | .hpop => s.opHpop stop w c
  | .hret => s.opHret stop w c
  | .sendq => s.opSendq stop w c
  | .senda => s.opSenda stop w c
  | .sendb => s.opSendb stop w c
  | .cvta => s.opCvt stop w c false
  | .cvtb => s.opCvt stop w c true
  | .raw => s.opRaw stop w c
  | .ldv => s.opLdv stop w c
  | .add => s.opAlu stop w c fadd
  | .mul => s.opAlu stop w c fmul
  | .max => s.opAlu stop w c fmax
  | .tbl => s.opTbl stop w c
  | .run _ => s.opRun stop w c
  | .nsend => s.opNsend stop w c ok
  | .stv => s.opStv stop w c
  | .sendm => s.opSendm stop w c ok

def State.doSlot (s : State) (stop : Nat) (b : Bundle) (i c : Nat) (ok : Bool) : State :=
  match slotOp stop b i with
  | some o => s.doOp stop o (bSlot b i) c ok
  | none => s

/-! ## Tile cycles -/

/-- Start of the next unfrozen tile cycle. -/
def State.beginCycle (s : State) (stop : Nat) : State :=
  let s := if kindOf stop = .mt then s.closeCycle stop else s
  let s := s.modSch stop fun x => { x with cyc := x.cyc + 1, fresh := [] }
  if kindOf stop = .at then s.atBegin stop (s.cycOf stop) else s

/-- The datapath's part of a tile cycle, after the slots: answers the context register writes that are due. -/
def State.endCycle (s : State) (stop : Nat) : State × List (Nat × Word) :=
  let c := s.cycOf stop
  match kindOf stop with
  | .at => ((s.atFlow stop c).pairDue stop c, [])
  | .mt => (s.mtEnd stop c).mtCtxDue stop c
  | .sft => ((s.sftEnd stop c).pairDue stop c, [])
  | _ => (s, [])

/-- A tile cycle in which nothing issues. -/
def State.idleCycle (s : State) (stop : Nat) : State :=
  let e := (s.beginCycle stop).endCycle stop
  e.1.ctxWrites stop e.2

/-- Something is under way in a tile's datapath, or a flit of it has not left the send stage. -/
def State.inFlight (s : State) (stop : Nat) : Bool :=
  (s.pairAt stop).isSome || s.mesh.cross.any (fun x => x.stop == stop && decide (s.cycOf stop < x.ready)) ||
  match kindOf stop with
  | .at => let a := s.atile stop; !a.fl.isEmpty || a.ld.isSome || !a.swaps.isEmpty
  | .mt => (s.mtile stop).busy
  | .sft => let x := s.sftile stop; !x.wr.isEmpty || x.run.isSome || !x.outs.isEmpty
  | _ => false

/-! ## Waits -/

/-- R145, R144: threshold of a WAITS. -/
def State.waitsThr (s : State) (stop : Nat) (b : Bundle) : Word :=
  if bFormat b = 1 then BitVec.ofNat 32 (bXimm b) else s.ctx stop (osel (bCtl b) 3 5)

/-- The level that WAITQ and WAITH test (R145). -/
def State.waitLevel (s : State) (stop q : Nat) : Nat :=
  if kindOf stop = .mt then s.qLevel stop q else (s.lqAt stop (q % 8)).q.length

/-- R145, R147, R148: the condition of the bundle's wait. -/
def State.waitMet (s : State) (stop : Nat) (b : Bundle) : Bool :=
  let c := bCtl b
  let o := bCtlOp b
  if o = ctlWaitq then decide (osel c 0 16 ≤ s.waitLevel stop (osel c 18 6))
  else if o = ctlWaith then decide (1 ≤ s.waitLevel stop (osel c 18 6))
  else if o = ctlWaita then
    let k := osel c 0 2
    s.rf (armReg stop k) 16 2 != 1 && !(s.sch stop).fresh.contains k
  else if o = ctlWaits then (s.sch stop).hid == 2
  else true

/-- What a wait that is met does before its bundle's first issue (R148). -/
def State.passWait (s : State) (stop : Nat) (b : Bundle) : State :=
  let o := bCtlOp b
  if o = ctlWaita then
    let a := armReg stop (osel (bCtl b) 0 2)
    if s.rf a 16 2 = 2 then s.wf a 16 2 0 else s.setFlag (schErr stop) 4
  else if o = ctlWaits then s.modSch stop fun x => { x with hid := 0, metAt := some (x.cyc + 1) }
  else s

/-- A frozen tile cycle (R146). -/
def State.frozenCycle (s : State) (stop : Nat) : State :=
  let s := s.modSch stop fun x => { x with fresh := [] }
  if kindOf stop = .mt then (s.closeCycle stop).mtRun stop else s

/-- R147, R148: the tile freezes; WAITS sends its request. -/
def State.enterWait (s : State) (stop : Nat) (b : Bundle) : State :=
  let s := s.frozenCycle stop
  let s := if bCtlOp b = ctlWaits then
      (s.sync1 (.wait (ctlObj (bCtl b)) (s.waitsThr stop b) stop 4)).modSch stop fun x => { x with hid := 1, reqs := x.reqs ++ [4] }
    else s
  let s := (s.setSchState stop schWait).wf (reg stop 0xD004) 16 4 (bCtlOp b)
  (s.count (reg stop 0xD010) 0 32).modSch stop fun x => { x with waitLen := 1, wdDone := false }

/-! ## CTL effects and the next bundle -/

/-- R148: ARM. -/
def State.doArm (s : State) (stop c : Nat) : State × List (Nat × Word) :=
  let k := osel c 22 2
  let obj := osel c 6 16
  let cr := 24 + osel c 3 3
  let a := armReg stop k
  if s.rf a 16 2 = 0 then
    let s := (s.wr a (BitVec.ofNat 32 (obj + 65536))).sync1 (.wait obj (s.ctx stop cr) stop k)
    (s.modSch stop fun x => { x with reqs := x.reqs ++ [k] }, [(cr, s.ctx stop cr + BitVec.ofNat 32 (incOf (osel c 0 3)))])
  else (s.setFlag (schErr stop) 4, [])

/-- CTL effects of an issue (R137): SIG, RST, ARM and CADD at the last, the increment of WAITS at the first. Answers the
context register writes. -/
def State.doCtl (s : State) (stop : Nat) (b : Bundle) (first last : Bool) : State × List (Nat × Word) :=
  let c := bCtl b
  let o := bCtlOp b
  let f1 := bFormat b = 1
  if o = ctlWaits then
    (s, if first && !f1 then [(osel c 3 5, s.ctx stop (osel c 3 5) + BitVec.ofNat 32 (incOf (osel c 0 3)))] else [])
  else if !last then (s, [])
  else if o = ctlSig then
    (s.sync1 (.signal (ctlObj c) (BitVec.ofNat 32 (if f1 then bXimm b else osel c 0 8)) stop), [])
  else if o = ctlRst then (s.sync1 (.reset (ctlObj c) stop), [])
  else if o = ctlArm then s.doArm stop c
  else if o = ctlCadd then
    let v : Word := if f1 then BitVec.ofNat 32 (bXimm b) else (BitVec.ofNat 19 c).signExtend 32
    (s, [(osel c 19 5, s.ctx stop (osel c 19 5) + v)])
  else (s, [])

/-- R143: the writes of a literal bundle. -/
def literalWrites (b : Bundle) : List (Nat × Word) :=
  if bFormat b = 2 then
    (bsel b 113 5, b.extractLsb' 60 32) :: (if bsel b 107 1 = 1 then [(bsel b 108 5, b.extractLsb' 28 32)] else [])
  else []

/-- R138: the iterations that a loop's setup bundle gives. -/
def State.loopCount (s : State) (stop : Nat) (b : Bundle) : Nat :=
  let c := bCtl b
  if bCtlOp b = ctlLoopc then bitsOf (s.ctx stop (osel c 0 5)) 0 20
  else if bFormat b = 1 then bXimm b % 2 ^ 20 else osel c 0 12

/-- R138: a loop is entered: the stack grows. -/
def State.pushLoop (s : State) (stop pc n endAddr : Nat) (unb : Bool) : State :=
  let d := s.depth stop
  if 4 ≤ d then s
  else
    let s := s.wr (loopReg stop d) (BitVec.ofNat 32 (n % 2 ^ 20 + boolNat unb * 2 ^ 30 + 2 ^ 31))
    let s := s.wr (loopReg stop d + 4) (BitVec.ofNat 32 ((pc + 1) % 4096 + endAddr % 4096 * 65536))
    s.wf (reg stop 0xD004) 20 3 (d + 1)

/-- R138: the loops that end at pc, innermost first; answers the next address. -/
def State.closeLoops (s : State) (stop pc : Nat) : Nat → State × Nat
  | 0 => (s, pc + 1)
  | d + 1 =>
    let r := loopReg stop d
    if s.rf (r + 4) 16 12 ≠ pc then (s, pc + 1)
    else
      let n := s.rf r 0 20
      if s.flag r 30 then (s, s.rf (r + 4) 0 12)
      else if 1 < n then (s.wf r 0 20 (n - 1), s.rf (r + 4) 0 12)
      else (((s.wf r 0 20 0).clrFlag r 31).wf (reg stop 0xD004) 20 3 d).closeLoops stop pc d

/-- The schedule goes on at an address, past 4,095 it is done (R138). -/
def State.goTo (s : State) (stop next : Nat) : State :=
  if next = 4096 then (s.stopWith stop schDone).setFlag (schErr stop) 2 else s.setPc stop next

/-- R138: after the last issue of the bundle at pc; `n` is its loop count, read at the start of that cycle. -/
def State.advance (s : State) (stop : Nat) (b : Bundle) (n : Nat) : State :=
  let pc := s.pcOf stop
  let o := bCtlOp b
  let e := osel (bCtl b) 12 12
  if o = ctlLoop then (s.pushLoop stop pc n e (n == 0)).goTo stop (pc + 1)
  else if o = ctlLoopc then
    (if n = 0 then s.goTo stop (e + 1) else (s.pushLoop stop pc n e false).goTo stop (pc + 1))
  else if o = ctlEnd then s.stopWith stop schDone
  else
    let r := s.closeLoops stop pc (s.depth stop)
    r.1.goTo stop r.2

/-! ## Issue -/

/-- One issue of a bundle: a tile cycle with the slots in it. With `ctlEnds` false the effects that R137 places at the end
of the last issue do not take place (R155). Answers the state before the next bundle is chosen, and the loop count. -/
def State.issueCycle (s : State) (stop : Nat) (b : Bundle) (ctlEnds : Bool) : State × Nat :=
  let ok := s.blockOk stop
  let rep := (s.sch stop).rep
  let n := s.loopCount stop b
  let s := s.beginCycle stop
  let c := s.cycOf stop
  let pin := s.slotPost stop b 0
  let pop := s.slotPost stop b 1
  let pout := s.slotPost stop b 2
  let s := s.doSlot stop b 0 c ok
  let s := s.doSlot stop b 1 c ok
  let s := s.doSlot stop b 2 c ok
  let ctl := s.doCtl stop b (rep == 0) (ctlEnds && decide (bRepeat b ≤ rep))
  let e := ctl.1.endCycle stop
  let s := e.1.ctxWrites stop (pin ++ e.2 ++ pop ++ pout ++ ctl.2 ++ literalWrites b)
  (s.wr (reg stop 0xD014) (s.rd (reg stop 0xD014) + 1), n)

/-- An issue, and after the last one the choice of the next bundle (R137, R138). -/
def State.issue (s : State) (stop : Nat) (b : Bundle) : State :=
  let rep := (s.sch stop).rep
  let r := s.issueCycle stop b true
  if bRepeat b ≤ rep then (r.1.modSch stop fun x => { x with rep := 0 }).advance stop b r.2
  else r.1.modSch stop fun x => { x with rep := rep + 1 }

/-! ## Stopping -/

/-- The object of a request that an arm slot holds (4: the WAITS that waits). -/
def State.reqObj (s : State) (stop k : Nat) : Nat :=
  if k < 4 then s.rf (armReg stop k) 0 16 else ctlObj (bCtl (s.nextBundle stop))

/-- R155: a cancel for each outstanding request. -/
def State.sendCancels (s : State) (stop : Nat) : State :=
  let rs := (s.sch stop).reqs.map fun k => (k, s.reqObj stop k)
  let s := rs.foldl (fun s x => s.sync1 (.cancel x.2 stop x.1)) s
  s.modSch stop fun x => { x with cancels := x.cancels ++ rs, reqs := [], hid := 0 }

/-- R134: an uncorrectable bundle. -/
def State.schFaultAt (s : State) (stop pc : Nat) : State :=
  let s := ((s.setFlag (schErr stop) 1).wr (reg stop 0xD01C) (BitVec.ofNat 32 pc)).tallyOwner stop 21
  let s := (s.notice stop .error (s.pipeOf stop) none).event 15 stop pc (some (s.pipeOf stop))
  (s.sendCancels stop).stopWith stop schFault

/-- R134: the ECC check of the bundle at pc; false where it does not issue. -/
def State.checkBundle (s : State) (stop : Nat) : State × Bool :=
  let pc := s.pcOf stop
  let x := s.sch stop
  let ce := (List.range 2).filter fun h => x.pmCe.contains (2 * pc + h)
  let s := ce.foldl (fun s _ => (s.count (reg stop 0xD018) 0 32).setFlag (schErr stop) 0) s
  if (List.range 2).any fun h => x.pmUe.contains (2 * pc + h) then (s.schFaultAt stop pc, false) else (s, true)

/-- R147: the tile cycle in which the bundle at pc issues, or in which its wait freezes the tile. -/
def State.runBundle (s : State) (stop : Nat) : State :=
  if !isTile stop || s.schState stop != schRun then s
  else if (s.sch stop).rep ≠ 0 then s.issue stop (s.nextBundle stop)
  else
    let b := s.nextBundle stop
    let c := s.checkBundle stop
    if !c.2 then c.1
    else if c.1.waitMet stop b then (c.1.passWait stop b).issue stop b
    else c.1.enterWait stop b

/-- R147: a waiting bundle issues in the first tile cycle in which its condition holds. -/
def State.waitDone (s : State) (stop : Nat) : State :=
  let b := s.nextBundle stop
  if isTile stop && s.schState stop == schWait && s.waitMet stop b then
    ((s.passWait stop b).setSchState stop schRun).issue stop b
  else s

/-- A command that names an operation runs the bundle at pc if that bundle holds it. -/
def State.runIf (s : State) (stop : Nat) (p : Bundle → Bool) : State :=
  if isTile stop && p (s.nextBundle stop) then s.runBundle stop else s

def State.runOp (s : State) (stop : Nat) (o : TileOp) : State := s.runIf stop fun b => holdsOp stop b o
def State.runCtl (s : State) (stop o : Nat) : State := s.runIf stop fun b => bCtlOp b == o

/-- R155: `go`. Requests that a schedule in DONE left behind are cancelled (log 24). -/
def State.goTile (s : State) (stop : Nat) : State :=
  let st := s.schState stop
  if st = schIdle ∨ st = schDone ∨ st = schStopped then
    let s := s.sendCancels stop
    let entry := s.rf (reg stop 0xD000) 16 12
    let s := s.wr (reg stop 0xD004) (BitVec.ofNat 32 (schRun + entry * 16))
    let s := (List.range 4).foldl (fun s k => ((s.wr (loopReg stop k) 0).wr (loopReg stop k + 4) 0).wr (armReg stop k) 0) s
    let s := (s.wr (reg stop 0xD010) 0).wr (reg stop 0xD014) 0
    let s := s.modSch stop fun x => { x with rep := 0, hid := 0, waitLen := 0, wdDone := false, fresh := [], metAt := none }
    if kindOf stop = .mt then s.expanderReturn stop else s
  else s

/-- R155: the schedule is stopped once its cancels are acknowledged. -/
def State.settle (s : State) (stop : Nat) : State :=
  if s.schState stop = schStopping ∧ (s.sch stop).cancels.isEmpty then s.setSchState stop schStopped else s

/-- R155: `halt`. The issue of a bundle at pc that is under way completes. -/
def State.haltTile (s : State) (stop : Nat) : State :=
  let st := s.schState stop
  if st = schRun then
    let b := s.nextBundle stop
    let rep := (s.sch stop).rep
    let c := if rep = 0 then s.checkBundle stop else (s, true)
    if !c.2 then c.1
    else if rep = 0 && !c.1.waitMet stop b then ((c.1.sendCancels stop).stopWith stop schStopping).settle stop
    else
      let s := if rep = 0 then c.1.passWait stop b else c.1
      (((s.issueCycle stop b false).1.sendCancels stop).stopWith stop schStopping).settle stop
  else if st = schWait then ((s.sendCancels stop).stopWith stop schStopping).settle stop
  else s

/-- R155, R151: the acknowledgement of a cancel reaches its tile. -/
def State.cancelAck (s : State) (stop : Nat) : State :=
  match (List.range s.sync.replies.length).find? fun k =>
      (s.sync.replies[k]?.any fun r => r.stop == stop && r.ack) && s.replyReady k with
  | none => s
  | some k =>
    match takeAt s.sync.replies k with
    | none => s
    | some (r, rest) =>
      let s := { s with sync := { s.sync with replies := rest } }
      (s.modSch stop fun x => { x with cancels := x.cancels.erase (r.slot, r.obj) }).settle stop

/-- R148, R155: a reply reaches its tile. One that has crossed its request's cancel is discarded. -/
def State.syncReplyAt (s : State) (r : Reply) : State :=
  let st := s.schState r.stop
  if st = schStopping ∨ st = schStopped ∨ st = schFault ∨ (r.slot, r.obj) ∈ (s.sch r.stop).cancels then s
  else if r.slot < 4 then
    if s.rf (armReg r.stop r.slot) 16 2 = 1 then
      (s.wf (armReg r.stop r.slot) 16 2 2).modSch r.stop fun x => { x with reqs := x.reqs.erase r.slot, fresh := r.slot :: x.fresh }
    else s
  else if (s.sch r.stop).hid = 1 then s.modSch r.stop fun x => { x with hid := 2, reqs := x.reqs.erase 4 }
  else s

/-- R150: a wait has lasted longer than SCH_WDOG holds. -/
def State.watchdog (s : State) (stop : Nat) : State :=
  let limit := (s.rd (reg stop 0xD00C)).toNat
  let x := s.sch stop
  if s.schState stop = schWait ∧ limit ≠ 0 ∧ limit < x.waitLen ∧ !x.wdDone then
    ((s.setFlag (schErr stop) 3).event 0 stop (s.pcOf stop) (some (s.pipeOf stop))).modSch stop fun x => { x with wdDone := true }
  else s

/-- What time does to a tile's schedule: a waiting tile evaluates its wait, and issues or counts a frozen tile cycle (R147); a
tile that neither runs nor waits lets what it has issued run on. -/
def State.tileTick (s : State) (stop : Nat) : State :=
  let st := s.schState stop
  if st = schRun then s
  else if st = schWait then
    if s.waitMet stop (s.nextBundle stop) then s.waitDone stop
    else
      let s := s.frozenCycle stop
      (s.count (reg stop 0xD010) 0 32).modSch stop fun x => { x with waitLen := x.waitLen + 1 }
  else if s.inFlight stop then s.idleCycle stop else s

end Sys2Proof.Machine
end

