-- ==== Sys2Proof/Machine/Pipelines.lean ====
section
/-! DEFINITION. Pipelines: their states and the governor's votes for them (R412, R427), crust mode (R18), the steps of
CANCEL and STOP (R251, R46, R265, R417) and the change of epochs (R126, R163, R193, R197). -/

namespace Sys2Proof.Machine

def pipeReg (p : Nat) : Nat := 0x8400 + 4 * p
def epochReg (p : Nat) : Nat := 0x8100 + 4 * p

/-- R423: pipeline states. -/
def psUnloaded : Nat := 0
def psLoaded : Nat := 1
def psRunning : Nat := 2
def psStopped : Nat := 3
def psCrust : Nat := 4

def State.pstate (s : State) (p : Nat) : Nat := s.rf (pipeReg p) 0 3
def State.pipeEpoch (s : State) (p : Nat) : Tag := BitVec.ofNat 16 (s.rf (epochReg p) 0 16)

/-- R335: the registers of channel c of port p, by key 32 p + c. -/
def chanReg (key off : Nat) : Nat := 0x00504000 + 0x20 * key + off

/-- R427, R328: channel halves of a pipeline that are enabled. -/
def State.chansOf (s : State) (p : Nat) : List Nat :=
  (List.range 256).filter fun k =>
    (s.flag (chanReg k 0) 0 && s.rf (chanReg k 0) 2 6 == p) || (s.flag (chanReg k 4) 0 && s.rf (chanReg k 4) 1 6 == p)

/-- R11: the stop that a camera enters by: ETH, or the ingest stop of its links and die. -/
def State.camStop (s : State) (c : Nat) : Nat :=
  if 16 ≤ c then ethStop
  else unitStop .ing ((if s.flag (camReg c 0) 1 then 2 else 0) + (if c < 8 then 0 else 1))

/-- R427: the domains of units, memory regions and cameras with their rings, as the registers of a load have them. -/
def State.unitDomains (s : State) (i : PipeInfo) : List Nat :=
  let units := i.stops.map stopDomain ++ i.jobs.map fun j => stopDomain j.stop
  let mem := i.regions.map fun r => if r.1 < 0x600000000 then dHbmA else dHbmB
  let cams := i.cams.flatMap fun c => [stopDomain (s.camStop c), if s.rf (camReg c 8) 0 24 < 0x600000 then dHbmA else dHbmB]
  (units ++ mem ++ cams).eraseDups

/-- R427: the domains that a pipeline uses. -/
def State.pipeDomains (s : State) (p : Nat) : List Nat :=
  match (s.pipeAt p).info with
  | none => []
  | some i => (i.doms ++ (if (s.chansOf p).isEmpty then [] else [dLnk])).eraseDups

/-- R427: GOV's votes, once its firmware runs. -/
def State.govWants (s : State) (d : Nat) : Bool :=
  let ps := (s.gov.pipes.map (·.1)).filter fun p => s.pstate p != psUnloaded
  d == 0 || (d == dHost && !ps.isEmpty) ||
    ps.any fun p => (s.pstate p == psRunning || s.pstate p == psCrust) && (s.pipeDomains p).contains d

def State.govVotes (s : State) : State :=
  if !s.boot.started then s
  else (List.range 10).foldl (fun s d =>
    let w := s.govWants d
    if w = s.flag (domReg d + 4) 1 then s else if w then s.vote d 1 else s.unvote d 1) s

def State.setPstate (s : State) (p st : Nat) : State := (s.wf (pipeReg p) 0 3 st).govVotes

/-- R423: GOV_PIPEp shows the profile and the first two bytes of the digest of the pipeline's image. -/
def State.showImage (s : State) (p profile : Nat) (digest : BitVec 384) : State :=
  (s.wf (pipeReg p) 8 8 profile).wf (pipeReg p) 16 16 (digest.toNat % 65536)

/-- R251: class A delivery goes on for a pipeline that runs and is not being cancelled or stopped. -/
def State.delivers (s : State) (p : Nat) : Bool := s.pstate p == psRunning && (s.pipeAt p).phase == 0

/-- R251, step 1: the pipeline has stopped its deliveries: by a STOP or CANCEL, or in crust mode. -/
def State.dlvStopped (s : State) (p : Nat) : Bool :=
  (s.pstate p == psRunning && (s.pipeAt p).phase != 0) || s.pstate p == psStopped || s.pstate p == psCrust

/-- R251, step 1: frames in progress deliver no further line to the pipeline; with `count` their lines are dropped and counted. -/
def State.stopDelivery (s : State) (p : Nat) (count : Bool := true) : State :=
  let dead (v : Dlv) : Dlv := if bitsOf v.cfg 6 6 = p then { v with live := false, stopped := count && (v.live || v.stopped) } else v
  let cam (x : Cam) : Cam := { x with frames := x.frames.map fun f => { f with dlv := f.dlv.map dead } }
  { s with ingest := { s.ingest with cams := s.ingest.cams.map fun e => (e.1, cam e.2) } }

def State.info (s : State) (p : Nat) : PipeInfo :=
  (s.pipeAt p).info.getD { entry := { bytes := putBytes [] 0 [BitVec.ofNat 8 p] }, doms := [], stops := [], jobs := [], cams := [], regions := [],
                           syncInit := [], ends := [], signals := [], skew := [], channels := false, peers := [], digest := 0 }

def jobReg (stop slot off : Nat) : Nat := reg stop (0x0100 + 0x10 * slot + off)
def State.engAt (s : State) (stop : Nat) : Engine := tget {} s.eng stop
def State.setEng (s : State) (stop : Nat) (x : Engine) : State := { s with eng := tput {} s.eng stop x }
def State.jobAt (s : State) (stop slot : Nat) : EJob := tget {} (s.engAt stop).jobs slot
def State.setJob (s : State) (stop slot : Nat) (x : EJob) : State :=
  let e := s.engAt stop
  s.setEng stop { e with jobs := tput {} e.jobs slot x }

/-- Jobs of a pipeline that are bound (R262). -/
def State.jobsOf (s : State) (p : Nat) : List (Nat × Nat) :=
  ((s.info p).jobs.map fun j => (j.stop, j.slot)).filter fun j =>
    s.flag (jobReg j.1 j.2 0) 0 && s.rf (jobReg j.1 j.2 0) 1 6 == p

/-- R286: 0 idle, 1 running, 2 halted. -/
def State.setJobs (s : State) (p st : Nat) : State :=
  (s.jobsOf p).foldl (fun s j => s.wf (jobReg j.1 j.2 0) 30 2 st) s

/-- R251, step 2: every schedule is halted. -/
def State.haltAll (s : State) (p : Nat) : State := ((s.info p).stops.foldl State.haltTile (s.stopDelivery p)).setJobs p 2

/-- R251, step 2: no schedule of the pipeline runs, waits or is stopping. -/
def State.allHalted (s : State) (p : Nat) : Bool :=
  (s.info p).stops.all fun t =>
    let st := s.schState t
    st != schRun && st != schWait && st != schStopping

/-- R412, R251 step 8: every schedule starts at its entry, every job runs. -/
def State.goAll (s : State) (p : Nat) : State := ((s.info p).stops.foldl State.goTile s).setJobs p 1

/-- R251, step 3: the pipeline's epoch advances; the change reaches each tile and engine by a crossing of its own. -/
def State.advanceEpoch (s : State) (p : Nat) : State := s.wrap (epochReg p) 0 16

/-- R163, R126, R193, R197: a tile takes the epoch of its pipeline. -/
def State.tileEpoch (s : State) (stop : Nat) : State :=
  match s.ownerPipe stop with
  | none => s
  | some p =>
    let e := s.pipeEpoch p
    if e = s.epochOf stop then s
    else
      let s := s.wf (reg stop 8) 0 16 e.toNat
      match kindOf stop with
      | .mt =>
        let s := s.expanderReturn stop
        let s := (List.range 4).foldl (fun s k => s.writerEpoch stop k) s
        (List.range 16).foldl (fun s k => s.stopStream stop k 3) s
      | .at =>
        let s := s.endBlock stop
        s.setAt stop { s.atile stop with held := 0 }
      | _ => s.endBlock stop

/-- R265: a job takes the epoch of its pipeline: its landing queues empty at the drain, an open region and records not
yet written are discarded. -/
def State.jobEpoch (s : State) (stop slot : Nat) : State :=
  let p := s.rf (jobReg stop slot 0) 1 6
  let e := (s.pipeEpoch p).toNat
  if !s.flag (jobReg stop slot 0) 0 ∨ e = s.rf (jobReg stop slot 4) 0 16 then s
  else
    let s := s.wf (jobReg stop slot 4) 0 16 e
    let j := s.jobAt stop slot
    let s := s.setJob stop slot { j with tag := none, ok := true, raw := none, regions := [], stamps := [], stampIn := [], notices := [] }
    let x := s.engAt stop
    let left := x.recs.filter fun r => r.slot != slot
    (s.setEng stop { x with recs := left }).wf (reg stop 0x0210) 0 9 (if kindOf stop = .sor then left.length else s.rf (reg stop 0x0210) 0 9)

/-- R251, step 4: every tile and job has the new epoch, no stream slot has reads in flight, no spill write waits. -/
def State.drained (s : State) (p : Nat) : Bool :=
  let e := s.pipeEpoch p
  ((s.info p).stops.all fun t =>
    decide (s.epochOf t = e) && (if kindOf t = .mt then
      (List.range 16).all (fun k => s.rf (sstat t k) 8 8 == 0) &&
        (s.mtile t).qx.all (fun q => q.2.spill.all fun sp => sp.writing.all fun c => c.sent.isNone)
      else true)) &&
  (s.jobsOf p).all fun j => s.rf (jobReg j.1 j.2 4) 0 16 == e.toNat

/-! ## Step 5: everything is emptied -/

/-- R101: the cells of a tile's cushion pool. -/
def State.poolCells (s : State) (stop : Nat) : List Nat :=
  match (List.range 8).find? fun n => s.rf (reg stop (0x44 + 8 * n)) 0 3 == 1 with
  | none => []
  | some n =>
    let w := s.rd (reg stop (0x40 + 8 * n))
    (List.range (bitsOf w 16 15)).map fun i => bitsOf w 0 15 + i

/-- R248: a segment returns to its die's reserve. -/
def State.freeSeg (s : State) (die seg : Nat) : State :=
  let s := { s with segs := tput [] s.segs die (tget [] s.segs die ++ [seg]) }
  s.wf 0x8010 (16 * die) 16 (s.rf 0x8010 (16 * die) 16 + 1)

/-- The buffers of a tile that are in use: entries with cells (R131). -/
def State.buffers (s : State) (stop : Nat) : List Nat :=
  (s.regs.filterMap fun e =>
    let o := e.1 - reg stop 0x4000
    if reg stop 0x4000 ≤ e.1 ∧ o < 0x2000 ∧ o % 8 = 0 ∧ bitsOf e.2 15 13 ≠ 0 then some (o / 8) else none)

/-- R112: the handle of a buffer. -/
def State.handleOf (s : State) (stop b : Nat) : Word :=
  BitVec.ofNat 32 (b + s.bufGen stop b * 2 ^ 16 + mtIndex stop * 2 ^ 24)

/-- R113: each buffer becomes FREE and its handle stands in its free list. After a CANCEL the generation of one that
was not free has advanced. -/
def State.fillFree (s : State) (stop : Nat) : State :=
  (s.buffers stop).foldl (fun s b =>
    let g := s.bufGen stop b
    let s := if s.bufState stop b = bufFree then s else s.wf (bufHi stop b) 6 8 ((g + 1) % 256)
    let s := s.wf (bufHi stop b) 14 2 bufFree
    s.storeHandle stop (s.rf (bufHi stop b) 0 6) none 0 (s.handleOf stop b)) s

/-- R251, step 5, for one memory tile. -/
def State.emptyMt (s : State) (stop : Nat) : State :=
  let e := (s.epochOf stop).toNat
  let pool := s.poolCells stop
  let qs := (s.mtile stop).qx
  let s := qs.foldl (fun s q => match q.2.spill with
    | some sp => (s.freeSeg (dieOf stop) sp.seg).clrFlag (reg stop (0x6000 + 8 * q.1)) 0
    | none => s) s
  let keep (u : UFlit) : Bool := match u.msg with
    | .spill t _ _ _ => t != stop
    | _ => true
  let s := { s with mesh := { s.mesh with uns := s.mesh.uns.filter keep } }
  let s := (List.range 64).foldl (fun s q =>
    (((s.wr (qReg stop q 8) 0).wr (qReg stop q 0xC) 0).wr (qReg stop q 0x10) 0).wr (qReg stop q 0x14) 0) s
  let s := s.modMt stop fun m =>
    { m with free := pool, strm := []
             cy := { m.cy with frees := [], mo := m.cy.mo.filter fun r => match r.use with
               | .engine .. => false
               | _ => true }
             qx := m.qx.map fun q => (q.1, { q.2 with slots := [], tags := [], restored := [], filled := [], skip := false, spill := none,
                                                      openTag := 0, preTail := 0 }) }
  let s := (List.range 16).foldl (fun s k =>
    ((s.clrFlag (sstat stop k) 0).wf (sstat stop k) 8 8 0).wf (reg stop (0x2000 + 0x40 * k + 8)) 0 16 e) s
  s.fillFree stop

/-- R251, step 5: landing queues of a stop's queue numbers. -/
def State.emptyLq (s : State) (stop q : Nat) : State := s.setLq stop q { (s.lqAt stop q) with q := [] }

/-- R262: the numbers of a descriptor list in an engine's SRAM from d on, at most n: each descriptor names the next until one has
`last` set. -/
def descChain (x : Engine) (d : Nat) : Nat → List Nat
  | 0 => []
  | n + 1 =>
    let w9 := leNat (getBytes x.sram (d * 64 + 36) 4)
    d :: (if w9 / 2 ^ 14 % 2 = 1 then [] else descChain x (w9 % 2 ^ 14) n)

/-- Word w of each descriptor of a job (R262). -/
def State.jobWords (s : State) (stop slot w : Nat) : List Nat :=
  let x := s.engAt stop
  (descChain x (s.rf (jobReg stop slot 0) 8 14) 64).map fun d => leNat (getBytes x.sram (d * 64 + 4 * w) 4)

/-- The landing queues that a job's descriptors name (R265, R272, R284): DETECT and PASS in [2:0] and [5:3] of word 3,
Crozier in [11:9] of word 3. -/
def State.jobQueues (s : State) (stop slot : Nat) : List Nat :=
  ((s.jobWords stop slot 3).flatMap fun w3 => if kindOf stop = .cz then [w3 / 2 ^ 9 % 8] else [w3 % 8, w3 / 8 % 8]).eraseDups

/-- R273: the monitor slots of a Crozier job, [26:24] of word 0 of its descriptors. -/
def State.jobMons (s : State) (stop slot : Nat) : List Nat := ((s.jobWords stop slot 0).map fun w0 => w0 / 2 ^ 24 % 8).eraseDups

/-- R251, R264: a job without block, credit count or wait request; a request under way is forgotten (log 22). -/
def State.freshJob (s : State) (stop slot : Nat) : State :=
  let mine (src k : Nat) : Bool := src == stop && k == slot
  let y := s.sync
  let sync : Sync := { y with
    msgs := y.msgs.filter fun m => match m with
      | .wait _ _ src k => !mine src k
      | _ => true
    waits := y.waits.filter fun w => !mine w.src w.slot
    replies := y.replies.filter fun r => !mine r.stop r.slot }
  let keep (u : UFlit) : Bool := match u.msg with
    | .op (.wait _ _ src k) => !mine src k
    | .reply r => !mine r.stop r.slot
    | _ => true
  (State.pendCounts { s with sync := sync, mesh := { s.mesh with uns := s.mesh.uns.filter keep } }).setJob stop slot
    { s.jobAt stop slot with tag := none, ok := true, sent := [], grant := [], granted := [], wait := none, x := 0, head := none, inUnit := false }

def State.emptyAll (s : State) (p : Nat) : State :=
  let s := (s.info p).stops.foldl (fun s t =>
    match kindOf t with
    | .mt => s.emptyMt t
    | .at | .sft => ((List.range 8).foldl (fun s q => s.emptyLq t q) s).endBlock t
    | _ => s) s
  let mine := (s.chansOf p).filter fun k => s.flag (chanReg k 0) 0 && s.rf (chanReg k 0) 2 6 == p
  let s := { s with txq := mine.foldl (fun t k => tput [] t k []) s.txq }
  (s.jobsOf p).foldl (fun s j =>
    let s := (s.jobQueues j.1 j.2).foldl (fun s q => s.emptyLq j.1 q) s
    s.freshJob j.1 j.2) s

/-- R251, step 7: sync objects take their values in the load image. -/
def State.syncInit (s : State) (p : Nat) : State :=
  let i := s.info p
  (List.range i.entry.syncN).foldl (fun s k =>
    let o := i.entry.sync0 + k
    let v := (i.syncInit.find? fun x => x.1 == o).elim 0 (·.2)
    if s.rd (syuVal o) = v then s else (s.wr (syuVal o) v).evalWaits o) s

/-- R240: G. -/
def State.gap (s : State) (p : Nat) : Nat := max (s.info p).entry.quietGap 4096

/-- R417: a record of the pipeline has not been written to its ring. -/
def State.recsWait (s : State) (p : Nat) : Bool :=
  let mine (d : Payload) : Bool := bitsOf (entryWord d 0) 0 8 != 5 && bitsOf (entryWord d 0) 8 6 == p
  s.host.recs.any (fun r => mine r.data) || s.host.gwRecs.any (fun r => mine r.data) ||
    (s.jobsOf p).any fun j => (s.engAt j.1).recs.any (fun r => r.slot == j.2) || !(s.jobAt j.1 j.2).regions.isEmpty

/-! ## Commands and their steps -/

/-- R412: START. -/
def State.startPipe (s : State) (c : Cmd) : State :=
  let p := c.pipe
  let st := s.pstate p
  if st = psRunning then s.complete c stOk
  else if st = psLoaded then
    (((s.goAll p).modPipe p fun x => { x with probeAt := s.time }).setPstate p psRunning).complete c stOk
  else if st = psStopped then (s.advanceEpoch p).modPipe p fun x => { x with phase := 3, cmd := some c }
  else s.complete c stState

/-- R412: STOP. -/
def State.stopPipe (s : State) (c : Cmd) : State :=
  let p := c.pipe
  let st := s.pstate p
  if st = psStopped then s.complete c stOk
  else if st = psRunning then (s.haltAll p).modPipe p fun x => { x with phase := 1, cmd := some c }
  else s.complete c stState

/-- R417, R46: a STOP completes. -/
def State.stopDone (s : State) (p : Nat) : State :=
  let x := s.pipeAt p
  if x.phase = 1 ∧ s.allHalted p ∧ !s.recsWait p then
    let s := (s.info p).stops.foldl (fun s t => (List.range 4).foldl (fun s n => s.monLatch t n) s) s
    let s := (s.jobsOf p).foldl (fun s j =>
      if kindOf j.1 = .cz then (s.jobMons j.1 j.2).foldl (fun s n => s.monLatch j.1 n) s else s) s
    let s := (s.setPipe p { x with phase := 0, cmd := none }).setPstate p psStopped
    match x.cmd with
    | some c => s.complete c stOk
    | none => s
  else s

/-- R251: CANCEL. -/
def State.cancelPipe (s : State) (c : Cmd) : State :=
  let p := c.pipe
  if s.pstate p = psRunning then (s.haltAll p).modPipe p fun x => { x with phase := 2, cmd := some c }
  else s.complete c stState

def State.cancelHalted (s : State) (p : Nat) : State :=
  if (s.pipeAt p).phase = 2 ∧ s.allHalted p then (s.advanceEpoch p).modPipe p fun x => { x with phase := 3 } else s

def State.cancelDrained (s : State) (p : Nat) : State :=
  if (s.pipeAt p).phase = 3 ∧ s.drained p then (s.emptyAll p).modPipe p fun x => { x with phase := 4, since := s.ck } else s

def State.cancelRestart (s : State) (p : Nat) : State :=
  let x := s.pipeAt p
  if x.phase = 4 ∧ x.since + s.gap p ≤ s.ck ∧ !s.recsWait p then
    let s := (s.info p).stops.foldl State.startFrames (s.syncInit p)
    let s := s.goAll p
    let s := (s.setPipe p { x with phase := 0, cmd := none }).setPstate p psRunning
    match x.cmd with
    | some c => s.complete c stOk 0 0 (if c.opc = 4 then leBytes (s.pipeEpoch p).toNat 8 else [])
    | none => s
  else s

/-- R18: a pipeline enters crust mode. A command on it that is under way completes with STATE. -/
def State.crust (s : State) (p cause : Nat) : State :=
  let st := s.pstate p
  if st = psUnloaded ∨ st = psCrust then s
  else
    let x := s.pipeAt p
    let s := ((s.stopDelivery p).setPipe p { x with phase := 0, cmd := none, update := none }).setPstate p psCrust
    let s := match x.cmd with
      | some c => s.complete c stState
      | none => s
    let s := match x.update with
      | some u => s.complete u.cmd stState
      | none => s
    s.forward 8 0xFFFF cause p

/-- The pipelines that are loaded. -/
def State.loadedPipes (s : State) : List Nat := (s.gov.pipes.map (·.1)).filter fun p => s.pstate p != psUnloaded

/-- R18: a domain leaves Run without a vote withdrawal. -/
def State.crustDomain (s : State) (d : Nat) : State :=
  let cause := if d = dHbmA ∨ d = dHbmB then 1 else 0
  let uses (p : Nat) : Bool := if d = dA ∨ d = dB ∨ d = dHbmA ∨ d = dHbmB then (s.pipeDomains p).contains d else false
  (s.loadedPipes.filter uses).foldl (fun s p => s.crust p cause) s

end Sys2Proof.Machine
end

