-- ==== Sys2Proof/Machine/Progress.lean ====
section
/-! DEFINITION. The quiescence probe, its wait-for graph and its outcomes (R239 to R242), the choice of a victim, aging
windows and segments (R243, R248), tunables (R419). -/

namespace Sys2Proof.Machine

/-- R419: defaults of the tunables. -/
def tunDefault (tid : Nat) : Nat := [0, 2458, 1000, 10000, 2, 95, 0xFFFFFFFF].getD tid 0

/-- The value of a tunable; only a value that is not the default is listed. -/
def State.tunable (s : State) (tid : Nat) : Nat := tget (tunDefault tid) s.host.tun tid

/-- R243: the aging window of the present. -/
def State.window (s : State) : Nat := s.time / (1000 * s.tunable 3)

def State.probeOf (s : State) (p : Nat) : Probe := tget {} s.probe p
def State.setProbe (s : State) (p : Nat) (x : Probe) : State := { s with probe := tput {} s.probe p x }

/-- R239: a trigger; one that comes during a probe is dropped. -/
def State.trigger (s : State) (p : Nat) : State :=
  if s.pstate p = psUnloaded ∨ (s.probeOf p).on then s else s.setProbe p { on := true, wave := none }

/-- R241: node numbers: tiles by stop, cushion queues from 1,000, landing queues from 20,000. -/
def nodeTile (stop : Nat) : Nat := stop
def nodeQueue (g : Nat) : Nat := 1000 + g
def nodeLand (stop q : Nat) : Nat := 20000 + stop * 8 + q
/-- The node of a global queue number of the manifest: cushion queues below 10,240, then landing queues. -/
def nodeOfGlobal (g : Nat) : Nat := if g < 10240 then nodeQueue g else 20000 + (g - 10240)
def nodeCushion (stop q : Nat) : Nat := nodeQueue (mtIndex stop * 64 + q)

/-- What a waiting tile waits on: a queue's node or a sync object. -/
def State.waitsOn (s : State) (t : Nat) : Option Nat × Option Nat :=
  let b := s.nextBundle t
  let c := bCtl b
  let o := bCtlOp b
  if o = ctlWaitq ∨ o = ctlWaith then
    (some (if kindOf t = .mt then nodeCushion t (osel c 18 6) else nodeLand t (osel c 18 6 % 8)), none)
  else if o = ctlWaits then (none, some (ctlObj c))
  else if o = ctlWaita then (none, some (s.rf (armReg t (osel c 0 2)) 0 16))
  else (none, none)

/-- R240: what the stops of a pipeline report. -/
def State.wave (s : State) (p : Nat) : List Report :=
  (s.info p).stops.flatMap fun t =>
    let w := s.waitsOn t
    let tile : Report :=
      { kind := 0, node := nodeTile t
        nums := [s.schState t, s.pcOf t, s.rf (reg t 0xD004) 16 4, w.1.getD 0, w.2.getD 0,
                 (s.rd (reg t 0xD014)).toNat, w.2.elim 0 fun o => (s.rd (syuVal o)).toNat] }
    let queues : List Report :=
      if kindOf t = .mt then
        ((List.range 64).filter fun q => s.qbit t q 0 0).map fun q =>
          let x := s.qx t q
          let fly := s.reads.any fun r => r.stop == t && !(s.sdesc t r.slot).toBuf && (s.sdesc t r.slot).dstQ == q
          { kind := 1, node := nodeCushion t q
            nums := [s.qLevel t q, s.qOpenLen t q + x.behind (s.qIsHandle t q), s.qResv t q, s.qLimit t q, x.pushes, x.pops,
                     boolNat x.spill.isSome, boolNat fly] }
      else (List.range 8).map fun q =>
        { kind := 2, node := nodeLand t q, nums := [(s.lqAt t q).q.length, (s.lqAt t q).pops] }
    tile :: queues

/-- R240: a node is stuck in both waves. -/
def stuckIn (w1 w2 : List Report) (r : Report) : Bool :=
  w1.contains r && w2.contains r &&
    (match r.kind with
     | 0 => r.nums.getD 0 0 == schWait
     | 1 => r.nums.getD 6 0 == 0 && r.nums.getD 7 0 == 0
     | _ => true)

/-- R241: level, open and reserved cells reach the limit. -/
def Report.full (r : Report) : Bool :=
  if r.kind = 1 then decide (r.nums.getD 3 0 ≤ r.nums.getD 0 0 + r.nums.getD 1 0 + r.nums.getD 2 0)
  else decide (32 ≤ r.nums.getD 0 0)

/-- R241: the queues of the pipeline whose credit object is o. -/
def State.creditQueues (s : State) (p o : Nat) : List Nat :=
  (s.info p).stops.flatMap fun t =>
    if kindOf t = .mt then
      ((List.range 64).filter fun q => s.qbit t q 0 0 && s.qbit t q 0 4 && s.qf t q 4 0 16 == o).map (nodeCushion t)
    else ((List.range 8).filter fun q => s.flag (reg t (0x0400 + 16 * q)) 0 && s.rf (reg t (0x0400 + 16 * q)) 16 16 == o).map
      (nodeLand t)

/-- R241: the edges from a stuck node. -/
def State.edges (s : State) (p : Nat) (r : Report) : List Nat :=
  let i := s.info p
  match r.kind with
  | 0 =>
    let w := s.waitsOn r.node
    w.1.toList ++ match w.2 with
      | some o => s.creditQueues p o ++ (i.signals.filter fun x => x.2 == o).map fun x => nodeTile x.1
      | none => []
  | k =>
    match i.ends.find? fun e => nodeOfGlobal e.queue == r.node with
    | some e => [nodeTile (if r.full then e.consumer else e.producer)]
    | none => if k = 2 ∧ r.full then [nodeTile ((r.node - 20000) / 8)] else []

/-- Depth-first search for a cycle: fuel, the path (latest node first), the nodes met, the node to visit. Answers the nodes
met and the cycle. -/
def dfs (adj : Nat → List Nat) : Nat → List Nat → List Nat → Nat → List Nat × Option (List Nat)
  | 0, _, seen, _ => (seen, none)
  | k + 1, path, seen, n =>
    if path.contains n then (seen, some (n :: (path.takeWhile fun m => m != n)))
    else if seen.contains n then (seen, none)
    else
      (adj n).foldl (fun (acc : List Nat × Option (List Nat)) m =>
        match acc.2 with
        | some _ => acc
        | none => dfs adj k (n :: path) acc.1 m) (n :: seen, none)

/-- R241: the first cycle, searched from the lowest node number. -/
def firstCycle (nodes : List Nat) (adj : Nat → List Nat) : Option (List Nat) :=
  (nodes.foldl (fun (acc : List Nat × Option (List Nat)) n =>
    match acc.2 with
    | some _ => acc
    | none => dfs adj (nodes.length + 1) [] acc.1 n) ([], none)).2

/-- The number by which an event names a node: a stop, or a global queue number. -/
def nodeName (n : Nat) : Nat := if n < 1000 then n else if n < 20000 then n - 1000 else n - 20000 + 10240

def sortNat (l : List Nat) : List Nat := l.mergeSort fun a b => decide (a ≤ b)

/-- The loaded image of a pipeline. -/
def State.imageOf (s : State) (p : Nat) : Option Loaded := s.gov.imgs.find? fun l => l.pipes.contains p

/-- R243, R244, R248: the victim is spilled, or the lack of a segment is reported. Answers the outcome's code (R259). -/
def State.spillVictim (s : State) (p g : Nat) : State × Nat :=
  match mtStop (g / 64), s.imageOf p with
  | some stop, some l =>
    let die := dieOf stop
    let (first, n, base) := if die = 0 then (l.firstA, l.segA, l.baseA) else (l.firstB, l.segB, l.baseB)
    let free := tget [] s.segs die
    match free.find? fun x => decide (first ≤ x) && decide (x < first + n) with
    | none => ((s.setFlag 0x800C 2).forward 4 0xFFFF die p, 4)
    | some seg =>
      let s := { s with segs := tput [] s.segs die (free.erase seg) }
      let s := s.wf 0x8010 (16 * die) 16 (s.rf 0x8010 (16 * die) 16 - 1)
      let s := (s.count 0x8004 0 32).wr 0x8008 (BitVec.ofNat 32 (g + p * 2 ^ 24))
      let s := s.spillQueue stop (g % 64) seg (base + (seg - first) * (64 + 72 * l.segCells)) l.segCells s.window
      (s.tally p 6, 2)
  | _, _ => ((s.setFlag 0x800C 2).forward 4 0xFFFF 0 p, 4)

/-- R242: the outcome of two waves. -/
def State.outcome (s : State) (p : Nat) (w1 : List Report) : State :=
  let w2 := s.wave p
  let stuck := w2.filter (stuckIn w1 w2)
  let names := sortNat (stuck.map (·.node))
  let adj (n : Nat) : List Nat :=
    match stuck.find? fun r => r.node == n with
    | some r => sortNat ((s.edges p r).filter names.contains)
    | none => []
  let tiles := (stuck.filter fun r => r.kind == 0).map (·.node)
  let before := (s.pipeAt p).stuck
  let s := (s.modPipe p fun x => { x with stuck := tiles }).setProbe p {}
  let r : State × Nat := match firstCycle names adj with
    | none =>
      match tiles.find? before.contains with
      | some t =>
        let w := s.waitsOn t
        (((s.setFlag 0x800C 0).tally p 7).forward 2 t ((w.2.orElse fun _ => w.1.map nodeName).getD 0) p, 1)
      | none => (s, 0)
    | some cyc =>
      let full := (stuck.filter fun r => r.kind == 1 && r.full && cyc.contains r.node).map fun r => r.node - 1000
      if full.isEmpty then (((s.setFlag 0x800C 1).tally p 8).forward 3 0xFFFF (nodeName ((sortNat cyc).headD 0)) p, 3)
      else
        let fresh (g : Nat) : Bool := match mtStop (g / 64) with
          | some t => (s.qx t (g % 64)).lastWindow != some s.window
          | none => false
        match (sortNat full).find? fresh with
        | none => (s.modPipe p fun x => { x with again := some s.window }, 2)
        | some g => s.spillVictim p g
  let s := r.1.tally p 5
  s.wr 0x8000 (BitVec.ofNat 32 (p + r.2 * 2 ^ 6 + (s.rf 0x8000 16 16 + 1) % 2 ^ 16 * 2 ^ 16))

/-- R239: `probe_period` has passed while the pipeline runs. -/
def State.probePeriod (s : State) (p : Nat) : State :=
  let x := s.pipeAt p
  if s.pstate p = psRunning ∧ x.probeAt + 1000 * s.tunable 2 ≤ s.time then
    (s.modPipe p fun x => { x with probeAt := s.time }).trigger p
  else s

/-- R240: the first wave of a probe that has been triggered. -/
def State.firstWave (s : State) (p : Nat) : State :=
  let x := s.probeOf p
  if x.on ∧ x.wave.isNone then s.setProbe p { x with wave := some (s.wave p, s.ck) } else s

/-- R240, R241: the second wave, G cycles after the first. -/
def State.secondWave (s : State) (p : Nat) : State :=
  match (s.probeOf p).wave with
  | some (w, c) => if c + s.gap p ≤ s.ck then s.outcome p w else s
  | none => s

/-- R243: a new aging window: pipelines whose cycle was left alone are probed again. -/
def State.newWindow (s : State) : State :=
  (s.gov.pipes.map (·.1)).foldl (fun s p =>
    match (s.pipeAt p).again with
    | some w => if w < s.window then (s.modPipe p fun x => { x with again := none }).trigger p else s
    | none => s) s

end Sys2Proof.Machine
end

