-- ==== Sys2Proof/Machine/Memories.lean ====
section
/-! DEFINITION. The memories that BAR2 maps, as 64-bit ECC words (R403, R491). -/

namespace Sys2Proof.Machine

/-- A memory that BAR2 reaches: HBM, or a memory of a stop: program memory, weight store, cells, local SRAM, engine
SRAM. -/
inductive Mem where
  | hbm | prog | store | cells | local | engine
  deriving DecidableEq, Repr

/-- R403: the memory that a BAR2 address lies in, its stop, and the 64-bit word. -/
def bar2Word (a : Nat) : Option (Mem × Nat × Nat) :=
  if a < 0xC00000000 then some (.hbm, 0, a / 8)
  else
    let stop := (a - 0xC00000000) / 0x1000000
    let off := (a - 0xC00000000) % 0x1000000
    if 448 ≤ stop then none
    else if off < 0x10000 then (if isTile stop then some (.prog, stop, off / 8) else none)
    else if off < 0x100000 then none
    else
      let w := (off - 0x100000) / 8
      match kindOf stop with
      | .at => if w < 0x10000 then some (.store, stop, w) else none
      | .mt => if w < 0x30000 then some (.cells, stop, w) else none
      | .sft => if w < 0x4000 then some (.local, stop, w) else none
      | .cz | .sor => if w < 0x20000 then some (.engine, stop, w) else none
      | _ => none

/-- The bank, bank word and quarter of 64-bit word w of a memory tile's cells (R96). -/
def cellQuarter (w : Nat) : Nat × Nat × Nat := (2 * (w / 8 % 8) + w % 8 / 4, w / 64, w % 4)

/-- The mark of a 64-bit word in its memory's error lists. -/
def memKey (m : Mem) (w : Nat) : Nat :=
  if m = .cells then bankKey (cellQuarter w).1 (cellQuarter w).2.1 * 4 + (cellQuarter w).2.2 else w

/-- The error lists of a memory: uncorrectable and corrected. -/
def State.memErrs (s : State) (m : Mem) (stop : Nat) : List Nat × List Nat :=
  match m with
  | .hbm => (s.hbm.ue, s.hbm.ce)
  | .prog => ((s.sch stop).pmUe, (s.sch stop).pmCe)
  | .store => ((s.atile stop).wsUe, (s.atile stop).wsCe)
  | .cells => ((s.mtile stop).bkUe, (s.mtile stop).bkCe)
  | .local => ((s.sftile stop).lmUe, (s.sftile stop).lmCe)
  | .engine => ((s.engAt stop).lmUe, (s.engAt stop).lmCe)

/-- The eight bytes of a 64-bit word as stored. -/
def State.memBytes (s : State) (m : Mem) (stop w : Nat) : List Byte :=
  match m with
  | .hbm => getBytes s.hbm.bytes (8 * w) 8
  | .prog => leBytes (bsel (s.bundleAt stop (w / 2)) (64 * (w % 2)) 64) 8
  | .store => getBytes (s.atile stop).ws (8 * w) 8
  | .cells =>
    let q := cellQuarter w
    leBytes (((s.mtile stop).word q.1 q.2.1).extractLsb' (64 * q.2.2) 64).toNat 8
  | .local => getBytes (s.sftile stop).lm (8 * w) 8
  | .engine => getBytes (s.engAt stop).sram (8 * w) 8

/-- A word of n bits with the 64-bit field at 64 i replaced. -/
def put64 (n : Nat) (v : BitVec n) (i x : Nat) : BitVec n :=
  (v &&& ~~~(BitVec.ofNat n (2 ^ 64 - 1) <<< (64 * i))) ||| (BitVec.ofNat n (x % 2 ^ 64) <<< (64 * i))

/-- R491: a 64-bit word is stored with new check bits. -/
def State.memPut (s : State) (m : Mem) (stop w : Nat) (bs : List Byte) : State :=
  let k := memKey m w
  let clear (l : List Nat) : List Nat := l.filter fun x => x != k
  match m with
  | .hbm => s.hbmPut (8 * w) bs
  | .prog =>
    let b := put64 128 (s.bundleAt stop (w / 2)) (w % 2) (leNat bs)
    let s := { s with pmem := tput 0 s.pmem (stop * 4096 + w / 2) b }
    s.modSch stop fun x => { x with pmUe := clear x.pmUe, pmCe := clear x.pmCe }
  | .store =>
    let a := s.atile stop
    s.setAt stop { a with ws := putBytes a.ws (8 * w) bs, wsUe := clear a.wsUe, wsCe := clear a.wsCe }
  | .cells =>
    let q := cellQuarter w
    s.modMt stop fun x =>
      { x with banks := tput 0 x.banks (bankKey q.1 q.2.1) (put64 256 (x.word q.1 q.2.1) q.2.2 (leNat bs))
               bkUe := clear x.bkUe, bkCe := clear x.bkCe }
  | .local =>
    let x := s.sftile stop
    s.setSft stop { x with lm := putBytes x.lm (8 * w) bs, lmUe := clear x.lmUe, lmCe := clear x.lmCe }
  | .engine =>
    let x := s.engAt stop
    s.setEng stop { x with sram := putBytes x.sram (8 * w) bs, lmUe := clear x.lmUe, lmCe := clear x.lmCe }

/-- A corrected error, counted and flagged as the unit does (R58, R77, R100, R134, R266, R305). -/
def State.memCe (s : State) (m : Mem) (stop w : Nat) : State :=
  match m with
  | .hbm => s.count (hbpReg (portOf (8 * w)) 0) 0 32
  | .prog => (s.count (reg stop 0xD018) 0 32).setFlag (schErr stop) 0
  | .store => (s.count (reg stop 0x0204) 0 32).setFlag (reg stop 0x0200) 2
  | .cells | .local => (s.count (reg stop 0x0204) 0 32).setFlag (reg stop 0x0200) 0
  | .engine => (s.count (reg stop 0x0208) 0 32).setFlag (reg stop 0x0200) 0

/-- An uncorrectable error: the unit's flag, count and address. -/
def State.memUe (s : State) (m : Mem) (stop w : Nat) : State :=
  match m with
  | .hbm =>
    let p := portOf (8 * w)
    (s.count (hbpReg p 4) 0 32).wr (hbpReg p 8) (BitVec.ofNat 32 (8 * w / 16))
  | .prog => ((s.setFlag (schErr stop) 1).wr (reg stop 0xD01C) (BitVec.ofNat 32 (w / 2))).tallyOwner stop 21
  | .store =>
    let s := (s.count (reg stop 0x0208) 0 32).setFlag (reg stop 0x0200) 3
    s.wr (reg stop 0x020C) (BitVec.ofNat 32 (w % 128 + w / 128 * 65536))
  | .cells =>
    let q := cellQuarter w
    let s := (s.count (reg stop 0x0208) 0 32).setFlag (reg stop 0x0200) 1
    s.wr (reg stop 0x020C) (BitVec.ofNat 32 (q.2.1 + q.1 * 65536))
  | .local =>
    let s := (s.count (reg stop 0x0208) 0 32).setFlag (reg stop 0x0200) 1
    s.wr (reg stop 0x020C) (BitVec.ofNat 32 (w * 8))
  | .engine => (s.count (reg stop 0x020C) 0 32).setFlag (reg stop 0x0200) 1

/-- A read of a word by the unit's own check: its bytes, zeros for an uncorrectable one, with the errors recorded. -/
def State.memRead (s : State) (m : Mem) (stop w : Nat) : State × List Byte :=
  let e := s.memErrs m stop
  let k := memKey m w
  let s := if e.2.contains k then s.memCe m stop w else s
  if e.1.contains k then (s.memUe m stop w, List.replicate 8 0) else (s, s.memBytes m stop w)

/-- R101: an access of the host to a cell in no region. -/
def State.memRegion (s : State) (m : Mem) (stop w : Nat) : State :=
  if m = .cells then s.regionCheck stop (w / 8) else s

/-- R491: bytes written from byte `at_` of a word: the whole word, or a merge. -/
def State.memMerge (s : State) (m : Mem) (stop w at_ : Nat) (bs : List Byte) : State :=
  let s := s.memRegion m stop w
  if at_ = 0 ∧ bs.length = 8 then s.memPut m stop w bs
  else
    let r := s.memRead m stop w
    r.1.memPut m stop w (r.2.take at_ ++ bs ++ r.2.drop (at_ + bs.length))

/-- An access split into the parts that fall into each 64-bit word: (address, bytes in it). -/
def wordParts (a n : Nat) : List (Nat × Nat) :=
  (List.range ((a % 8 + n + 7) / 8)).map fun i =>
    let lo := max a (a / 8 * 8 + 8 * i)
    (lo, min (a + n) (a / 8 * 8 + 8 * i + 8) - lo)

/-- R404: an access where nothing lies. -/
def State.unmapped (s : State) (off : Nat) (bar2 write : Bool) : State :=
  let s := s.count 0x00300F00 0 32
  let s := s.wr 0x00300F08 (BitVec.ofNat 32 off)
  s.wr 0x00300F0C (BitVec.ofNat 32 (off / 2 ^ 32 % 16 + boolNat bar2 * 2 ^ 30 + boolNat write * 2 ^ 31))

/-- R426: an access that the router answers for a domain. -/
def State.offAccess (s : State) : State := s.count 0x00200700 0 32

/-- The accesses of the tile cycle under way name a bank (R98). -/
def MtCycle.names (c : MtCycle) (bank : Nat) : Bool :=
  c.wr.any (fun w => w.bank == bank) || c.ex.any (fun e => e.lanes.any fun l => l.2.1 == bank) ||
    c.mo.any fun r => (r.lo && evenBank r.cell == bank) || (r.hi && evenBank r.cell + 1 == bank)

/-- R99: an access to a memory tile's cells waits: the cycle under way does not leave its port idle, or names its bank. -/
def State.cellsWait (s : State) (write : Bool) (a : Nat) : Bool :=
  match bar2Word a with
  | some (.cells, stop, w) =>
    let c := (s.mtile stop).cy
    c.names (cellQuarter w).1 || (if write then !s.hostMi stop else !c.mo.isEmpty)
  | _ => false

/-- R99: the port that an access to cells takes. -/
def State.takePort (s : State) (write : Bool) (a : Nat) : State :=
  match bar2Word a with
  | some (.cells, stop, w) => s.modMt stop fun m =>
    if write then { m with cy := { m.cy with mi := true } }
    else { m with cy := { m.cy with mo := [{ cell := w / 8, lo := false, hi := false, tag := 0, use := .host }] } }
  | _ => s

/-- R403, R491: a host read through BAR2; the bytes stand in `out`. -/
def State.bar2Read (s : State) (a n : Nat) : State :=
  if 2 ^ 36 < a + n then s
  else if !s.answers (bar2Domain a) then { s.offAccess with out := List.replicate n 0 }
  else if (wordParts a n).any fun p => s.cellsWait false p.1 then s
  else
    let r := (wordParts a n).foldl (fun (acc : State × List Byte) p =>
      match bar2Word p.1 with
      | none => (acc.1, acc.2 ++ List.replicate p.2 0)
      | some (m, stop, w) =>
        let x := (acc.1.memRegion m stop w).memRead m stop w
        (x.1, acc.2 ++ (x.2.drop (p.1 % 8)).take p.2)) (s, [])
    let s := (wordParts a n).foldl (fun s p => s.takePort false p.1) { r.1 with out := r.2 }
    match (wordParts a n).find? fun p => (bar2Word p.1).isNone with
    | some p => s.unmapped p.1 true false
    | none => s

/-- R133: a write to program memory is dropped while the tile's schedule is in RUN, WAIT or STOPPING. -/
def State.progBusy (s : State) (stop : Nat) : Bool :=
  s.schState stop == schRun || s.schState stop == schWait || s.schState stop == schStopping

/-- R403, R491: a host write through BAR2. -/
def State.bar2Write (s : State) (a : Nat) (data : List Byte) : State :=
  if 2 ^ 36 < a + data.length then s
  else if !s.answers (bar2Domain a) then s.offAccess
  else if (wordParts a data.length).any fun p => s.cellsWait true p.1 then s
  else
    let ps := wordParts a data.length
    let s := ps.foldl (fun s p =>
      match bar2Word p.1 with
      | none => s
      | some (m, stop, w) =>
        if m = .prog ∧ s.progBusy stop then s.setFlag (schErr stop) 5
        else
          let s := if m = .store ∧ (s.atile stop).loadReads (w / 128) 1 then s.hazard stop 7 (w / 128) else s
          (s.memMerge m stop w (p.1 % 8) ((data.drop (p.1 - a)).take p.2)).takePort true p.1) s
    match ps.find? fun p => (bar2Word p.1).isNone with
    | some p => s.unmapped p.1 true true
    | none => s

end Sys2Proof.Machine
end

