-- ==== Sys2Proof/Machine/Routers.lean ====
section
/-! DEFINITION. The mesh: links and routes (R209, R210), headers (R212, R213, R489), slot tables and their cases (R214 to
R217), injection FIFOs (R216), arrival buffers (R223), landing queues (R224, R225) and the trace (R482 to R484). -/

namespace Sys2Proof.Machine

/-- R210: the link that a flit takes at a stop: 0 east, 1 west, 2 north, 3 south; 4 at its destination. -/
def linkTo (stop dst : Nat) : Nat :=
  let x := stop % 32
  let y := stop / 32
  let dx := dst % 32
  let dy := dst / 32
  if x < dx then 0 else if dx < x then 1 else if dy < y then 2 else if y < dy then 3 else 4

/-- The stop that a link leads to (R209). -/
def linkEnd (stop link : Nat) : Nat :=
  if link = 0 then stop + 1 else if link = 1 then stop - 1 else if link = 2 then stop - 32 else if link = 3 then stop + 32 else stop

/-- R210: CK_MESH cycles of a hop. -/
def hopCycles (stop link : Nat) : Nat :=
  if (link = 0 ∧ stop % 32 = 15) ∨ (link = 1 ∧ stop % 32 = 16) then 10 else if link = 4 then 0 else 2

/-- R210: the hops of a path: stop and link. -/
def hopsFrom (dst : Nat) : Nat → Nat → List (Nat × Nat)
  | _, 0 => []
  | stop, n + 1 => if stop = dst then [] else (stop, linkTo stop dst) :: hopsFrom dst (linkEnd stop (linkTo stop dst)) n

/-- The delay of each hop of a path: 2k + 8σ. -/
def delaysOf : Nat → List (Nat × Nat) → List (Nat × Nat × Nat)
  | _, [] => []
  | d, h :: r => (h.1, h.2, d) :: delaysOf (d + hopCycles h.1 h.2) r

/-- R214, R215: the slot-table registers that a flow owns. -/
def flowRegs (f : FlowDef) : List Nat :=
  (delaysOf 0 (hopsFrom f.dst f.src 64)).flatMap fun h => f.slots.map fun s => reg h.1 (0xF000 + 0x100 * h.2.1 + 4 * ((s + h.2.2) % 64))

/-! ## Trace -/

def trcReg (die off : Nat) : Nat := 0x03010000 + die * 0x100 + off

/-- R212: header bits [79:0]. What [63:24] hold in a flit of a type other than 0 is a free value (log 27). -/
def flitHeader (f : Flit) : Nat :=
  f.dst % 512 + f.src % 512 * 2 ^ 9 + boolNat f.rsv * 2 ^ 18 + boolNat f.vc * 2 ^ 19 + f.typ % 16 * 2 ^ 20 +
    (if f.typ = 0 then f.dstQ % 64 * 2 ^ 24 + f.op % 4 * 2 ^ 30 + f.tag.toNat * 2 ^ 32 + f.epoch.toNat * 2 ^ 48
      else Config.unstated 212 (f.entered * 8192 + f.src * 16 + f.typ) % 2 ^ 40 * 2 ^ 24) + f.flow % 8192 * 2 ^ 64

def State.trc (s : State) (die : Nat) : Trace := tget {} s.trace die
def State.setTrc (s : State) (die : Nat) (t : Trace) : State := { s with trace := tput {} s.trace die t }

/-- A record that finds a store full (R483). -/
def State.traceLost (s : State) (die : Nat) : State :=
  (s.setTrc die { s.trc die with gap := true }).count (trcReg die 0x34) 0 32

/-- R482: a router mirrors a header at an observation point (0 injection, 1 arrival). -/
def State.mirror (s : State) (stop point : Nat) (f : Flit) : State :=
  let die := dieOf stop
  let h := flitHeader f
  let word (off : Nat) : Nat := (s.rd (trcReg die off)).toNat + (s.rd (trcReg die (off + 4))).toNat * 2 ^ 32
    + s.rf (trcReg die (off + 8)) 0 16 * 2 ^ 64
  let hit := (BitVec.ofNat 80 h ^^^ BitVec.ofNat 80 (word 0x10)) &&& BitVec.ofNat 80 (word 0x20)
  if s.flag (trcReg die 0) 0 && s.flag (trcReg die 0) (2 + point) && hit == 0 then
    let t := s.trc die
    if 4 ≤ (t.routers.filter fun r => r.stop == stop).length then s.traceLost die
    else s.setTrc die { t with routers := t.routers ++ [{ hdr := h, stop := stop, point := point, ck := s.ck, time := s.time }] }
  else s

/-- R483: the trace ring takes one record in a CK_MESH cycle. -/
def State.traceTick (s : State) (die : Nat) : State :=
  let t := s.trc die
  match t.routers with
  | [] => s
  | r :: rest =>
    if 64 ≤ t.stage.length then (s.setTrc die { t with routers := rest }).traceLost die
    else s.setTrc die { t with routers := rest, stage := t.stage ++ [r] }

def TraceRec.bytes (r : TraceRec) (gap : Bool) : List Byte :=
  leBytes r.hdr 10 ++ leBytes (r.stop % 512 + r.point * 512 + boolNat gap * 1024) 2 ++ leBytes 0 4 ++ leBytes r.ck 8 ++ leBytes r.time 8

/-- R484: TRACE_RECORD_WRITE of a trace stop. -/
def State.traceWrite (s : State) (die : Nat) : State :=
  let t := s.trc die
  match t.stage with
  | [] => s
  | r :: rest =>
    let c := s.rd (trcReg die 0)
    let n := 2 ^ bitsOf c 4 5
    let wr := (s.rd (trcReg die 0x30)).toNat
    let s := s.setTrc die { t with stage := rest, gap := false }
    if !bitOf c 1 && decide (n ≤ wr) then s
    else
      let base := (s.rd (trcReg die 8)).toNat + (s.rd (trcReg die 0xC)).toNat * 2 ^ 32
      let s := s.hostPut (base / 64 * 64 + 32 * (wr % n)) (r.bytes t.gap)
      let s := s.wr (trcReg die 0x30) (BitVec.ofNat 32 (wr + 1))
      if !bitOf c 1 && decide (wr + 1 = n) then (s.clrFlag (trcReg die 0) 0).setFlag (trcReg die 0) 16 else s

/-! ## Headers and links -/

def mshErr (stop : Nat) : Nat := reg stop 0xF400

/-- R212, R213: a flit after a link that inverted bits of it: 0 to 511 of the payload, 512 to 607 of the header. One bit of header and
check bits is corrected, more are an uncorrectable error; a payload or parity bit turns the parity of its 64 bits (log 27). -/
def overWire (f : Flit) (flips : List Nat) : Flit :=
  let h := (flips.filter fun b => decide (512 ≤ b) && decide (b < 600)).length
  flips.foldl (fun f b =>
    if b < 512 then { f with payload := f.payload ^^^ (1 <<< b), par := f.par ^^^ (1 <<< (b / 64)) }
    else if 600 ≤ b ∧ b < 608 then { f with par := f.par ^^^ (1 <<< (b - 600)) }
    else f) { f with hdrErr := max f.hdrErr (min h 2) }

/-- R213: the header check at a stop; none where the flit is lost there. -/
def State.checkHeader (s : State) (stop : Nat) (f : Flit) : State × Option Flit :=
  if f.hdrErr = 0 then (s, some f)
  else if f.hdrErr = 1 then (s.count (reg stop 0xF414) 0 16, some { f with hdrErr := 0 })
  else
    let s := (s.setFlag (mshErr stop) 3).count (reg stop 0xF414) 16 16
    (s.event 10 stop f.flow (s.flitPipe stop f), none)

def State.hazardFlow (s : State) (stop code : Nat) (f : Flit) : State :=
  s.hazardOf stop code f.flow (s.flitPipe stop f) s.ck

/-- R217, R218: an unreserved flit that entered a link in a cycle in which a reserved flit needs it waits on. -/
def UFlit.bump (stop link cyc : Nat) (u : UFlit) : UFlit :=
  match u.place with
  | .link inl out enter => if u.stop = stop ∧ out = link ∧ enter = cyc then { u with place := .buffer inl } else u
  | _ => u

/-- R217: a reserved flit enters a link in CK_MESH cycle `cyc`. -/
def State.enterLink (s : State) (f : Flit) (stop link cyc : Nat) : State :=
  let fl (f : Flit) : Flying := { flit := f, stop := stop, link := link, enter := cyc }
  match s.mesh.flying.find? fun x => x.stop == stop && x.link == link && x.enter == cyc && link != 4 with
  | some o =>
    let win := if f.flow < o.flit.flow then f else o.flit
    let lose := if f.flow < o.flit.flow then o.flit else f
    let s := ((s.setFlag (mshErr stop) 0).count (reg stop 0xF404) 0 32).wr (reg stop 0xF408)
      (BitVec.ofNat 32 (win.flow % 8192 + lose.flow % 8192 * 65536))
    let s := (s.event 10 stop lose.flow (s.flowPipe lose.flow)).hazardFlow stop 2 lose
    let s := (s.flowPipe lose.flow).elim s fun p => s.tally p 18
    { s with mesh := { s.mesh with flying := s.mesh.flying.map fun x => if x = o then { fl win with collided := true } else x } }
  | none =>
    { s with mesh := { s.mesh with flying := s.mesh.flying ++ [fl f], uns := s.mesh.uns.map (UFlit.bump stop link cyc) } }

/-- R217: at the end of a CK_MESH cycle a reserved flit that alone entered a link in it, in a slot of another flow's or an idle one,
is a mismatch. -/
def State.slotCheck (s : State) (x : Flying) : State :=
  let e := s.rd (reg x.stop (0xF000 + x.link * 0x100 + x.enter % 64 * 4))
  if x.link = 4 ∨ x.enter ≠ s.ck ∨ x.collided ∨ (bitOf e 15 ∧ bitsOf e 0 13 = x.flit.flow) then s
  else (s.count (reg x.stop 0xF40C) 0 32).hazardFlow x.stop 2 x.flit

/-! ## Injection -/

def injKey (stop rt : Nat) : Nat := stop * 16 + rt

/-- R216, R219: the oldest flit in the crossing for a route reaches its injection FIFO. -/
def State.injEntry (s : State) (stop rt : Nat) : State :=
  match s.mesh.cross.find? fun x => x.stop == stop && x.rt == rt with
  | none => s
  | some x =>
    if s.cycOf stop < x.ready then s
    else
      let s := { s with mesh := { s.mesh with cross := s.mesh.cross.erase x } }
      let q := tget [] s.mesh.inj (injKey stop rt)
      if 447 < x.flit.dst then s.setFlag (mshErr stop) 5
      else if 8 ≤ q.length then
        (((s.setFlag (mshErr stop) 2).count (reg stop 0xF410) 16 16).flitNotice stop x.flit).hazardFlow stop 4 x.flit
      else { s with mesh := { s.mesh with inj := tput [] s.mesh.inj (injKey stop rt) (q ++ [{ flit := x.flit, since := s.ck }]) } }

/-- R216: the slot set of a route entry holds slot n. -/
def State.inSlotSet (s : State) (stop rt n : Nat) : Bool :=
  if n < 32 then s.flag (reg stop (0x0508 + 16 * rt)) n else s.flag (reg stop (0x050C + 16 * rt)) (n - 32)

/-- R216: the head of an injection FIFO enters its first link in this CK_MESH cycle; one flit of the FIFO does so in a cycle. -/
def State.injDepart (s : State) (stop rt : Nat) : State :=
  let k := injKey stop rt
  match tget [] s.mesh.inj k with
  | [] => s
  | x :: rest =>
    if x.since < s.ck ∧ s.inSlotSet stop rt (s.ck % 64) ∧ tget 0 s.mesh.injCk k ≠ s.ck + 1 then
      let f := { x.flit with entered := s.ck }
      let s := { s with mesh := { s.mesh with inj := tput [] s.mesh.inj k rest, injCk := tput 0 s.mesh.injCk k (s.ck + 1) } }
      let c := (s.mirror stop 0 f).checkHeader stop f
      match c.2 with
      | some f => c.1.enterLink f stop (linkTo stop f.dst) s.ck
      | none => c.1
    else s

/-- R210: the k-th reserved flit on a link enters its next one. -/
def State.hop (s : State) (k : Nat) (flips : List Nat) : State :=
  match takeAt s.mesh.flying k with
  | none => s
  | some (x, rest) =>
    let n := linkEnd x.stop x.link
    let cyc := x.enter + hopCycles x.stop x.link
    if n = x.flit.dst ∨ s.ck < cyc then s
    else
      let s := { s with mesh := { s.mesh with flying := rest } }
      let c := s.checkHeader n (overWire x.flit flips)
      match c.2 with
      | some f => c.1.enterLink f n (linkTo n f.dst) cyc
      | none => c.1

/-! ## Arrival -/

def State.arrBuf (s : State) (stop : Nat) : List Flit := tget [] s.mesh.arr stop
def State.setArr (s : State) (stop : Nat) (l : List Flit) : State := { s with mesh := { s.mesh with arr := tput [] s.mesh.arr stop l } }

/-- R223: the k-th flit on a link reaches the arrival buffer of its destination. -/
def State.arrive (s : State) (k : Nat) (flips : List Nat) : State :=
  match takeAt s.mesh.flying k with
  | none => s
  | some (x, rest) =>
    let n := linkEnd x.stop x.link
    let cyc := x.enter + hopCycles x.stop x.link
    let earlier := rest.any fun y => linkEnd y.stop y.link == n && y.flit.dst == n && decide (y.enter + hopCycles y.stop y.link < cyc)
    if n ≠ x.flit.dst ∨ s.ck < cyc ∨ earlier then s
    else
      let s := { s with mesh := { s.mesh with flying := rest } }
      let c := s.checkHeader n (overWire x.flit flips)
      match c.2 with
      | none => c.1
      | some f =>
        let s := c.1
        if 16 ≤ (s.arrBuf n).length then
          (((s.setFlag (mshErr n) 1).count (reg n 0xF410) 0 16).flitNotice n f).hazardFlow n 4 f
        else s.setArr n (s.arrBuf n ++ [f])

def chainOn (s : State) (stop : Nat) : Bool :=
  kindOf stop == .at && s.flag (reg stop 0x0080) 31 && s.rf (reg stop 0x0080) 0 3 == 0

/-- R213: queues that a stop has for pushes. A chain head takes its messages on the numbers above its landing queues. -/
def State.queueOk (s : State) (stop q : Nat) : Bool :=
  match kindOf stop with
  | .mt | .lnk => true
  | .at => q < 8 || chainOn s stop
  | .sft | .cz | .sor => q < 8
  | _ => false

/-- The transmit half of a link stop's channel (R318). -/
def txKey (stop q : Nat) : Nat := (2 * unitIndex stop + q / 32 % 2) * 32 + q % 32

/-- R223: the destination can take the flit. -/
def State.canTake (s : State) (stop : Nat) (f : Flit) : Bool :=
  let onWay := (s.mesh.into.filter fun x => x.1 == stop && x.2.dstQ == f.dstQ).length
  if !s.answers (stopDomain stop) || !s.queueOk stop f.dstQ || f.op == 3 || decide (8 ≤ f.typ) then true
  else match kindOf stop with
  | .mt => match s.writerOf stop f.dstQ with
    | some k => s.writerTakes stop k
    | none => true
  | .lnk => (tget [] s.txq (txKey stop f.dstQ)).length + onWay < 32
  | _ => 8 ≤ f.dstQ || (s.lqAt stop f.dstQ).q.length + onWay < 32

/-- R213, R342, R426: parity and destination checks of a flit at its destination; false where it is dropped: by a domain
that does not answer, by the Capsule gateway, or for its header. -/
def State.checkArrival (s : State) (stop : Nat) (f : Flit) : State × Bool :=
  let s := if f.par ≠ 0 then (s.setFlag (mshErr stop) 4).flitNotice stop f else s
  if !s.answers (stopDomain stop) then (s.count 0x00200700 0 32, false)
  else if kindOf stop = .cgw then (s.count 0x0070000C 0 32, false)
  else if f.op = 3 ∨ 8 ≤ f.typ then (s.setFlag (mshErr stop) 5, false)
  else if !s.queueOk stop f.dstQ then
    let s := s.setFlag (mshErr stop) 5
    if kindOf stop = .at ∨ kindOf stop = .sft ∨ isEngine stop then
      ((s.setFlag (mshErr stop) 6).count (reg stop (0x0408 + 16 * (f.dstQ % 8))) 16 16, false)
    else (s, false)
  else (s, true)

/-- R65: the header of a chain message. -/
def chainHeader (b : List Byte) : ChainMsg :=
  let h : BitVec 256 := BitVec.ofNat 256 (leNat (b.take 32))
  let f (lo n : Nat) : Nat := (h.extractLsb' lo n).toNat
  { mtype := f 0 8, firstPos := f 8 7, lastPos := f 15 7, group := f 22 6, wsGran := f 28 9, ngran := f 37 10, sigEn := f 47 1 == 1,
    syncObj := f 48 16, syncAdd := f 64 8, msgId := f 72 16, data := [] }

/-- R65, R66: the beats of a flit reach a chain's head; a message that is complete is on its way at that tile. -/
def State.chainBeats (s : State) (stop : Nat) (p : Payload) : State :=
  let a := s.atile stop
  let bs := a.chainIn ++ payloadBytes p
  let h := chainHeader bs
  let n := 32 + 1024 * h.ngran
  if bs.length < n then s.setAt stop { a with chainIn := bs }
  else
    let msg := { h with data := putBytes [] 0 ((bs.drop 32).take (1024 * h.ngran)) }
    { s.setAt stop { a with chainIn := [] } with chain := s.chain ++ [{ stop := stop, msg := msg }] }

/-- R223: the head of an arrival buffer leaves for its unit. -/
def State.arrDepart (s : State) (stop : Nat) : State :=
  match s.arrBuf stop with
  | [] => s
  | f :: rest =>
    if tget 0 s.mesh.dep stop = s.ck + 1 ∨ !s.canTake stop f then s
    else
      let s := { s.setArr stop rest with mesh := { (s.setArr stop rest).mesh with dep := tput 0 s.mesh.dep stop (s.ck + 1) } }
      let c := (s.mirror stop 1 f).checkArrival stop f
      let s := c.1
      if !c.2 then s
      else if kindOf stop = .at ∧ 8 ≤ f.dstQ then s.chainBeats stop f.payload
      else
        let s := match s.writerOf stop f.dstQ with
          | some k => s.setWrt stop k { s.wrt stop k with resv := (s.wrt stop k).resv + 1 }
          | none => s
        { s with mesh := { s.mesh with into := s.mesh.into ++ [(stop, f)] } }

/-- The oldest flit crossing into a unit, if the test holds of it, and the state without it. -/
def State.takeInto (s : State) (stop : Nat) (p : Flit → Bool) : Option (Flit × State) :=
  match s.mesh.into.find? fun x => x.1 == stop with
  | some x => if p x.2 then some (x.2, { s with mesh := { s.mesh with into := s.mesh.into.erase x } }) else none
  | none => none

/-! ## Landing queues -/

/-- R225: the flits after the last PUSH_EOP of a queue. -/
def openTail (q : List LFlit) : List LFlit × List LFlit :=
  let n := (q.reverse.takeWhile fun f => f.op != 1).length
  (q.take (q.length - n), q.drop (q.length - n))

/-- R224, R225: a flit is written into a landing queue. -/
def State.land (s : State) (stop : Nat) (f : Flit) : State :=
  let q := f.dstQ % 8
  let l := s.lqAt stop q
  if f.op = 2 ∧ q = 7 ∧ !isEngine stop ∧ s.flag (reg stop 0xE100) 2 then
    let (keep, gone) := openTail l.q
    let s := (s.setLq stop q { l with q := keep }).count (reg stop (0x0408 + 16 * q)) 0 16
    let c := reg stop (0x0400 + 16 * q)
    s.credit (s.flag c 0) (s.rf c 16 16) stop (gone.length + 1)
  else s.setLq stop q { l with q := l.q ++ [{ op := f.op, tag := f.tag, epoch := f.epoch, payload := f.payload }] }

/-! ## Unreserved flits -/

/-- R218: a stop's buffer of an incoming link has room in a channel; a place that a flit leaves in this CK_MESH cycle is not free
yet, and one that a flit on the link will take is not free any more. -/
def State.uRoom (s : State) (stop inl : Nat) (vc : Bool) : Bool :=
  let takes (u : UFlit) : Bool := u.flit.vc == vc && (match u.place with
    | .source => false
    | .buffer i => u.stop == stop && i == inl
    | .link i out enter => (linkEnd u.stop out == stop && out == inl) || (u.stop == stop && i == inl && enter == s.ck))
  decide ((s.mesh.uns.filter takes).length < 4)

/-- R218: a flit is ready for a link of a stop: it waits there for that link, and the next stop has room. -/
def State.uWants (s : State) (stop link : Nat) (u : UFlit) : Bool :=
  (match u.place with
    | .buffer _ => u.stop == stop
    | _ => false) && linkTo stop u.flit.dst == link && s.uRoom (linkEnd stop link) link u.flit.vc

/-- R218: the order among ready flits. -/
def UFlit.before (a b : UFlit) : Bool :=
  decide (a.flit.entered < b.flit.entered) || (a.flit.entered == b.flit.entered && decide (a.flit.src < b.flit.src))

/-- A link is taken in this CK_MESH cycle. -/
def State.linkTaken (s : State) (stop link : Nat) : Bool :=
  (s.mesh.flying.any fun x => x.stop == stop && x.link == link && x.enter == s.ck) ||
    s.mesh.uns.any fun u => match u.place with
      | .link _ out enter => u.stop == stop && out == link && enter == s.ck
      | _ => false

def State.setU (s : State) (k : Nat) (u : UFlit) : State := { s with mesh := { s.mesh with uns := s.mesh.uns.set k u } }

/-- R217, R218: the k-th unreserved flit, which waits at a stop, goes on if it comes first among those ready for its link, in a
cycle in which no reserved flit uses the link. -/
def State.uForward (s : State) (k : Nat) : State :=
  match s.mesh.uns[k]? with
  | none => s
  | some u =>
    let l := linkTo u.stop u.flit.dst
    match u.place with
    | .buffer inl =>
      if s.uWants u.stop l u && !s.linkTaken u.stop l && !(s.mesh.uns.any fun v => s.uWants u.stop l v && v.before u) then
        s.setU k { u with place := .link inl l s.ck }
      else s
    | _ => s

/-- R244, R245: a spill access reaches its HBM port, which answers it, or its answer the memory tile. -/
def State.spillMsg (s : State) (tile q : Nat) (read back : Bool) (stop : Nat) : State :=
  if !back then s.post stop tile 7 true (.spill tile q read true)
  else s.modQx tile q fun x => { x with spill := x.spill.map fun p =>
    if read then { p with asked := 2 } else { p with acks := p.acks + 1 } }

/-- R213, R426: an unreserved flit at its destination: its parity is checked, and its unit has what it carries. -/
def State.uDeliver (s : State) (k : Nat) (u : UFlit) : State :=
  let s := { s with mesh := { s.mesh with uns := s.mesh.uns.eraseIdx k } }
  let stop := u.flit.dst
  let s := s.mirror stop 1 u.flit
  let s := if u.flit.par ≠ 0 then (s.setFlag (mshErr stop) 4).flitNotice stop u.flit else s
  if !s.answers (stopDomain stop) then s.count 0x00200700 0 32
  else match u.msg with
    | .op m => s.syncArrive m
    | .reply r => { s with sync := { s.sync with replies := s.sync.replies ++ [r] } }
    | .notice n => { s with notices := s.notices ++ [n] }
    | .event e => { s with events := s.events ++ [e] }
    | .spill t q read back => s.spillMsg t q read back stop

/-- R218, R430: the k-th unreserved flit enters the mesh at its source: the stop has room in the flit's channel, no older flit of the
source waits for that channel, and its destination's domain admits it. -/
def State.uEnter (s : State) (k : Nat) (u : UFlit) : State :=
  let older := (s.mesh.uns.take k).any fun v => v.place == .source && v.stop == u.stop && v.flit.vc == u.flit.vc
  if older || !s.uRoom u.stop 4 u.flit.vc || s.phase (stopDomain u.flit.dst) == phEntry || !s.answers (stopDomain u.stop) then s
  else
    let u := { u with flit := { u.flit with entered := s.ck }, place := .buffer 4 }
    let s := (s.mirror u.stop 0 u.flit).setU k u
    if u.flit.dst = u.stop then s.uDeliver k u else s.uForward k

/-- R210, R213, R218: the k-th unreserved flit enters the mesh, goes on, or completes a hop and goes on. -/
def State.uHop (s : State) (k : Nat) (flips : List Nat) : State :=
  match s.mesh.uns[k]? with
  | none => s
  | some u => match u.place with
    | .source => s.uEnter k u
    | .buffer _ => s.uForward k
    | .link _ out enter =>
      if s.ck < enter + hopCycles u.stop out then s
      else
        let n := linkEnd u.stop out
        let c := s.checkHeader n (overWire u.flit flips)
        match c.2 with
        | none => { c.1 with mesh := { c.1.mesh with uns := c.1.mesh.uns.eraseIdx k } }
        | some f =>
          let u := { u with flit := f, stop := n, place := .buffer out }
          let s := c.1.setU k u
          if n = f.dst then s.uDeliver k u else s.uForward k

/-- FLIT_HOP: the k-th flit on its way, reserved flits before unreserved ones. -/
def State.flitHop (s : State) (k : Nat) (flips : List Nat) : State :=
  let n := s.mesh.flying.length
  if k < n then s.hop k flips else s.uHop (k - n) flips

/-! ## The end of a CK_MESH cycle -/

/-- R210: the reserved flits whose hop ends in this cycle go on, or reach their arrival buffer. -/
def State.hopsDue (s : State) : Nat → State
  | 0 => s
  | n + 1 =>
    let due (x : Flying) : Bool := decide (x.enter + hopCycles x.stop x.link ≤ s.ck)
    match (List.range s.mesh.flying.length).find? fun k => s.mesh.flying[k]?.any due with
    | none => s
    | some k =>
      if s.mesh.flying[k]?.any fun x => linkEnd x.stop x.link == x.flit.dst then (s.arrive k []).hopsDue n else (s.hop k []).hopsDue n

/-- R210, R216, R217, R223: what a CK_MESH cycle brings about by its end, whatever is commanded: each injection FIFO's head leaves in
the first slot of its set, hops end, and mismatches are counted. -/
def State.meshCycle (s : State) : State :=
  let s := (s.mesh.inj.map (·.1)).foldl (fun s k => s.injDepart (k / 16) (k % 16)) s
  let s := s.hopsDue s.mesh.flying.length
  s.mesh.flying.foldl State.slotCheck s

end Sys2Proof.Machine
end

