-- ==== Sys2Proof/Machine/Registers.lean ====
section
/-! DEFINITION. Host accesses to BAR0 registers: access types (R5, R6, R402), writes that are ignored (R157, R232 to R236,
R259 to R261, R335, R367, R393, R422, R458 and the memory tile's registers), domains that do not answer (R426, R431). -/

namespace Sys2Proof.Machine

/-- A pipeline runs (R412). -/
def State.runs (s : State) (p : Nat) : Bool := s.pstate p == psRunning

/-- R232: a pipeline that owns the tile or one of the stop's flows runs. -/
def State.stopRuns (s : State) (stop : Nat) : Bool :=
  (s.ownerPipe stop).any s.runs || s.flows.any fun f => (f.src == stop || f.dst == stop) && s.runs f.pipe

/-- Writes of the host to a register in a stop's window that are ignored. -/
def State.windowLocked (s : State) (stop off : Nat) : Bool :=
  let k := kindOf stop
  let own := (s.ownerPipe stop).any s.runs
  let debug := s.debugPerm 1
  if 0xF000 ≤ off then (decide (off < 0xF400) && !debug) || (off == 0xF800 && !s.debugPerm 0)
  else if (0x0400 ≤ off ∧ off < 0x0600 ∧ !(k == .mt && decide (off < 0x0500))) ∨ off = 0xD400 then s.stopRuns stop && !debug
  else if isTile stop ∧ 0xD000 ≤ off ∧ off < 0xD200 then s.progBusy stop
  else if k = .at then (0x0180 ≤ off && off < 0x0200) || (0x3000 ≤ off && off < 0x4000)
  else if k = .sft then (0x0180 ≤ off && off < 0x0200) || (0x2000 ≤ off && off < 0x2400)
  else if k = .mt then
    if 0x2000 ≤ off ∧ off < 0x2400 then s.flag (sstat stop ((off - 0x2000) / 0x40)) 0
    else own && (decide (0x0040 ≤ off ∧ off < 0x0080) || (decide (0x1000 ≤ off ∧ off < 0x1800) && off % 0x20 != 0x18) ||
      decide (0x3000 ≤ off ∧ off < 0x3088) || decide (0x3100 ≤ off ∧ off < 0x3180) || decide (0x4000 ≤ off ∧ off < 0x6000))
  else false

/-- Writes of the host to a register that are ignored. -/
def State.hostLocked (s : State) (a : Nat) : Bool :=
  match windowOf a with
  | some (stop, off) => s.windowLocked stop off
  | none =>
    if 0x00100000 ≤ a ∧ a < 0x00103000 then a % 0x40 < 8 && s.ringEn (a / 0x1000 % 16) (a / 0x40 % 64)
    else if 0x00504000 ≤ a ∧ a < 0x00506000 then
      let k := (a - 0x00504000) / 0x20
      (s.flag (chanReg k 0) 0 && s.runs (s.rf (chanReg k 0) 2 6)) ||
        (s.flag (chanReg k 4) 0 && s.runs (s.rf (chanReg k 4) 1 6))
    else if 0x00700100 ≤ a ∧ a < 0x00700200 then s.runs ((a - 0x00700100) / 4)
    else if (a = 0x0060000C ∨ (0x00600040 ≤ a ∧ a < 0x00600050) ∨ a = 0x00600508 ∨ a = 0x00600518) then s.rf 0x00600000 0 3 != 0
    else if 0x00300200 ≤ a ∧ a < 0x00300230 then s.flag 0x00300244 0
    else false

/-- Registers and bits whose write has a command of its own: SYU_VAL, domain votes, `fault`, PIN_HOLD. -/
def ownCommand (a : Nat) : Word :=
  if 0x00800000 ≤ a ∧ a < 0x00880000 then 0xFFFFFFFF
  else if 0x00200000 ≤ a ∧ a < 0x002002C0 then (if a % 0x40 = 4 then 0x38 else if a % 0x40 = 0x1C then 1 else 0)
  else if 0x00600100 ≤ a ∧ a < 0x00600280 then 0xFFFFFFFF
  else 0

/-- R5: what a write by access type leaves in a register. -/
def accessWrite (rw w1c old v : Word) : Word := (old &&& ~~~(rw ||| w1c)) ||| (v &&& rw) ||| (old &&& w1c &&& ~~~v)

/-- R422, R423: bits of a register that a write changes now. -/
def State.rwNow (s : State) (a : Nat) (rw : Word) : Word :=
  if a = 0x2000 ∧ s.flag 0x2000 0 then 1 else rw

/-- What follows a write of a register: a trace is enabled (R488), a masked vector is unmasked, a column bank is
written too early (R231). -/
def State.afterWrite (s : State) (a : Nat) (old : Word) : State :=
  if (a = 0x03010000 ∨ a = 0x03010100) ∧ !bitOf old 0 ∧ s.flag a 0 then s.wr (a + 0x30) 0
  else if 0x0010E000 ≤ a ∧ a < 0x0010F000 ∧ a % 16 = 12 then
    let v := (a - 0x0010E000) / 16
    let pba := 0x0010F000 + 4 * (v / 32)
    if bitOf old 0 ∧ !s.flag a 0 ∧ s.flag pba (v % 32) then (s.clrFlag pba (v % 32)).signal v else s
  else match windowOf a with
  | some (stop, off) =>
    if kindOf stop = .at ∧ (off / 0x800 = 2 ∨ off / 0x800 = 4) then s.bankEarly stop (off / 0x400 % 2) (off % 0x400 / 4) else s
  | none => s

/-- The CFG registers of the rings. -/
def ringCfgOf (a : Nat) : Option (Nat × Nat) :=
  if 0x00100000 ≤ a ∧ a < 0x00103000 ∧ a % 0x40 = 8 then some (a / 0x1000 % 16, a / 0x40 % 64) else none

/-- R455: in RECOVERY only the security range of BAR0 holds registers. -/
def State.regThere (s : State) (a : Nat) : Bool :=
  (regRow a).isSome && (s.rf 0x00300000 0 2 != 2 || (decide (0x00300000 ≤ a) && decide (a < 0x00400000)))

/-- R5, R402: a write of one 32-bit word of BAR0. -/
def State.regWrite (s : State) (a : Nat) (v : Word) : State :=
  match regRow a with
  | none => s
  | some r =>
    match ringCfgOf a with
    | some (kind, n) => if bitOf v 0 = s.ringEn kind n then s.ringCfg kind n v else s
    | none =>
      let keep := ownCommand a
      let rw := if s.hostLocked a then 0 else s.rwNow a (BitVec.ofNat 32 r.rw) &&& ~~~keep
      let old := s.rd a
      (s.wr a (accessWrite rw (BitVec.ofNat 32 r.w1c &&& ~~~keep) old v)).afterWrite a old

/-- The enable fields of a unit's registers (R431). -/
def enableBits (a : Nat) : Word :=
  match windowOf a with
  | some (stop, off) =>
    match kindOf stop with
    | .at | .sft | .cz | .sor =>
      if 0xE000 ≤ off ∧ off < 0xE200 ∧ off % 0x40 = 0 ∧ kindOf stop ≠ .sor then 1
      else if 0x0400 ≤ off ∧ off < 0x0480 ∧ off % 16 = 0 then 1
      else if kindOf stop = .at ∧ off = 0x0080 then 0x80000000
      else if kindOf stop = .sft ∧ 0x0100 ≤ off ∧ off < 0x0180 ∧ off % 0x20 = 0x10 then 8
      else 0
    | .mt =>
      if 0x1000 ≤ off ∧ off < 0x1800 ∧ off % 0x20 = 0 then 0x10
      else if 0x3000 ≤ off ∧ off < 0x3080 ∧ off % 8 = 4 then 0x80000000
      else if 0x3100 ≤ off ∧ off < 0x3180 ∧ off % 0x20 = 0 then 0x81
      else 0
    | _ => 0
  | none =>
    if 0x00400000 ≤ a ∧ a < 0x00402000 then
      (if a % 0x100 = 0 then 1 else if 0x40 ≤ a % 0x100 ∧ a % 0x100 < 0x80 ∧ a % 16 = 0 then 1 else 0)
    else if 0x00406000 ≤ a ∧ a < 0x00406080 then (if 0x10 ≤ a % 0x40 ∧ a % 0x40 < 0x30 then 0x80000000 else 0)
    else if 0x00504000 ≤ a ∧ a < 0x00506000 then (if a % 0x20 = 0 then 3 else if a % 0x20 = 4 then 1 else 0)
    else if 0x00600600 ≤ a ∧ a < 0x00600700 then (if a % 0x20 = 0 then 1 else 0)
    else if 0x00600700 ≤ a ∧ a < 0x00600780 then (if a % 16 = 0 then 1 else 0)
    else if a = 0x00600508 ∨ a = 0x00600518 then 1
    else 0

/-- The 32-bit words of an access. -/
def accessWords (a : Nat) (v : W64) (size : Nat) : List (Nat × Word) :=
  if size = 4 then [(a, v.extractLsb' 0 32)] else [(a, v.extractLsb' 0 32), (a + 4, v.extractLsb' 32 32)]

/-- R341: the Capsule gateway's registers that a write reaches: CGW_CMD, CGW_ARG, CGW_FWD and CGW_BELTPIPEp. -/
def cgwWritable (a : Nat) : Bool :=
  a == 0x00700000 || a == 0x00700004 || a == 0x00700030 || (decide (0x00700100 ≤ a) && decide (a < 0x00700200))

/-- R455: in RECOVERY the Capsule gateway's range holds no register. -/
def State.cgwThere (s : State) (a : Nat) : Bool :=
  decide (0x00700000 ≤ a) && decide (a < 0x00800000) && s.rf 0x00300000 0 2 != 2

/-- R341, R342: a write in the Capsule gateway's range; a word that it does not allow refuses and counts the write. -/
def State.cgwRegWrite (s : State) (ws : List (Nat × Word)) : State :=
  let s' := ws.foldl (fun s w => if cgwWritable w.1 then s.regWrite w.1 w.2 else s) s
  if ws.all fun w => cgwWritable w.1 then s' else s'.count 0x0070000C 0 32

/-- R6, R342: a write of a size or alignment that no register takes, or to an address that holds none. -/
def State.noRegister (s : State) (a : Nat) : State :=
  if s.cgwThere a then s.count 0x0070000C 0 32 else s.unmapped a false true

/-- A write applied by the domain's registers. -/
def State.applyWrite (s : State) (a : Nat) (v : W64) (size : Nat) : State :=
  let ws := accessWords a v size
  if s.cgwThere a then s.cgwRegWrite ws
  else if ws.all fun w => s.regThere w.1 then ws.foldl (fun s w => s.regWrite w.1 w.2) s
  else (ws.foldl (fun s w => if s.regThere w.1 then s.regWrite w.1 w.2 else s) s).unmapped a false true

/-- R402, R426, R431: REGISTER_WRITE. -/
def State.hostWrite (s : State) (a : Nat) (v : W64) (size : Nat) : State :=
  if 0x04000000 ≤ a then s
  else if (size ≠ 4 ∧ size ≠ 8) ∨ a % size ≠ 0 then s.noRegister a
  else
    let d := addrDomain a
    if s.inRun d then s.applyWrite a v size
    else if (accessWords a v size).any fun w => (w.2 &&& enableBits w.1) != 0 then
      let s := s.vote d 0
      let h := tget [] s.pwr.held d
      if h.length < 16 then { s with pwr := { s.pwr with held := tput [] s.pwr.held d (h ++ [(a, v, size)]) } }
      else s.offAccess
    else if s.answers d then s.applyWrite a v size
    else s.offAccess

/-! ## Reads -/

/-- R308: the camera that uses a link, or its buffer. -/
def State.linkCamera (s : State) (l : Nat) : Nat :=
  let uses (c : Nat) : Bool :=
    let w := s.rd (camReg c 0)
    bitOf w 0 && (if 16 ≤ c then bitsOf w 12 4 == l else decide (c ≤ l) && decide (l < c + 2 ^ bitsOf w 2 2))
  ((List.range 32).find? uses).getD 0

/-- R308: the bytes that the cameras hold in the line buffer of a link, each line spread over its camera's buffers. -/
def State.bufUsed (s : State) (l : Nat) : Nat :=
  (s.ingest.cams.flatMap fun c => c.2.held.map fun h =>
    if h.links.contains l then (h.size + h.links.length - 1 - h.links.idxOf l) / h.links.length else 0).sum

/-- MT_SPILLq +4 (R260): cells of the head region and of staging while the queue is spilled. -/
def State.spillView (s : State) (stop q : Nat) : Word :=
  let x := s.qx stop q
  if x.spill.isNone then 0
  else
    let head := s.headCells stop q
    let stage := x.spill.elim 0 (fun p => ((p.writing ++ p.staged).map (·.cell)).eraseDups.length) + s.qOpenLen stop q
    BitVec.ofNat 32 (head % 2 ^ 16 + stage % 2 ^ 16 * 2 ^ 16)

/-- LQn_LEVEL (R233). -/
def State.lqView (s : State) (stop q : Nat) : Word :=
  let l := (s.lqAt stop q).q
  BitVec.ofNat 32 (l.length % 64 + (l.filter fun f => f.op == 1).length % 64 * 2 ^ 8 +
    (l.head?.elim 0 fun f => f.tag.toNat) * 2 ^ 16)

/-- R476: what the thermal registers show: the hottest sensor of a die and its number, a stack, the peak. Free values (log 10). -/
def thermalView (time a : Nat) : Word :=
  let v := Config.unstated 476 (time * 8 + (a - 0x00200900) / 4)
  BitVec.ofNat 32 (v % 2 ^ 12 + (if a < 0x00200908 then v / 2 ^ 12 % 16 * 2 ^ 16 else 0))

/-- What a host read of a 32-bit word finds where the value is computed from the unit's state: MSH_ARRIVAL and HZ_CTL
(R235, R230), LQn_LEVEL (R233), AT_STATUS `loadw_busy` and AT_CHAIN_STATUS `busy` (R70, R72), MT_POOL, MT_XSTAT
`flushing`, MT_SPILLq and MT_RWIN (R127, R207, R260), CGW_RING (R352), the levels of a channel (R335),
the camera of a link, the bytes in its buffer and `tx_busy` (R308), HBP_INFLIGHT (R310), SEC_ATT_REP and
SEC_CERT (R459), PWR_DOMd_STOPT (R443), `ev_held` (R423). -/
def State.readView (s : State) (a : Nat) : Word :=
  match windowOf a with
  | some (stop, off) =>
    let k := kindOf stop
    if off = 0xF418 then
      BitVec.ofNat 32 ((s.arrBuf stop).length % 32 + ((s.arrBuf stop).head?.elim 0 fun f => f.flow % 8192) * 2 ^ 8)
    else if off = 0xF800 then (if s.debugPerm 0 then s.rd a else 0)
    else if 0x0400 ≤ off ∧ off < 0x0480 ∧ off % 16 = 4 then s.lqView stop ((off - 0x0400) / 16)
    else if k = .at ∧ off = 0x0010 then setBits (s.rd a) 3 1 (boolNat (s.atile stop).ld.isSome)
    else if k = .at ∧ off = 0x0084 then
      setBits (s.rd a) 0 1 (boolNat (!(s.atile stop).chainIn.isEmpty || s.chain.any fun c => c.stop == stop))
    else if k = .mt ∧ off = 0x0010 then
      BitVec.ofNat 32 ((s.mtile stop).free.length % 2 ^ 15 + (s.poolCells stop).length % 2 ^ 15 * 2 ^ 16)
    else if k = .mt ∧ off = 0x3084 then setBits (s.rd a) 15 1 (boolNat !(s.mtile stop).flushes.isEmpty)
    else if k = .mt ∧ 0x6000 ≤ off ∧ off < 0x6200 ∧ off % 8 = 4 then s.spillView stop ((off - 0x6000) / 8)
    else if k = .mt ∧ off = 0x6200 then BitVec.ofNat 32 (s.rwinFree stop)
    else s.rd a
  | none =>
    if 0x00710000 ≤ a ∧ a < 0x00750000 then
      (tget 0 s.cap.ring ((a - 0x00710000) / 64)).extractLsb' (8 * (a % 64)) 32
    else if 0x00504000 ≤ a ∧ a < 0x00506000 ∧ a % 0x20 = 0x1C then
      let k := (a - 0x00504000) / 0x20
      setBits (setBits (s.rd a) 0 6 (tget [] s.txq k).length) 8 5 (tget [] s.link.rx k).length
    else if 0x03000000 ≤ a ∧ a < 0x03001000 ∧ a % 0x100 = 0xC then BitVec.ofNat 32 (s.hbpFlight ((a - 0x03000000) / 0x100))
    else if 0x00404000 ≤ a ∧ a < 0x00404200 ∧ a % 0x20 = 8 then BitVec.ofNat 32 (s.bufUsed ((a - 0x00404000) / 0x20))
    else if 0x00404000 ≤ a ∧ a < 0x00404200 ∧ a % 0x20 = 0x14 then
      setBits (s.rd a) 16 1 (boolNat !(tget [] s.ingest.ctlTx ((a - 0x00404000) / 0x20)).isEmpty)
    else if 0x00404000 ≤ a ∧ a < 0x00404200 ∧ a % 0x20 = 0 then setBits (s.rd a) 5 5 (s.linkCamera ((a - 0x00404000) / 0x20))
    else if 0x00310000 ≤ a ∧ a < 0x00320000 then
      BitVec.ofNat 32 (leNat ((s.boot.report.drop (a - 0x00310000)).take 4))
    else if 0x00320000 ≤ a ∧ a < 0x00328000 then
      BitVec.ofNat 32 (leNat ((List.range 4).map fun i => Config.certificate (a - 0x00320000 + i)))
    else if 0x00200000 ≤ a ∧ a < 0x002002C0 ∧ (a % 0x40 = 0x20 ∨ a % 0x40 = 0x24) then
      let d := (a - 0x00200000) / 0x40
      let now := if s.phase d = phStop ∨ s.phase d = phFault then s.time - tget 0 s.pwr.stopAt d else 0
      BitVec.ofNat 32 ((tget 0 s.pwr.stopNs d + now) / 1000 / (if a % 0x40 = 0x20 then 1 else 2 ^ 32))
    else if a = 0x00200604 ∨ a = 0x00200608 then BitVec.ofNat 32 (Config.unstated 443 (s.time * 2 + a / 4 % 2) % 4096)
    else if 0x00200900 ≤ a ∧ a < 0x00200914 then thermalView s.time a
    else if a = 0x2004 then setBits (s.rd a) 0 9 s.host.events.length else s.rd a

/-- R5, R6, R402: what a host read of an aligned word of BAR0 returns. -/
def State.readReg (s : State) (a : Nat) : Word :=
  if 0x00680000 ≤ a ∧ a < 0x00700000 then (if s.answers dRhz then s.snapWord a else 0)
  else if s.regThere a && s.answers (addrDomain a) then s.readView a
  else 0

end Sys2Proof.Machine
end

