-- ==== Sys2Proof/Machine/Links.lean ====
section
/-! DEFINITION. Riham ports: numbering, acknowledgement and retry, port states, channels (R311 to R322, R334, R335). -/

namespace Sys2Proof.Machine

def rihReg (p off : Nat) : Nat := 0x00500000 + 0x100 * p + off
/-- R322: port states. -/
def lkDown : Nat := 0
def lkTrain : Nat := 1
def lkAligned : Nat := 2
def lkUp : Nat := 3
def lkHeld : Nat := 4
/-- R323: HELD reasons. -/
def hrLost : Nat := 7
def hrLeft : Nat := 8

def State.lstat (s : State) (p : Nat) : Nat := s.rf (rihReg p 0) 0 3
def State.setLstat (s : State) (p v : Nat) : State := s.wf (rihReg p 0) 0 3 v
def State.peerId (s : State) (p : Nat) : Nat := s.rf (rihReg p 0) 8 4
def State.port (s : State) (p : Nat) : Port := tget {} s.link.ports p

/-- A port's state, with the count of unacknowledged flits in its register (R334). -/
def State.setPort (s : State) (p : Nat) (x : Port) : State :=
  let s := { s with link := { s.link with ports := tput {} s.link.ports p x } }
  s.wf (rihReg p 8) 0 10 x.retry.length

def State.modPort (s : State) (p : Nat) (f : Port → Port) : State := s.setPort p (f (s.port p))

/-- The ports that are UP. -/
def State.upPorts (s : State) : List Nat := (List.range 8).filter fun p => s.lstat p == lkUp

/-- The link carries control flits (R322). -/
def State.carries (s : State) (p : Nat) : Bool := s.lstat p == lkAligned || s.lstat p == lkUp || s.lstat p == lkHeld

def State.txNext (s : State) (p : Nat) : Nat := s.rf (rihReg p 4) 0 12
def State.rxExp (s : State) (p : Nat) : Nat := s.rf (rihReg p 4) 16 12

def noFlit : Flit :=
  { dst := 0, src := 0, rsv := false, vc := false, typ := 0, dstQ := 0, op := 0, tag := 0, epoch := 0, flow := 0, payload := 0,
    hdrErr := 0, par := 0, entered := 0 }

/-! ## Sending -/

/-- R312: the parity of the i-th 64 bits of a payload. -/
def parityAt (d : Payload) (i : Nat) : Bool := (List.range 64).foldl (fun b j => b ^^ d.getLsbD (64 * i + j)) false

/-- R212: the parity byte of a payload. -/
def parityByte (d : Payload) : Nat := (List.range 8).foldl (fun n i => n + boolNat (parityAt d i) * 2 ^ i) 0

/-- R313: the link control field. -/
def linkControl (l : LinkFlit) : Nat := l.lseq % 4096 + l.lack % 4096 * 2 ^ 12 + l.ltype % 4 * 2 ^ 24 + l.chan % 32 * 2 ^ 26

/-- R312, R212, R313: a link flit on the wire. The check bits are free, since the spec does not give their code (log 27). -/
def linkWord (l : LinkFlit) : LinkWord :=
  let h := flitHeader l.flit
  let par := parityByte l.flit.payload ^^^ l.flit.par.toNat
  { bits := BitVec.ofNat 640 (l.flit.payload.toNat + (h + Config.unstated 2120 h % 2 ^ 8 * 2 ^ 80 + par * 2 ^ 88) * 2 ^ 512 +
      linkControl l * 2 ^ 608)
    chk := l.flit.hdrErr
    control := l.control }

/-- R312, R212, R313: the link flit that the 640 bits spell. -/
def linkFlitOf (w : LinkWord) : LinkFlit :=
  let f (lo n : Nat) : Nat := (w.bits.extractLsb' lo n).toNat
  let h (lo n : Nat) : Nat := f (512 + lo) n
  let d : Payload := w.bits.extractLsb' 0 512
  { lseq := f 608 12, lack := f 620 12, ltype := f 632 2, chan := f 634 5, control := w.control
    flit := { dst := h 0 9, src := h 9 9, rsv := h 18 1 == 1, vc := h 19 1 == 1, typ := h 20 4, dstQ := h 24 6, op := h 30 2
              tag := BitVec.ofNat 16 (h 32 16), epoch := BitVec.ofNat 16 (h 48 16), flow := h 64 13, payload := d
              hdrErr := w.chk, par := BitVec.ofNat 8 (h 88 8 ^^^ parityByte d), entered := 0 } }

/-- Link flits leave on a port. -/
def State.onWire (s : State) (p : Nat) (l : List LinkFlit) : State := s.modPort p fun x => { x with wire := x.wire ++ l.map linkWord }

/-- A command of the port begins: nothing has been sent by it yet. -/
def State.freshWire (s : State) (p : Nat) : State := s.modPort p fun x => { x with wire := [] }

/-- R313: with nothing else ready an idle flit leaves, with a valid `lack` as every flit. -/
def State.fillIdle (s : State) (p : Nat) : State :=
  if s.carries p ∧ (s.port p).wire.isEmpty then
    s.onWire p [{ lseq := 0, lack := s.rxExp p, ltype := 2, chan := 0, flit := noFlit, control := none }]
  else s

/-- R314: a numbered flit leaves and stays in the retry buffer; the caller has seen that there is room. -/
def State.sendNum (s : State) (p ltype chan : Nat) (f : Flit) (c : Option Control) : State :=
  let n := s.txNext p
  let l : LinkFlit := { lseq := n, lack := s.rxExp p, ltype := ltype, chan := chan, flit := f, control := c }
  let s := s.wrap (rihReg p 4) 0 12
  (s.modPort p fun x => { x with retry := x.retry ++ [l] }).onWire p [l]

/-- R316, R322: unacknowledged flits, from the i-th on, leave again, each with the number now expected of the peer; a held link carries no
channel flit. -/
def State.resend (s : State) (p i : Nat) : State :=
  let again := ((s.port p).retry.drop i).filter fun l => s.lstat p == lkUp || l.ltype != 0
  s.onWire p (again.map fun l => { l with lack := s.rxExp p })

def isResume : Control → Bool
  | .resume _ => true
  | _ => false

/-- Control flits that wait are sent while the retry buffer has room (R314); after a retrain only the one that carries E, until the
peer's has come (R317). -/
def State.flushCtl (s : State) (p : Nat) : Nat → State
  | 0 => s
  | n + 1 =>
    match (s.port p).ctl with
    | [] => s
    | c :: r =>
      if s.carries p ∧ (s.port p).retry.length < 512 ∧ (!(s.port p).resume ∨ isResume c) then
        ((s.modPort p fun x => { x with ctl := r }).sendNum p 1 0 noFlit (some c)).flushCtl p n
      else s

def State.sendCtl (s : State) (p : Nat) (c : Control) : State :=
  (s.modPort p fun x => { x with ctl := x.ctl ++ [c] }).flushCtl p ((s.port p).ctl.length + 1)

/-- R313, R315: a NAK leaves. -/
def State.sendNak (s : State) (p : Nat) : State :=
  let e := s.rxExp p
  s.onWire p [{ lseq := e, lack := e, ltype := 3, chan := 0, flit := noFlit, control := none }]

/-! ## Port states -/

/-- R317: the retry buffer is discarded as a link enters HELD with LOST or LEFT. -/
def State.dropRetry (s : State) (p : Nat) : State :=
  let s := if (s.port p).retry.isEmpty then s else s.setFlag (rihReg p 0x1C) 5
  s.modPort p fun x => { x with retry := [], ctl := [], streak := 0 }

/-- The link enters HELD with a reason (R322, R323). -/
def State.hold (s : State) (p reason : Nat) : State :=
  let s := (s.setLstat p lkHeld).wf (rihReg p 0) 4 4 reason
  let s := s.modPort p fun x => { x with want := false, fromUp := false, pend := none, resume := false }
  if reason = hrLost ∨ reason = hrLeft then s.dropRetry p else s

/-- R325, R326, R328: a link is put into HELD: at once where it carries anything, once it locks where it trains or has lost its
signal (DEDUCED, log 15). A port that has never met a peer and is DOWN has no link. -/
def State.holdLink (s : State) (p reason : Nat) : State :=
  if s.carries p then s.hold p reason
  else if s.lstat p = lkTrain ∨ (s.port p).met then
    let s := s.wf (rihReg p 0) 4 4 reason
    let s := s.modPort p fun x => { x with fromUp := false, pend := some reason }
    if reason = hrLost ∨ reason = hrLeft then s.dropRetry p else s
  else s

/-- R322: lock is lost, or progress: the port trains again. From UP the link is kept (R317). -/
def State.retrain (s : State) (p : Nat) : State :=
  let up := s.lstat p = lkUp
  let s := if up then s.setFlag (rihReg p 0x1C) 3 else s
  let held := s.lstat p = lkHeld
  (s.setLstat p lkTrain).modPort p fun x => { x with since := s.time, streak := 0, fromUp := decide up || x.fromUp, wire := [], cws := 0
                                                     lostSince := x.lostSince && !decide held }

/-- R322: signal on all 4 receive lanes. -/
def State.signalDetect (s : State) (p : Nat) : State :=
  if 8 ≤ p ∨ !s.inRun dLnk ∨ s.lstat p ≠ lkDown ∨ (s.port p).signal then s
  else (s.setLstat p lkTrain).modPort p fun x => { x with signal := true, since := s.time }

/-- R323: what this part sends of itself in a JOIN exchange. -/
def State.joinInfo (s : State) (p : Nat) : JoinInfo :=
  { devId := s.devId, port := p, serial := Config.serial 0, digest := BitVec.ofNat 256 (s.rdWide 0x00508020 8)
    profile := (s.gov.imgs.head?).elim 2 (·.profile), firmware := s.rd 0x00508014, protocol := Config.unstated 323 0
    stepOk := s.link.stepOk, hasUp := !s.upPorts.isEmpty, runs := s.loadedPipes.any fun q => s.pstate q == psRunning
    declaredLost := (s.port p).lostSince, hasLeft := s.link.left }

/-- R322, R317: lock within 50 ms. A link that retrains from UP is UP again, and its first control flit carries E. -/
def State.trainingLock (s : State) (p : Nat) : State :=
  let x := s.port p
  if 8 ≤ p ∨ !s.inRun dLnk ∨ s.lstat p ≠ lkTrain ∨ x.since + 50000000 < s.time ∨ s.clockGone 1 then s
  else if x.fromUp ∧ !x.lostSince then
    let s := (s.setLstat p lkUp).modPort p fun x => { x with fromUp := false, resume := true
                                                             ctl := .resume (s.rxExp p) :: x.ctl }
    s.flushCtl p ((s.port p).ctl.length)
  else match x.pend with
    | some reason => s.hold p reason
    | none =>
      let s := (s.setLstat p lkAligned).modPort p fun x => { x with fromUp := false }
      if x.want then s.sendCtl p (.join (s.joinInfo p)) else s

/-- R322: no lock within 50 ms. -/
def State.trainingTimeout (s : State) (p : Nat) : State :=
  if p < 8 ∧ s.lstat p = lkTrain ∧ (s.port p).since + 50000000 ≤ s.time then
    (s.setLstat p lkDown).modPort p fun x => { x with since := s.time }
  else s

/-- R322: 10 ms later training is tried again. -/
def State.trainRetry (s : State) (p : Nat) : State :=
  let x := s.port p
  if p < 8 ∧ s.inRun dLnk ∧ s.lstat p = lkDown ∧ x.signal ∧ x.since + 10000000 ≤ s.time then
    (s.setLstat p lkTrain).modPort p fun x => { x with since := s.time }
  else s

/-- R322: lock is lost. -/
def State.lockLost (s : State) (p : Nat) : State := if p < 8 ∧ s.carries p then s.retrain p else s

/-! ## Acknowledgement and go-back -/

/-- The place of number n among the unacknowledged flits (R316). -/
def State.unackAt (s : State) (p n : Nat) : Option Nat :=
  let k := (s.port p).retry.length
  let i := (n + 4096 + k - s.txNext p) % 4096
  if n < 4096 ∧ i < k then some i else none

/-- R313: a cumulative acknowledgement. -/
def State.takeLack (s : State) (p lack : Nat) : State :=
  let k := (s.port p).retry.length
  let a := (lack + 4096 + k - s.txNext p) % 4096
  if 1 ≤ a ∧ a ≤ k then
    (s.modPort p fun x => { x with retry := x.retry.drop a, advance := s.time, streak := 0 }).flushCtl p ((s.port p).ctl.length)
  else s

/-- R316: the sender goes back to the i-th unacknowledged flit; after 16 in a row the port retrains. -/
def State.goBack (s : State) (p i : Nat) : State :=
  let x := s.port p
  let n := ((x.retry[i]?).map (·.lseq)).getD 0
  let s := (s.count (rihReg p 0xC) 0 16).modPort p fun x => { x with streak := x.streak + 1
                                                                     back := (n, s.time) :: x.back.filter fun b => decide (s.time < b.2 + 2000) }
  let s := s.resend p i
  if 16 ≤ x.streak + 1 then s.retrain p else s

/-- R316: a NAK(n) arrives. -/
def State.takeNak (s : State) (p n : Nat) : State :=
  let recent := (s.port p).back.any fun b => b.1 == n && decide (s.time < b.2 + 2000)
  match s.unackAt p n with
  | some i => if recent then s.setFlag (rihReg p 0x1C) 2 else s.goBack p i
  | none => s.setFlag (rihReg p 0x1C) 2

/-- R316: 2 µs without an advance of `lack`. -/
def State.goBackTimeout (s : State) (p : Nat) : State :=
  let x := s.port p
  let from_ := max x.advance ((x.back.head?).elim 0 (·.2))
  if p < 8 ∧ s.carries p ∧ !x.retry.isEmpty ∧ from_ + 2000 ≤ s.time then
    (s.freshWire p).goBack p 0
  else s

/-! ## Channels -/

def chanKey (p c : Nat) : Nat := 32 * p + c

/-- The link stop of a port (R7). -/
def linkStop (p : Nat) : Nat := unitStop .lnk (p / 2)

/-- R318, R328: a flit is dropped and shown in `chan_stale`. -/
def State.stale (s : State) (p : Nat) : State := s.setFlag (rihReg p 0x1C) 4

/-- R319: a link credit for a channel arrives. -/
def State.linkCredit (s : State) (p c : Nat) : State :=
  if p < 8 ∧ c < 32 ∧ s.carries p then
    let a := chanReg (chanKey p c) 0x1C
    s.wf a 16 5 (min 16 (s.rf a 16 5 + 1))
  else s

/-- R318: the head of a transmit half: dropped when its epoch is not its pipeline's, sent on a link credit otherwise. -/
def State.chanTransmit (s : State) (p c : Nat) : State :=
  let k := chanKey p c
  if 8 ≤ p ∨ 32 ≤ c ∨ !s.flag (chanReg k 0) 0 then s
  else
    match tget [] s.txq k with
    | [] => s
    | f :: rest =>
      let pop (s : State) : State :=
        let s := { s with txq := tput [] s.txq k rest }
        s.credit (s.flag (chanReg k 0) 1) (s.rf (chanReg k 0) 16 16) (linkStop p)
      if f.epoch ≠ s.pipeEpoch (s.rf (chanReg k 0) 2 6) then (pop s).stale p
      else if s.lstat p = lkUp ∧ !s.link.closed.contains k ∧ (s.port p).retry.length < 512 ∧ !(s.port p).resume ∧
          s.rf (chanReg k 0x1C) 16 5 ≠ 0 then
        let a := chanReg k 0x1C
        let s := (pop s).wf a 16 5 (s.rf a 16 5 - 1)
        (s.freshWire p).sendNum p 0 c f none
      else s

/-- R315, R328: a data flit is delivered to its receive half. -/
def State.chanDeliver (s : State) (p c : Nat) (f : Flit) : State :=
  let k := chanKey p c
  let q := tget [] s.link.rx k
  if s.lstat p ≠ lkUp ∨ s.link.closed.contains k ∨ !s.flag (chanReg k 4) 0 ∨ 16 ≤ q.length then s.stale p
  else { s with link := { s.link with rx := tput [] s.link.rx k (q ++ [{ f with entered := s.ck }]) } }

/-- R319: free flits of the channel's destination, by the stop's copy of the credit object. -/
def State.chanFree (s : State) (k : Nat) : Word :=
  BitVec.ofNat 32 (s.rf (chanReg k 0x14) 16 16) - (s.rd (chanReg k 0x18) - tget 0 s.link.v k)

/-- R216, R319, R320, R321: the head of a receive half leaves into the mesh on the channel's flow, in one of its slots, from the
CK_MESH cycle after its arrival on and one flit in a cycle, with the epoch of its pipeline; a link credit goes back. -/
def State.chanDepart (s : State) (p c : Nat) : State :=
  let k := chanKey p c
  let stop := linkStop p
  let n := s.ck % 64
  let slot := if n < 32 then s.flag (chanReg k 0xC) n else s.flag (chanReg k 0x10) (n - 32)
  match tget [] s.link.rx k with
  | [] => s
  | f :: rest =>
    if 8 ≤ p ∨ 32 ≤ c ∨ !s.flag (chanReg k 4) 0 ∨ s.chanFree k = 0 ∨ !slot ∨ s.ck ≤ f.entered ∨ tget 0 s.link.gone k = s.ck + 1 then s
    else
      let w := s.rd (chanReg k 4)
      let f : Flit := { f with dst := bitsOf w 7 9, src := stop, rsv := true, vc := false, typ := 0, dstQ := bitsOf w 16 6
                               epoch := s.pipeEpoch (bitsOf w 1 6), flow := s.rf (chanReg k 8) 0 13, hdrErr := 0, par := 0
                               entered := s.ck }
      let s := { s with link := { s.link with rx := tput [] s.link.rx k rest, gone := tput 0 s.link.gone k (s.ck + 1) } }
      let s := ((s.wrap (chanReg k 0x18) 0 32).freshWire p).sendCtl p (.credit c)
      if 447 < f.dst then s.setFlag (mshErr stop) 5
      else
        let ch := (s.mirror stop 0 f).checkHeader stop f
        match ch.2 with
        | some f => if f.dst = stop then ch.1.setArr stop (ch.1.arrBuf stop ++ [f]) else ch.1.enterLink f stop (linkTo stop f.dst) s.ck
        | none => ch.1

/-- R319: at free 0 the stop reads the object again, at most once in 64 CK_MESH cycles. -/
def State.chanReread (s : State) (p c : Nat) : State :=
  let k := chanKey p c
  let at_ := tget 0 s.link.vAt k
  if p < 8 ∧ c < 32 ∧ s.flag (chanReg k 4) 0 ∧ s.chanFree k = 0 ∧ (at_ = 0 ∨ at_ + 63 ≤ s.ck) then
    let v := s.rd (syuVal (s.rf (chanReg k 0x14) 0 16))
    { s with link := { s.link with v := tput 0 s.link.v k v, vAt := tput 0 s.link.vAt k (s.ck + 1) } }
  else s

/-- R216, R319: in each CK_MESH cycle the heads leave whose slot it is. -/
def State.chanTick (s : State) : State := (s.link.rx.map (·.1)).foldl (fun s k => s.chanDepart (k / 32) (k % 32)) s

end Sys2Proof.Machine
end

