-- ==== Sys2Proof/Machine/Unload.lean ====
section
/-! DEFINITION. What is lost: a pipeline that is unloaded (R429, R416), and the contents of a domain that enters Stop
(R424). -/

namespace Sys2Proof.Machine

/-! ## Unloading a pipeline -/

/-- R248: the segments of loaded images of which no pipeline is left return to no reserve; the images are forgotten. -/
def State.dropImages (s : State) : State :=
  let gone := s.gov.imgs.filter fun l => l.pipes.isEmpty
  let inImage (die n : Nat) (l : Loaded) : Bool :=
    if die = 0 then l.firstA ≤ n && n < l.firstA + l.segA else l.firstB ≤ n && n < l.firstB + l.segB
  let drop (s : State) (die : Nat) : State :=
    let keep := (tget [] s.segs die).filter fun n => !gone.any (inImage die n)
    { s with segs := tput [] s.segs die keep }.wf 0x8010 (16 * die) 16 keep.length
  let s := { s with gov := { s.gov with imgs := s.gov.imgs.filter fun l => !l.pipes.isEmpty } }
  drop (drop s 0) 1

/-- What is under way between the units of a pipeline (R416, R429): its sync operations and waits, its flits, its weight
messages and its fetch reads. -/
def State.purge (s : State) (p : Nat) : State :=
  let i := s.info p
  let mine (o : Nat) : Bool := decide (i.entry.sync0 ≤ o) && decide (o < i.entry.sync0 + i.entry.syncN)
  let asked (r : Reply) : Bool := i.stops.contains r.stop || i.jobs.any fun j => j.stop == r.stop && j.slot == r.slot
  let flow (f : Flit) : Bool := s.flowPipe f.flow == some p
  let m := s.mesh
  let mesh : Mesh := { m with
    cross := m.cross.filter fun x => !flow x.flit
    inj := m.inj.filterMap fun e =>
      let l := e.2.filter fun x => !flow x.flit
      if l.isEmpty then none else some (e.1, l)
    flying := m.flying.filter fun x => !flow x.flit
    arr := m.arr.filterMap fun e =>
      let l := e.2.filter fun f => !flow f
      if l.isEmpty then none else some (e.1, l)
    into := m.into.filter fun x => !flow x.2 }
  let y := s.sync
  let sync : Sync := { y with msgs := y.msgs.filter fun x => !mine x.obj, waits := y.waits.filter fun x => !mine x.obj,
                              replies := y.replies.filter fun x => !asked x }
  let gone (u : UFlit) : Bool := match u.msg with
    | .op x => mine x.obj
    | .reply x => asked x
    | .notice n => n.pipe == p
    | .spill t _ _ _ => i.stops.contains t
    | .event _ => false
  let mesh : Mesh := { mesh with uns := mesh.uns.filter fun u => !gone u }
  State.pendCounts
    { s with mesh := mesh, sync := sync, chain := s.chain.filter fun c => !i.stops.contains c.stop,
             reads := s.reads.filter fun r => !i.stops.contains r.stop,
             notices := s.notices.filter fun n => n.pipe != p }

/-- The spill segments of a tile return to the reserve (R248). -/
def State.freeSpills (s : State) (t : Nat) : State :=
  (s.mtile t).qx.foldl (fun s q => match q.2.spill with
    | some sp => (s.freeSeg (dieOf t) sp.seg).clrFlag (reg t (0x6000 + 8 * q.1)) 0
    | none => s) s

/-- R255, R256, R261: a configuration update is disarmed: tiles, engine jobs and the source forget it. -/
def State.disarm (s : State) (p : Nat) : State :=
  let i := s.info p
  let s := i.stops.foldl (fun s t =>
    if kindOf t = .at ∨ kindOf t = .sft then s.clrFlag (reg t 0x0020) 20 else s) s
  let s := i.jobs.foldl (fun s j => s.setJob j.stop j.slot { s.jobAt j.stop j.slot with armed := none }) s
  (s.clrFlag (epochReg p) 28).modPipe p fun x => { x with update := none }

/-- R215: the slot-table entries of a pipeline's flows become idle. -/
def State.freeSlots (s : State) (p : Nat) : State :=
  (s.flows.filter fun f => f.pipe == p).foldl (fun s f =>
    (flowRegs f).foldl (fun s a => if s.rf a 0 13 = f.flow then s.wr a 0 else s) s) s

/-- R429: a pipeline becomes UNLOADED; its tiles, jobs, queues, handles and sync objects are released. A command on it that
is under way completes with STATE. -/
def State.unloadPipe (s : State) (p : Nat) : State :=
  if s.pstate p = psUnloaded then s
  else
    let i := s.info p
    let x := s.pipeAt p
    let s := ((s.stopDelivery p false).purge p).freeSlots p
    let s := i.stops.foldl (fun s t =>
      let s := if kindOf t = .mt then s.freeSpills t else s
      (s.clrFlag (reg t 4) 31).setSch t {}) s
    let s := i.jobs.foldl (fun s j => (s.wr (jobReg j.stop j.slot 0) 0).setJob j.stop j.slot {}) s
    let imgs := s.gov.imgs.map fun l => { l with pipes := l.pipes.erase p }
    let s := { s with flows := s.flows.filter fun f => f.pipe != p, gov := { s.gov with imgs := imgs } }
    let s := (((s.dropImages.setPipe p {}).setProbe p {}).showImage p 0 0).setPstate p psUnloaded
    let s := match x.cmd with
      | some c => s.complete c stState
      | none => s
    match x.update with
    | some u => s.complete u.cmd stState
    | none => s

/-! ## What a domain loses in Stop -/

/-- R424: the registers of a domain whose writable fields its save area holds. -/
def savedReg (a : Nat) : Bool :=
  (0x00400000 ≤ a && a < 0x00500000) || (0x00500000 ≤ a && a < 0x00508000) || (0x00100000 ≤ a && a < 0x0010F000) ||
    (0x00600100 ≤ a && a < 0x00600400) || (0x00600600 ≤ a && a < 0x00600800)

/-- R424, R337: a domain holds the register, and loses it. -/
def losesReg (d a : Nat) : Bool := addrDomain a == d && !capsuleReg a

/-- R424: the registers of a domain are at reset. -/
def State.loseRegs (s : State) (d : Nat) : State := { s with regs := s.regs.filter fun e => !losesReg d e.1 }

/-- R424, R430 step 2: what the domain's save area takes: its registers with saved fields that are not at reset. -/
def State.saveArea (s : State) (d : Nat) : List (Nat × Word) := s.regs.filter fun e => losesReg d e.1 && savedReg e.1

/-- R424: a register with its writable fields from the save area. -/
def restoredReg (e : Nat × Word) : Word :=
  let m := BitVec.ofNat 32 ((regRow e.1).elim 0 RegRow.rw)
  (regReset e.1 &&& ~~~m) ||| (e.2 &&& m)

/-- A key's stop is not in the domain. -/
def offDomain (d stop : Nat) : Bool := stopDomain stop != d

/-- R424: tile and engine state of a die's compute domain. -/
def State.loseTiles (s : State) (d : Nat) : State :=
  let k (n : Nat) (e : Nat) : Bool := offDomain d (e / n)
  { s with pmem := s.pmem.filter fun e => k 4096 e.1
           sched := s.sched.filter fun e => k 1 e.1
           lq := s.lq.filter fun e => k 8 e.1
           mon := s.mon.filter fun e => k 8 e.1
           pair := s.pair.filter fun e => k 1 e.1
           at_ := s.at_.filter fun e => k 1 e.1
           mt := s.mt.filter fun e => k 1 e.1
           sft := s.sft.filter fun e => k 1 e.1
           eng := s.eng.filter fun e => k 1 e.1
           reads := s.reads.filter fun r => offDomain d r.stop
           chain := s.chain.filter fun c => offDomain d c.stop
           sync := { s.sync with replies := s.sync.replies.filter fun r => offDomain d r.stop }
           mesh := { s.mesh with cross := s.mesh.cross.filter fun x => offDomain d x.stop
                                 into := s.mesh.into.filter fun x => offDomain d x.1
                                 uns := s.mesh.uns.filter fun u => !(u.place == .source) || offDomain d u.stop } }

/-- R424: the contents of a stack and what is under way at its ports. -/
def State.loseHbm (s : State) (stack : Nat) : State :=
  let keep (a : Nat) : Bool := stackOf a != stack
  { s with hbm := { bytes := s.hbm.bytes.filter fun e => keep e.1
                    ue := s.hbm.ue.filter fun w => keep (8 * w)
                    ce := s.hbm.ce.filter fun w => keep (8 * w) }
           reads := s.reads.filter fun r => !(r.admitted && !keep r.addr) }

/-- R424: sync objects, rings in flight, routers and trace stops. The mesh's count of cycles starts anew when it leaves reset (R211). -/
def State.loseHost (s : State) : State :=
  let h := { s.host with cmds := [], compl := [], away := [], recs := [], gwRecs := [], unsig := [], unsigAt := [], halted := [], turn := 63 }
  { s with host := h, sync := {}, mesh := {}, trace := [], ck := 0 }

/-- R424: link state and retry buffers. The signal detectors are in D_AON. -/
def State.loseLinks (s : State) : State :=
  let ports := s.link.ports.filterMap fun e => if e.2.signal then some (e.1, ({ signal := true } : Port)) else none
  { s with txq := [], link := { s.link with ports := ports, rx := [], gone := [], v := [], vAt := [], closed := [] } }

/-- R424: line buffers of the cameras that enter by the domain. -/
def State.loseCams (s : State) (d : Nat) : State :=
  let cams := s.ingest.cams.filter fun e => stopDomain (s.camStop e.1) != d
  let s := { s with ingest := { s.ingest with cams := cams } }
  if d = dIngA then { s with ingest := {} } else s

/-- R424, R390: what domain d loses when it is no longer powered. -/
def State.domainLoss (s : State) (d : Nat) : State :=
  let s := if d = dA ∨ d = dB then s.loseTiles d
    else if d = dHbmA ∨ d = dHbmB then s.loseHbm (d - dHbmA)
    else if d = dIngA ∨ d = dIngB then s.loseCams d
    else if d = dLnk then s.loseLinks
    else if d = dHost then s.loseHost
    else s
  s.loseRegs d

end Sys2Proof.Machine
end

