-- ==== Sys2Proof/Machine/Ingest.lean ====
section
/-! DEFINITION. Cameras: frames, stamps and deliveries (R291 to R298), line buffers and the frame store (R295, R300 to R302),
triggers (R293), GigE Vision blocks (R294) and the CoaXPress control buffers (R289, R308). -/

namespace Sys2Proof.Machine

def State.cam (s : State) (c : Nat) : Cam := tget {} s.ingest.cams c
def State.setCam (s : State) (c : Nat) (x : Cam) : State := { s with ingest := { s.ingest with cams := tput {} s.ingest.cams c x } }
def State.modCam (s : State) (c : Nat) (f : Cam → Cam) : State := s.setCam c (f (s.cam c))

/-! ## What a frame's registers say -/

def Frame.width (f : Frame) : Nat := bitsOf f.cfg 16 15
def Frame.fmt (f : Frame) : Nat := bitsOf f.cfg 4 3
/-- R290: bytes of a pixel's container. -/
def Frame.bpp (f : Frame) : Nat := if f.fmt = 1 ∨ f.fmt = 2 then 2 else 1
def Frame.bytes (f : Frame) : Nat := f.width * f.bpp
def Frame.scan (f : Frame) : Bool := bitOf f.cfg 7
def Frame.lines (f : Frame) : Nat := bitsOf f.frm 0 15
def Frame.ovl (f : Frame) : Nat := bitsOf f.frm 15 15
def Frame.nslots (f : Frame) : Nat := bitsOf f.geom 0 16
def Frame.stride (f : Frame) : Nat := 64 * bitsOf f.geom 16 16
def Frame.base (f : Frame) : Nat := 4096 * bitsOf f.ring 0 24

/-- R300: the place of slot entry and of line l of a frame. -/
def Frame.entryAt (f : Frame) : Nat := f.base + 64 + 64 * (f.seq % f.nslots)
def Frame.lineAt (f : Frame) (l : Nat) : Nat :=
  f.base + up4k (64 + 64 * f.nslots) + f.seq % f.nslots * up4k (f.lines * f.stride) + l * f.stride

/-- R300: the size of the ring. -/
def Frame.ringBytes (f : Frame) : Nat := up4k (64 + 64 * f.nslots) + f.nslots * up4k (f.lines * f.stride)

/-- R11: the stop that a camera's frame enters by. -/
def Frame.stop (f : Frame) (c : Nat) : Nat :=
  if 16 ≤ c then ethStop else unitStop .ing ((if bitOf f.cfg 1 then 2 else 0) + (if c < 8 then 0 else 1))

def stackDom (a : Nat) : Nat := dHbmA + stackOf a

/-- R288, R294: links whose line buffers a camera uses. -/
def camLinks (c : Nat) (cfg : Word) : List Nat :=
  if 16 ≤ c then [bitsOf cfg 12 4] else (List.range (2 ^ bitsOf cfg 2 2)).map fun i => (c + i) % 16

/-- Tag of a line or of a frame (R297). -/
def lineTag (seq l : Nat) : Tag := BitVec.ofNat 16 (seq % 16 * 4096 + l % 4096)

/-! ## Status words -/

/-- A frame in progress, or ended and not yet written complete. -/
def Cam.frame (x : Cam) (seq : Nat) : Option Frame := (x.frames ++ x.ended).find? fun f => f.seq == seq

def Cam.setFrame (x : Cam) (f : Frame) : Cam :=
  let put (g : Frame) : Frame := if g.seq = f.seq then f else g
  { x with frames := x.frames.map put, ended := x.ended.map put }

/-- R306: bits of [7:0] set, and lost lines added. -/
def Frame.mark (f : Frame) (bits lost : Nat) : Frame :=
  { f with status := (f.status % 65536 ||| bits) + holdAt 0xFFFF (f.status / 65536 + lost) * 65536 }

/-- R306, R307: bits are set in a frame's status word and in ING_CAMc_ERR. -/
def State.markFrame (s : State) (c seq bits lost : Nat) : State :=
  match (s.cam c).frame seq with
  | none => s
  | some f =>
    let s := s.setCam c ((s.cam c).setFrame (f.mark bits lost))
    s.wr (camReg c 0x2C) (s.rd (camReg c 0x2C) ||| BitVec.ofNat 32 (bits % 256))

/-- R306: a line of a frame is lost: it counts once, whatever it is lost by. -/
def State.markLost (s : State) (c : Nat) (place : Nat × Nat) (bits : Nat) : State :=
  match (s.cam c).frame place.1 with
  | none => s
  | some f =>
    if f.lostAt.contains place.2 then s.markFrame c place.1 bits 0
    else (s.setCam c ((s.cam c).setFrame { f with lostAt := place.2 :: f.lostAt })).markFrame c place.1 bits 1

/-- The pipelines of a frame's deliveries. -/
def Frame.pipes (f : Frame) : List Nat := (f.dlv.map fun v => bitsOf v.cfg 6 6).eraseDups

/-! ## The line buffer and the frame store -/

/-- R295: a line of a frame is abandoned. -/
def State.lineAbandoned (s : State) (c : Nat) (place : Nat × Nat) : State :=
  let ps := ((s.cam c).frame place.1).elim [] Frame.pipes
  let s := s.modCam c fun x => { x with writes := x.writes.filter fun w => w.line != some place }
  ps.foldl (fun s p => s.tally p 3) (s.markLost c place 16)

/-- R295: a held line is freed; its unacknowledged writes are abandoned. -/
def State.freeHeld (s : State) (c : Nat) (h : HeldLine) : State :=
  let s := s.modCam c fun x => { x with held := x.held.erase h }
  let left := h.places.filter fun p => (s.cam c).writes.any fun w => w.line == some p
  let s := left.foldl (fun s p => s.lineAbandoned c p) s
  if left.isEmpty then s else s.count (camReg c 0x28) 0 16

/-- R295: room for a line: the oldest lines held go. -/
def State.makeRoom (s : State) (c size cap : Nat) : Nat → State
  | 0 => s
  | n + 1 =>
    match (s.cam c).held with
    | [] => s
    | h :: _ =>
      if ((s.cam c).held.map (·.size)).sum + size ≤ cap then s else (s.freeHeld c h).makeRoom c size cap n

/-- The frame-store writes of a line, one for each granule of 256 bytes that it touches (R295, R304). -/
def lineWrites (place : Nat × Nat) : Nat → List Byte → Nat → List FsWrite
  | _, _, 0 => []
  | a, bs, n + 1 =>
    let k := 256 - a % 256
    if bs.length ≤ k then [{ addr := a, data := bs, line := some place, last := true, final := none }]
    else { addr := a, data := bs.take k, line := some place, last := false, final := none } ::
      lineWrites place (a + k) (bs.drop k) n

/-- R12, R295: a line is stored in each of its frames; where the stack's domain is not in Run it is abandoned at once. -/
def State.storeLine (s : State) (c : Nat) (fs : List Frame) (bs : List Byte) : State :=
  match fs with
  | [] => s
  | f :: _ =>
    let places := fs.map fun g => (g.seq, g.idx)
    if !s.inRun (stackDom f.base) then
      (places.foldl (fun s p => s.lineAbandoned c p) s).count (camReg c 0x28) 0 16
    else
      let cap := 262144 * (camLinks c f.cfg).length
      let s := s.makeRoom c bs.length cap ((s.cam c).held.length + 1)
      let ws := fs.flatMap fun g => lineWrites (g.seq, g.idx) (g.lineAt g.idx) bs (bs.length + 1)
      let h : HeldLine := { places := places, size := bs.length, links := camLinks c f.cfg }
      s.modCam c fun x => { x with held := x.held ++ [h], writes := x.writes ++ ws }

/-- A frame-store write of 64 bytes that belongs to no line. -/
def State.storeBlock (s : State) (c a : Nat) (data : List Byte) (final : Option Nat) : State :=
  if s.inRun (stackDom a) then
    s.modCam c fun x => { x with writes := x.writes ++ [{ addr := a, data := data, line := none, last := false, final := final }] }
  else s.modCam c fun x => { x with ended := x.ended.filter fun f => some f.seq != final }

def pad64 (bs : List Byte) : List Byte := bs ++ List.replicate (64 - bs.length) 0

/-- R301: the ring header with the sequence of the newest frame. -/
def Frame.header (f : Frame) (c seq : Nat) : List Byte :=
  pad64 (leBytes seq 4 ++ leBytes f.nslots 4 ++ leBytes f.lines 4 ++ leBytes f.stride 4 ++ leBytes f.fmt 1 ++ leBytes c 1)

/-- R301, R302: a slot entry. -/
def Frame.entry (f : Frame) (complete : Bool) : List Byte :=
  pad64 (if complete then
      leBytes f.seq 4 ++ leBytes f.stored 2 ++ [1, 0] ++ leBytes f.status 4 ++ leBytes f.p0.toNat 4 ++ leBytes f.t0 8 ++
        leBytes f.pn.toNat 4 ++ leBytes f.tn 8
    else leBytes f.seq 4)

/-- An INJECT completes when its last line is stored (R411). -/
def State.injectDone (s : State) (c : Nat) : State :=
  let x := s.cam c
  match x.inj with
  | j :: rest =>
    if j.lines.isEmpty && x.line.isNone && x.writes.isEmpty then
      (s.modCam c fun x => { x with inj := rest }).complete j.cmd stOk 0 0 (leBytes (s.rd (camReg c 0x20)).toNat 4)
    else s
  | [] => s

/-- Held lines with no write under way leave the buffer; frames whose complete entry is written are forgotten. -/
def Cam.settled (x : Cam) (final : Option Nat) : Cam :=
  { x with ended := x.ended.filter fun f => some f.seq != final
           held := x.held.filter fun h => h.places.any fun p => x.writes.any fun w => w.line == some p }

/-- R295: the HBM port acknowledges a camera's oldest frame-store write (log 19). -/
def State.storeAck (s : State) (c : Nat) : State :=
  match (s.cam c).writes with
  | [] => s
  | w :: rest =>
    let data := match w.final with
      | some q => ((s.cam c).frame q).elim [] fun f => f.entry true
      | none => w.data
    let s := (s.hbmPut w.addr data).modCam c fun x => { x with writes := rest }
    let s := match w.line with
      | some p =>
        if w.last then
          match (s.cam c).frame p.1 with
          | some f => s.modCam c fun x => x.setFrame { f with stored := f.stored + 1 }
          | none => s
        else s
      | none => s
    (s.modCam c fun x => x.settled w.final).injectDone c

/-- R12, R295: a stack leaves Run: every frame-store write to it is abandoned at once, line by line. -/
def State.abandonStore (s : State) (stack : Nat) : State :=
  (s.ingest.cams.map (·.1)).foldl (fun s c =>
    let here (w : FsWrite) : Bool := stackOf w.addr == stack
    let lost := (s.cam c).held.filter fun h => h.places.any fun p => (s.cam c).writes.any fun w => here w && w.line == some p
    let s := lost.foldl (fun s h => s.freeHeld c h) s
    let gone := (s.cam c).writes.filter here
    let s := s.modCam c fun x =>
      { x with writes := x.writes.filter (fun w => !here w), ended := x.ended.filter fun f => !gone.any fun w => w.final == some f.seq }
    s.injectDone c) s

/-! ## Deliveries -/

/-- R296: the delivery's credit test for a number of flits, `v` being the credit object's value. -/
def State.dlvRoom (s : State) (c : Nat) (v : Dlv) (value : Word) (flits : Nat) : Bool :=
  let free : Word := BitVec.ofNat 32 (bitsOf v.cred 16 16) - (s.rd (camReg c (0x48 + 0x10 * v.d)) - value)
  decide (flits ≤ free.toNat)

/-- A packet leaves on a delivery (R296, R297). -/
def State.dlvSend (s : State) (c : Nat) (f : Frame) (v : Dlv) (tag : Tag) (flits : List Payload) : State :=
  let r := camReg c (0x48 + 0x10 * v.d)
  let s := s.wr r (s.rd r + BitVec.ofNat 32 flits.length)
  let e := s.pipeEpoch (bitsOf v.cfg 6 6)
  flits.zipIdx.foldl (fun s x =>
    s.sendFlit (f.stop c) (bitsOf v.cfg 2 4) (if x.2 + 1 = flits.length then 1 else 0) tag e x.1 0) s

/-- 64-byte payloads of bytes, the last one filled with zeros. -/
def payloads : List Byte → Nat → List Payload
  | _, 0 => []
  | [], _ => []
  | bs, n + 1 => payloadOf bs :: payloads (bs.drop 64) n

/-- R296, R13: a line's deliveries: those that have no room, or that their pipeline has stopped (R251), drop it. -/
def State.dlvLine (s : State) (c seq l : Nat) (li : LineIn) (bs : List Byte) : State :=
  match (s.cam c).frame seq with
  | none => s
  | some f =>
    let flits := 1 + (bs.length + 63) / 64
    let due := f.dlv.filter fun v => (v.live || v.stopped) && !bitOf v.cfg 1
    let value (v : Dlv) : Word := ((li.vals.find? fun x => x.1 == bitsOf v.cred 0 16).map (·.2)).getD 0
    let go := due.filter fun v => v.live && s.dlvRoom c v (value v) flits
    let s := due.foldl (fun s v =>
      if go.contains v then s.tally (bitsOf v.cfg 6 6) 1
      else ((s.markFrame c seq 1 0).count (camReg c 0x28) 16 16).tally (bitsOf v.cfg 6 6) 2) s
    let status := ((s.cam c).frame seq).elim 0 (·.status)
    let head := leBytes seq 4 ++ leBytes l 2 ++ leBytes f.width 2 ++ leBytes li.time 8 ++ leBytes li.pos.toNat 4 ++ leBytes status 4
    go.foldl (fun s v => s.dlvSend c f v (lineTag seq l) (payloadOf (pad64 head) :: payloads bs (bs.length + 1))) s

/-- R280: the flits of a stamp packet. -/
def Frame.stamp (f : Frame) (c : Nat) (epoch : Tag) : List Payload :=
  let head := leBytes (lineTag f.seq 0).toNat 2 ++ leBytes epoch.toNat 2 ++ leBytes c 1 ++ [0] ++ leBytes f.idx 2 ++ leBytes f.t0 8 ++
    leBytes f.status 4
  payloadOf (pad64 head) :: payloads ((f.marks ++ [f.pn]).flatMap fun p => leBytes p.toNat 4) (f.marks.length + 2)

/-! ## Frames -/

/-- R254: the source of an armed update switches at its frame F: the configuration epoch is the new one. -/
def State.sourceSwitch (s : State) (p seq : Nat) : State :=
  if s.flag (epochReg p) 28 ∧ s.rf (epochReg p) 24 4 = seq % 16 then (s.clrFlag (epochReg p) 28).wrap (epochReg p) 16 8 else s

/-- R291, R298, R307: a camera that a load has bound counts its frames from 0 from its next frame start on. -/
def State.rebind (s : State) (c : Nat) : State :=
  let s := (s.wr (camReg c 0x20) 0xFFFFFFFF).wr (camReg c 0x24) 0
  ((List.range 4).foldl (fun s d => s.wr (camReg c (0x48 + 0x10 * d)) 0) s).modCam c fun x => { x with rebound := false }

/-- R298, R302: a frame begins: it takes the camera's registers as they are, its slot entry is written, then `wseq`. -/
def State.frameBegin (s : State) (c : Nat) : State :=
  let s := if (s.cam c).rebound then s.rebind c else s
  let seq := (s.rd (camReg c 0x20) + 1).toNat
  let r (o : Nat) : Word := s.rd (camReg c o)
  let dlv := (List.range 4).filterMap fun d =>
    let cfg := r (0x40 + 0x10 * d)
    let p := bitsOf cfg 6 6
    if bitOf cfg 0 then
      some ({ d := d, cfg := cfg, cred := r (0x44 + 0x10 * d), live := s.delivers p, stopped := s.dlvStopped p } : Dlv)
    else none
  let f : Frame := { seq := seq, cfg := r 0, frm := r 4, ring := r 8, geom := r 0xC, lat := r 0x10, dlv := dlv }
  let s := (s.wr (camReg c 0x20) (BitVec.ofNat 32 seq)).modCam c fun x => { x with frames := x.frames ++ [f] }
  let s := (s.storeBlock c f.entryAt (f.entry false) none).storeBlock c f.base (f.header c seq) none
  f.pipes.foldl (fun s p => s.sourceSwitch p seq) s

/-- R291: a frame ends: a stamp packet goes to each delivery of type 1 with room, the complete slot entry is written. -/
def State.frameEnd (s : State) (c seq : Nat) : State :=
  match (s.cam c).frame seq with
  | none => s
  | some f =>
    let s := s.modCam c fun x => { x with frames := x.frames.filter fun g => g.seq != seq, ended := x.ended ++ [f] }
    let s := (f.dlv.filter fun v => v.live && bitOf v.cfg 1).foldl (fun s v =>
      let ps := f.stamp c (s.pipeEpoch (bitsOf v.cfg 6 6))
      let value := s.rd (syuVal (bitsOf v.cred 0 16))
      if s.dlvRoom c v value ps.length then s.dlvSend c f v (lineTag seq 0) ps else s) s
    let live := ((f.dlv.filter fun v => v.live && !bitOf v.cfg 1).map fun v => bitsOf v.cfg 6 6).eraseDups
    let s := live.foldl (fun s p =>
      let s := s.tally p 0
      if f.status / 128 % 2 = 1 then s.tally p 4 else s) s
    s.storeBlock c f.entryAt [] (some seq)

/-- R291, R292, R296: a line reaches its end in one of its frames; `lastLine` says that it ends an area-scan image. -/
def State.lineInFrame (s : State) (c seq : Nat) (li : LineIn) (bs : List Byte) (bits : Nat) (lastLine : Bool) : State :=
  match (s.cam c).frame seq with
  | none => s
  | some f =>
    let beyond := !f.scan && decide (f.lines ≤ f.idx)
    let s := if beyond then s.markFrame c seq 32 0
      else
        let g := { f with
          idx := f.idx + 1
          t0 := if f.idx = 0 then li.time else f.t0
          p0 := if f.idx = 0 then li.pos else f.p0
          tn := li.time
          pn := li.pos
          marks := if f.idx % 64 = 0 then f.marks ++ [li.pos] else f.marks }
        let s := s.modCam c fun x => x.setFrame g
        let s := if bits / 2 % 2 = 1 then s.markLost c (seq, f.idx) bits else s.markFrame c seq bits 0
        let s := if bits / 8 % 2 = 1 then f.pipes.foldl (fun s p => s.notice (f.stop c) .error p (some (lineTag seq f.idx))) s else s
        s.dlvLine c seq f.idx li bs
    let n := ((s.cam c).frame seq).elim 0 (·.idx)
    if f.scan then (if f.lines ≤ n then s.frameEnd c seq else s)
    else if lastLine then
      (if n < f.lines then s.markFrame c seq 2 (f.lines - n - f.missed) else s).frameEnd c seq
    else s

/-! ## Lines -/

/-- R291: the next line begins a frame: an image, or a line-scan frame's first line. -/
def State.frameDue (s : State) (c : Nat) : Bool :=
  match (s.cam c).frames.getLast? with
  | none => true
  | some f => f.scan && f.idx == f.lines - f.ovl

/-- The frame that a camera's next line, or the one under way, is stamped for: the newest. -/
def Cam.newest (x : Cam) : Option Frame := x.frames.getLast?

/-- R298: CFG as the next line finds it: the register at a frame start, else as the frame in progress took it. -/
def State.lineCfg (s : State) (c : Nat) : Word :=
  if s.frameDue c then s.rd (camReg c 0) else (s.cam c).newest.elim 0 (·.cfg)

/-- R292, R296: the first pixel word of a line: its stamp and the credit objects' values. -/
def State.lineBegin (s : State) (c : Nat) : State :=
  let s := if s.frameDue c then s.frameBegin c else s
  let objs := ((s.cam c).frames.flatMap fun f => f.dlv.map fun v => bitsOf v.cred 0 16).eraseDups
  let belt := (s.cam c).newest.elim 0 fun f => bitsOf f.cfg 8 3
  let lat := (s.cam c).newest.elim 0 fun f => bitsOf f.lat 0 16
  let li : LineIn := { time := (s.time + 2 ^ 64 - lat) % 2 ^ 64, pos := s.rd (0x00600704 + 0x10 * belt),
                       vals := objs.map fun o => (o, s.rd (syuVal o)), unsync := s.flag 0x0050800C 0 }
  s.modCam c fun x => { x with line := some li }

/-- The camera's stop runs. -/
def State.camRuns (s : State) (c : Nat) : Bool := c < 32 && s.answers (stopDomain (s.camStop c))

/-- R292: LINE_START. A camera that takes its lines from INJECT ignores its links, and begins the next line of its oldest INJECT
(R299). -/
def State.lineStart (s : State) (c : Nat) : State :=
  let cfg := s.lineCfg c
  if s.camRuns c && (s.cam c).line.isNone && bitOf cfg 0 &&
      (!bitOf cfg 11 || (s.cam c).inj.head?.any fun j => !j.lines.isEmpty) then s.lineBegin c else s

/-- R306: the words of a line's buffer that fail read as zeros. -/
def zeroWords (bad : List Nat) (bs : List Byte) : List Byte := bs.zipIdx.map fun x => if bad.contains (x.2 / 8) then 0 else x.1

/-- A line is complete: it is stored, and delivered, in each frame that it belongs to. -/
def State.lineEnd (s : State) (c : Nat) (data : List Byte) (bits : Nat) (lastLine : Bool) (bad : List Nat) : State :=
  match (s.cam c).line with
  | none => s
  | some li =>
    let s := (s.wrap (camReg c 0x24) 0 32).modCam c fun x => { x with line := none }
    let fs := (s.cam c).frames.filter fun f => f.scan || decide (f.idx < f.lines)
    let n := fs.head?.elim 0 Frame.bytes
    let ue := bad.any fun w => decide (8 * w < n)
    let bs := zeroWords bad (data.take n ++ List.replicate (n - data.length) 0)
    let s := s.storeLine c fs bs
    ((s.cam c).frames.map (·.seq)).foldl (fun s q =>
      s.lineInFrame c q li bs (bits ||| 8 * boolNat ue ||| (if li.unsync then 64 else 0)) lastLine) s

/-! ## Pixels -/

/-- R290: pixels of a packed line, in containers: two pixels in three bytes (log 20). -/
def unpackPixels (fmt : Nat) : List Byte → Nat → List Byte
  | _, 0 => []
  | a :: b :: c :: r, n + 1 =>
    let (p, q) := if fmt = 1 then (a.toNat * 4 + b.toNat % 4, c.toNat * 4 + b.toNat / 16 % 4)
      else (a.toNat * 16 + b.toNat % 16, c.toNat * 16 + b.toNat / 16)
    leBytes p 2 ++ (if n = 0 then [] else leBytes q 2) ++ unpackPixels fmt r (n - 1)
  | [a, b], n + 1 =>
    let p := if fmt = 1 then a.toNat * 4 + b.toNat % 4 else a.toNat * 16 + b.toNat % 16
    leBytes p 2 ++ unpackPixels fmt [] n
  | _, _ => []

def packed (fmt : Nat) : Bool := fmt == 1 || fmt == 2

/-- Bytes of a line on the wire (R290). -/
def wireBytes (fmt width : Nat) : Nat := if packed fmt then (3 * width + 1) / 2 else width

/-- R290: a line as its link carried it, in containers. -/
def toContainers (fmt width : Nat) (raw : List Byte) : List Byte := if packed fmt then unpackPixels fmt raw width else raw

/-- R290: containers of a host buffer, their upper bits zero. -/
def clearUpper (fmt : Nat) (bs : List Byte) : List Byte :=
  if packed fmt then bs.zipIdx.map fun x => if x.2 % 2 = 1 then x.1 &&& (if fmt = 1 then 3 else 15) else x.1 else bs

/-! ## GigE Vision -/

/-- R294: line l of a block: its pixels, and whether a byte of it is missing. -/
def GvBlock.line (b : GvBlock) (fmt width l : Nat) : List Byte × Bool :=
  let n := wireBytes fmt width
  let raw := getBytes b.bytes (l * n) n
  let gap := (List.range n).any fun i => b.size == 0 || !b.got.contains (1 + (l * n + i) / b.size)
  (toContainers fmt width raw, gap)

def ethReg (port : Nat) : Nat := 0x00406000 + 0x40 * port

/-- R294: a frame is sound and holds a GVSP packet within the MTU. -/
def gvspSound (f : GvspFrame) : Bool :=
  f.gvsp && decide (f.size ≤ 9000) && decide (f.part ≤ 2) && decide (f.block < (if f.ext then 2 ^ 64 else 2 ^ 16))

/-- R294: the stream channel of an ETH port that a frame is for: it is sound, and names the
port's addresses and the UDP port of an enabled channel. -/
def State.gvspChan (s : State) (port : Nat) (f : GvspFrame) : Option Nat :=
  let r := ethReg port
  let mac := (s.rd r).toNat + s.rf (r + 4) 0 16 * 2 ^ 32
  if gvspSound f && f.mac == mac && f.ip == s.rd (r + 8) then
    (List.range 8).find? fun k => s.flag (r + 0x10 + 4 * k) 31 && s.rf (r + 0x10 + 4 * k) 0 16 == f.udp
  else none

/-- R294: an accepted packet in its camera's block. -/
def GvBlock.take (old : Option GvBlock) (f : GvspFrame) : GvBlock :=
  let fresh : GvBlock := { block := f.block, image := f.part = 1 || f.image, size := 0, bytes := [], got := [] }
  let b := match old with
    | some b => if b.block = f.block ∧ f.part ≠ 0 then b else fresh
    | none => fresh
  if f.part = 1 ∧ b.image then
    let size := if b.size = 0 then f.data.length else b.size
    { b with size := size, got := f.packet :: b.got, bytes := putBytes b.bytes ((f.packet - 1) * size) (f.data.take size) }
  else b

/-- R294: a received frame of ETH port `port`. One that the port does not accept, or of a block whose payload type is not Image, is
dropped and counted. -/
def State.gvsp (s : State) (port : Nat) (f : GvspFrame) : State :=
  if 2 ≤ port ∨ !s.answers dIngA ∨ s.clockGone 1 then s
  else
    match s.gvspChan port f with
    | none => s.count (ethReg port + 0x30) 0 32
    | some k =>
      let c := 16 + 8 * port + k
      let b := GvBlock.take (s.cam c).gv f
      let cfg := s.lineCfg c
      let s := if bitOf cfg 0 && !bitOf cfg 11 then s.modCam c fun x => { x with gv := some b } else s
      if b.image && (f.part == 1 || f.image) then s else s.count (ethReg port + 0x30) 0 32

/-- LINE_COMPLETE (R296): the line under way, from its link, from the block of a GigE Vision camera, or from the buffer of an INJECT,
whose last line ends an area-scan image. -/
def State.lineComplete (s : State) (c : Nat) (data : List Byte) (flags : Nat) (crcs bad : List Nat) : State :=
  if !s.camRuns c then s
  else match (s.cam c).line, (s.cam c).newest with
  | some _, some f =>
    let lastLine := flags / 256 % 2 == 1
    let gap := 2 * (flags / 2 % 2)
    if bitOf f.cfg 11 then
      match (s.cam c).inj with
      | j :: rest =>
        let s := s.modCam c fun x => { x with inj := { j with lines := j.lines.tail } :: rest }
        (s.lineEnd c (clearUpper f.fmt (j.lines.headD [])) 128 (j.lines.length == 1) bad).injectDone c
      | [] => s
    else if c < 16 then
      let here := crcs.filter fun l => (camLinks c f.cfg).contains l
      let s := here.foldl (fun s l => s.count (0x00404004 + 0x20 * l) 0 32) s
      s.lineEnd c (toContainers f.fmt f.width data) (gap ||| 4 * boolNat !here.isEmpty) lastLine bad
    else
      let b := (s.cam c).gv
      let l := b.elim ([], true) fun b => b.line f.fmt f.width b.next
      let s := s.modCam c fun x => { x with gv := b.map fun b => { b with next := b.next + 1 } }
      s.lineEnd c l.1 (gap ||| 2 * boolNat l.2) lastLine bad
  | _, _ => s

/-! ## INJECT -/

/-- R299, R411: INJECT. -/
def State.injectCmd (s : State) (cmd : Cmd) (ls : List (List Byte)) : State :=
  let c := cmd.arg 0x10 0 5
  let n := cmd.arg 0x20 0 15
  if !s.flag (camReg c 0) 0 ∨ !s.flag (camReg c 0) 11 then s.complete cmd stState
  else if n = 0 ∨ s.rf (camReg c 4) 0 15 < n ∨ cmd.arg 0x24 0 2 ≠ 0 then s.complete cmd stBadarg
  else
    s.modCam c fun x => { x with inj := x.inj ++ [{ cmd := cmd, lines := (List.range n).map fun i => ls.getD i [] }] }

/-! ## Triggers and control packets -/

/-- R293: the packet of the first edge starts. -/
def State.trigStart (s : State) (c : Nat) : State :=
  match (s.cam c).trig with
  | e :: _ => (s.wr (camReg c 0x30) (BitVec.ofNat 32 e.2)).wr (camReg c 0x34) (BitVec.ofNat 32 (e.2 / 2 ^ 32))
  | [] => s

/-- R293: an edge of a camera's trigger line reaches its stop. -/
def State.trigEdge (s : State) (c : Nat) (rising : Bool) : State :=
  match s.rhz.trigEdges.find? fun e => e.1 == c with
  | none => s
  | some e =>
    if e.2 ≠ rising ∨ 16 ≤ c then s
    else
      let s := { s with rhz := { s.rhz with trigEdges := s.rhz.trigEdges.erase e } }
      if !s.camRuns c ∨ !s.flag (camReg c 0) 0 then s
      else
        let q := (s.cam c).trig
        if 3 ≤ q.length then s.count (camReg c 0x38) 16 16
        else
          let s := s.modCam c fun x => { x with trig := q ++ [(rising, s.time)] }
          if q.isEmpty then s.trigStart c else s

/-- R293: a trigger packet has been sent. -/
def State.trigSent (s : State) (c : Nat) : State :=
  match (s.cam c).trig with
  | [] => s
  | _ :: rest => ((s.modCam c fun x => { x with trig := rest }).wrap (camReg c 0x38) 0 16).trigStart c

def lnkReg (l off : Nat) : Nat := 0x00404000 + 0x20 * l + off

def State.setRx (s : State) (l : Nat) (ws : List Word) : State :=
  let s := { s with ingest := { s.ingest with ctlRx := tput [] s.ingest.ctlRx l ws } }
  (s.wf (lnkReg l 0x14) 0 10 ws.length).wr (lnkReg l 0x10) (ws.headD 0)

/-- R289, R308: a packet from the camera's control channel; the buffer holds what `rx_words` can count (log 21). -/
def State.ctlPacket (s : State) (l : Nat) (ws : List Word) : State :=
  if l < 16 ∧ s.answers dIngA then s.setRx l ((tget [] s.ingest.ctlRx l ++ ws).take 1023) else s

/-- R308: a word of a control packet for the camera; words leave one in a tick (log 21). -/
def State.ctlWrite (s : State) (l : Nat) (w : Word) : State :=
  { s with ingest := { s.ingest with ctlTx := tput [] s.ingest.ctlTx l (tget [] s.ingest.ctlTx l ++ [w]) } }

/-- R308: one word leaves on each link that sends a control packet. -/
def State.ctlTick (s : State) : State :=
  if !s.answers dIngA then s
  else (s.ingest.ctlTx.map (·.1)).foldl (fun s l => match tget [] s.ingest.ctlTx l with
    | w :: r =>
      let sent := tget [] s.ingest.ctlSent l ++ [w]
      { s with ingest := { s.ingest with ctlTx := tput [] s.ingest.ctlTx l r, ctlSent := tput [] s.ingest.ctlSent l sent } }
    | [] => s) s

/-- R306: the line that a camera was receiving never arrives whole: each frame in progress loses it. -/
def State.lineCut (s : State) (c : Nat) : State :=
  if (s.cam c).line.isNone then s
  else
    let s := ((s.cam c).frames.filter fun f => f.scan || decide (f.idx < f.lines)).foldl (fun s f =>
      (s.modCam c fun x => x.setFrame { f with missed := f.missed + 1 }).markFrame c f.seq 2 1) s
    s.modCam c fun x => { x with line := none }

/-- R306, R308: a link starts or stops receiving. A camera that takes its lines from INJECT ignores its links (R299). -/
def State.linkUp (s : State) (l : Nat) (up : Bool) : State :=
  if 16 ≤ l ∨ !s.answers dIngA ∨ (up && s.clockGone 2) then s
  else
    let s := s.wf (lnkReg l 0) 0 1 (boolNat up)
    if up then s
    else
      let cut (c : Nat) : Bool := (s.cam c).newest.any fun f => (camLinks c f.cfg).contains l && !bitOf f.cfg 11
      ((List.range 16).filter cut).foldl State.lineCut s

end Sys2Proof.Machine
end

