-- ==== Sys2Proof/Machine/CapsuleMeasure.lean ====
section
/-! DEFINITION. The Capsule's windows, records, gateway and boot (R342 to R355, R362, R364 to R366). -/

namespace Sys2Proof.Machine

/-! ## Windows and records -/

/-- A level of encoder n's input i behind its filter. -/
def CapSt.level (c : CapSt) (n i : Nat) : Bool := tget 0 c.lv n / 2 ^ i % 2 == 1

/-- R347: an encoder's pins change. Each has an 80 ns filter: a level counts once it has stood so long. -/
def State.capEncoder (s : State) (n : Nat) (a b : Bool) : State :=
  if 16 ≤ n ∨ s.cstate = 0 then s
  else
    let pin (t : Tbl (Option (Bool × Nat))) (i : Nat) (l : Bool) : Tbl (Option (Bool × Nat)) :=
      if l = s.cap.level n i then tput none t (2 * n + i) none
      else if (tget none t (2 * n + i)).isSome then t else tput none t (2 * n + i) (some (l, s.cap.ns))
    s.modCap fun c => { c with pins := pin (pin c.pins 0 a) 1 b }

/-- R347: what has stood for 80 ns on encoder n's inputs takes effect: ×4 decoding. A change of both inputs together moves no position
(log 14). -/
def State.encSettle (s : State) (n : Nat) : State :=
  let ripe (i : Nat) : Bool := (tget none s.cap.pins (2 * n + i)).any fun x => decide (x.2 + 80 ≤ s.cap.ns)
  if !ripe 0 && !ripe 1 then s
  else
    let a := s.cap.level n 0 != ripe 0
    let b := s.cap.level n 1 != ripe 1
    let p0 := quadPlace (s.cap.level n 0) (s.cap.level n 1)
    let p1 := quadPlace a b
    let pos := tget 0 s.cap.enc n
    let pos := if (p0 + 1) % 4 = p1 then pos + 1 else if (p1 + 1) % 4 = p0 then pos - 1 else pos
    let drop (t : Tbl (Option (Bool × Nat))) (i : Nat) := if ripe i then tput none t (2 * n + i) none else t
    let path := if n % 2 = 0 then tput [] s.cap.path (n / 2) (tget [] s.cap.path (n / 2) ++ [(s.capTick, pos)]) else s.cap.path
    s.modCap fun c => { c with lv := tput 0 c.lv n (boolNat a + 2 * boolNat b), enc := tput 0 c.enc n pos, path := path
                               pins := drop (drop c.pins 0) 1 }

/-- The Capsule's own clock advances by a nanosecond while it is not off (R354). -/
def State.capRun (s : State) : State :=
  if s.cstate = 0 then s
  else
    let s := s.modCap fun c => { c with ns := c.ns + 1 }
    ((s.cap.pins.map fun e => e.1 / 2).eraseDups).foldl State.encSettle s

/-- R347: a profile of a head, stamped with its belt's encoders and the tick. That a packet was lost counts for the open window once the
profile concerned has proved to lie in it, which a later profile shows. -/
def State.profile (s : State) (head : Nat) (lost : Bool) : State :=
  let b := head / 2
  let prev := tget {} s.cap.prof b
  let x : Prof := { pos := tget 0 s.cap.enc (2 * b), check := tget 0 s.cap.enc (2 * b + 1), tick := s.capTick, lost := lost }
  let s := s.modCap fun c => { c with prof := tput {} c.prof b x }
  match tget none s.cap.wins b with
  | some w => s.modCap fun c => { c with wins := tput none c.wins b (some { w with loss := w.loss || prev.lost }) }
  | none => s.modCap fun c => { c with path := tput [] c.path b [(x.tick, x.pos)] }

/-- R346: a profile that did not come at all. -/
def State.profileGone (s : State) (head : Nat) : State :=
  s.modCap fun c => { c with prof := tput {} c.prof (head / 2) { tget {} c.prof (head / 2) with lost := true } }

/-- R346: the profiles of a head's block that end at or before its byte n. -/
def State.profilesTo (s : State) (head n : Nat) : State :=
  match tget none s.cap.blocks head with
  | none => s
  | some b =>
    if !b.gv.image ∨ b.points = 0 then s
    else
      let len := 2 * b.points
      let stop := min b.lines (n / len)
      let came (l : Nat) : Bool := b.gv.size != 0 &&
        b.gv.got.any fun p => decide ((p - 1) * b.gv.size < (l + 1) * len) && decide (l * len < p * b.gv.size)
      let s := (List.range stop).foldl (fun s l =>
        if l < b.gv.next then s else if came l then s.profile head (b.gv.line 0 len l).2 else s.profileGone head) s
      s.modCap fun c => { c with blocks := tput none c.blocks head (some { b with gv := { b.gv with next := max b.gv.next stop } }) }

/-- R357: word k of a profile port's addresses: the MAC address in words 0 and 1, the IPv4 address in word 2, the UDP ports of its channels
in words 3 to 10 (DESIGN CHOICE, log 14). -/
def State.portWord (s : State) (port k : Nat) : Nat := paramIn s.cap.params 9 (16 * port + k)

/-- R346, R294: the stream channel of a profile port that a frame is for. -/
def State.capChan (s : State) (port : Nat) (f : GvspFrame) : Option Nat :=
  if gvspSound f && f.mac == s.portWord port 0 + s.portWord port 1 % 2 ^ 16 * 2 ^ 32 && f.ip.toNat == s.portWord port 2 then
    (List.range 8).find? fun k => s.portWord port (3 + k) % 2 ^ 16 == f.udp
  else none

/-- R346: a received frame of a profile port. A leader names the pixel format (0 Coord3D_C16, 1 Mono16), the points of a profile and the
profiles of its block; where none came, those of the head's block before hold (DEDUCED, log 14). -/
def State.capPacket (s : State) (port : Nat) (f : GvspFrame) (fmt points lines : Nat) : State :=
  if 2 ≤ port ∨ !s.capUp then s
  else
    match s.capChan port f with
    | none => s
    | some k =>
      let head := 8 * port + k
      let old := tget none s.cap.blocks head
      let ends := old.elim 0 fun b => b.lines * (2 * b.points)
      let s := if f.part = 0 ∨ old.any fun b => b.gv.block != f.block then s.profilesTo head ends else s
      let gv := GvBlock.take (old.map (·.gv)) f
      let b : CapBlock :=
        if f.part = 0 then
          { gv := { gv with image := f.image && decide (fmt < 2) && decide (1 ≤ points) && decide (points ≤ 4096) }
            points := points, lines := lines }
        else { gv := gv, points := old.elim 0 (·.points), lines := old.elim 0 (·.lines) }
      let s := s.modCap fun c => { c with blocks := tput none c.blocks head (some b) }
      if f.part = 1 then s.profilesTo head (f.packet * b.gv.size) else if f.part = 2 then s.profilesTo head (b.lines * (2 * b.points))
      else s

/-- R345, R347, R350: a window opens at the latest profile, with the parameters in force. -/
def State.windowOpen (s : State) (b : Nat) : State :=
  if 8 ≤ b ∨ s.cstate ≠ 3 ∨ !s.flag cgwState (4 + b) ∨ (tget none s.cap.wins b).isSome then s
  else
    let x := tget {} s.cap.prof b
    let w : CapWin := { start := x.pos, check := x.check, tick := x.tick, params := s.cap.params, ctr := s.cap.ctr
                        unsealed := !s.pinSealed, loss := false }
    s.modCap fun c => { c with wins := tput none c.wins b (some w) }

/-- R350: the encoders' distances in 2^−16 µm. -/
def beltDist (start stop : Word) (um : Nat) : Nat := (stop - start).toInt.natAbs * um

/-- A belt's position at a tick. -/
def posAt (path : List (Nat × Word)) (t : Nat) : Word := ((path.filter fun e => decide (e.1 ≤ t)).getLast?).elim 0 (·.2)

/-- R350: in some 10 ms of the ticks from t0 to t1 the belt moves by more than 35 mm. The distance changes only where such an interval
begins or ends with a change of position. -/
def overspeed (path : List (Nat × Word)) (t0 t1 um : Nat) : Bool :=
  let starts := t0 :: path.flatMap fun e => [e.1, e.1 - 250000]
  starts.any fun a => decide (t0 ≤ a) && decide (a + 250000 ≤ t1) &&
    decide (35000 * 65536 < beltDist (posAt path a) (posAt path (a + 250000)) um)

/-- R351: the mean speed in mm/s over a distance in 2^−16 µm and so many ticks. Where it is no whole number, or no time has passed, the spec
does not state it (log 10). -/
def meanSpeed (dist ticks salt : Nat) : Nat :=
  if ticks = 0 then Config.unstated 351 salt
  else
    let q := dist * 25000 / (65536 * ticks)
    if q * (65536 * ticks) = dist * 25000 then q else q + Config.unstated 351 salt % 2

/-- R350: what `gap_min` asks of the gap to the parcel before (log 14). -/
def State.tooClose (s : State) (w : CapWin) (b : Nat) : Bool :=
  (tget none s.cap.ends b).any fun e =>
    decide (beltDist e w.start (paramIn w.params 7 (2 * b)) < paramIn w.params 6 b * 1000 * 65536)

/-- R350: flags 16 to 23 and `legal`, as bits 0 to 15. -/
def State.winFlags (s : State) (w : CapWin) (b : Nat) (f : ParcelFacts) (dl dw dh : Nat) (x : Prof) : Nat :=
  let p (id : Nat) : Nat := paramIn w.params id b
  let um := paramIn w.params 7 (2 * b)
  let d1 := beltDist w.start x.pos um
  let d2 := beltDist w.check x.check (paramIn w.params 7 (2 * b + 1))
  let diff := if d1 < d2 then d2 - d1 else d1 - d2
  let v := boolNat (decide (dl < 50) || decide (dw < 50) || decide (dh < 50)) +
    2 * boolNat (decide (p 3 < dl) || decide (p 4 < dw) || decide (p 5 < dh)) +
    4 * boolNat (overspeed (tget [] s.cap.path b) w.tick x.tick um) +
    8 * boolNat (decide (p 8 * d1 < 1000 * diff)) + 16 * boolNat (f.notSeparated || s.tooClose w b) + 32 * boolNat w.loss +
    64 * boolNat (s.cap.memErr f) + 128 * boolNat w.unsealed
  if v = 0 then 0x8000 else v

/-- R351: the record of a window. -/
def State.capRecord (s : State) (w : CapWin) (b seq : Nat) (f : ParcelFacts) : Payload :=
  let x := tget {} s.cap.prof b
  let (l, wd, h, th) := measure f.points s.free
  let d := paramIn w.params 2 b
  let dl := indicate l d
  let dw := indicate wd d
  let dh := indicate h d
  let speed := meanSpeed (beltDist w.start x.pos (paramIn w.params 7 (2 * b))) (x.tick - w.tick) s.free
  let body := leBytes 5 1 ++ leBytes b 1 ++ leBytes (s.winFlags w b f dl dw dh x) 2 ++ leBytes seq 4 ++
    leBytes w.start.toNat 4 ++ leBytes x.pos.toNat 4 ++ leBytes w.tick 8 ++ leBytes x.tick 8 ++ leBytes dl 2 ++ leBytes dw 2 ++
    leBytes dh 2 ++ leBytes d 1 ++ leBytes 0 1 ++ leBytes (dl * dw * dh) 5 ++ leBytes speed 2 ++ leBytes 0 1 ++
    leBytes s.cap.swid.toNat 4 ++ leBytes w.ctr 3 ++ leBytes 0 1 ++ leBytes s.cap.boots 2 ++ leBytes (th % 1024) 2
  payloadOf (body ++ leBytes (crc16 body) 2)

/-- R354: a tick as time base, by the latest pair. -/
def State.tickTime (s : State) (k : Nat) : Nat :=
  ((s.rdWide 0x00700028 2 : Int) + ((k : Int) - (s.rdWide 0x00700020 2 : Int)) * 40).toNat

/-- R366: the type 3 record of a pipeline in crust mode. -/
def State.type3 (s : State) (p : Nat) (r : Payload) : Payload :=
  let t3 := tget 0 s.cap.t3 p
  let flags := 0x0010 + 0x0040 * boolNat (s.flag 0x0050800C 0)
  payloadOf (leBytes (3 + p * 256) 2 ++ leBytes flags 2 ++ leBytes (s.pipeEpoch p).toNat 2 ++
    leBytes (s.rf (epochReg p) 16 8) 1 ++ leBytes 0 1 ++ leBytes (s.tickTime (entryW64 r 0x10).toNat) 8 ++
    leBytes (entryWord r 4).toNat 4 ++ leBytes (bitsOf (entryWord r 0) 8 3) 4 ++ leBytes (entryWord r 8).toNat 4 ++
    leBytes (entryWord r 0xC).toNat 4 ++ leBytes (s.tickTime (entryW64 r 0x18).toNat) 8 ++ leBytes 0 16 ++ leBytes t3.toNat 4)

/-- R366: as a record appears, each pipeline in crust mode that serves the belt gets a type 3 record. -/
def State.crustRecords (s : State) (r : Payload) (b : Nat) : State :=
  if !s.answers dHost then s
  else (List.range 64).foldl (fun s p =>
    let a := 0x00700100 + 4 * p
    if s.flag a b ∧ s.pstate p = psCrust then
      let s := s.gatewayRec (s.rf a 8 6) (s.type3 p r)
      let s := (s.wrap a 16 16).tally p 12
      s.modCap fun c => { c with t3 := tput 0 c.t3 p (tget 0 c.t3 p + 1) }
    else s) s

/-- R348 to R352: a window closes and its record appears. -/
def State.windowClose (s : State) (b : Nat) (f : ParcelFacts) : State :=
  match tget none s.cap.wins b with
  | some w =>
    if 8 ≤ b ∨ !s.capUp then s
    else
      let s := (f.work.foldl State.capWork s).bump
      let seq := ((s.rd 0x00700010) + 1).toNat
      let r := s.capRecord w b seq f
      let x := tget {} s.cap.prof b
      let path := (x.tick, x.pos) :: (tget [] s.cap.path b).filter fun e => decide (x.tick < e.1)
      let s := s.modCap fun c => { c with ring := tput 0 c.ring (seq % 4096) r, wins := tput none c.wins b none
                                          ends := tput none c.ends b (some x.pos), path := tput [] c.path b path }
      let s := (s.wr 0x00700010 (BitVec.ofNat 32 seq)).capMode
      s.crustRecords r b
  | none => s

/-- R353: the gateway copies the next record into the host's ring. -/
def State.recordForward (s : State) : State :=
  let ring := s.rf 0x00700030 1 6
  let wseq := (s.rd 0x00700010).toNat
  let next := (s.rd 0x00700034).toNat
  let held := (wseq + 1 + 2 ^ 32 - next) % 2 ^ 32
  if !s.flag 0x00700030 0 ∨ !s.answers dHost ∨ held = 0 ∨ 2 ^ 31 ≤ held then s
  else
    let gone := held - 4096
    let next := (next + gone) % 2 ^ 32
    let s := (s.count 0x00700030 16 16 gone).wr 0x00700034 (BitVec.ofNat 32 next)
    if s.ringOk 2 ring ∧ s.ringRoom 2 ring ∧ s.stageRoom then
      (s.stageRec ring (tget 0 s.cap.ring (next % 4096))).wr 0x00700034 (BitVec.ofNat 32 (next + 1))
    else s

/-- R428: CGW holds records not yet copied. -/
def State.recordsLeft (s : State) : Bool :=
  let held := ((s.rd 0x00700010).toNat + 1 + 2 ^ 32 - (s.rd 0x00700034).toNat) % 2 ^ 32
  s.flag 0x00700030 0 && held != 0 && decide (held < 2 ^ 31)

/-- R354: every 1 ms the tick and the time base are published as a pair. -/
def State.mapSample (s : State) : State :=
  if s.cstate = 0 ∨ s.cap.ns < s.cap.mapAt + 1000000 ∨ !s.answers dHost then s
  else
    let s := s.modCap fun c => { c with mapAt := c.ns }
    (s.wrWide 0x00700020 s.capTick 2).wrWide 0x00700028 s.time 2

/-! ## The gateway's commands -/

/-- R344: a command starts; one that finds `busy` is counted. `f` gives its status, its reply words and its effect. -/
def State.gwCommand (s : State) (opc : Nat) (f : State → Nat × List Word × State) : State :=
  if s.flag 0x00700008 0 then s.count 0x0070000C 0 32
  else
    let (st, ws, s) := f s
    let s := (s.setFlag 0x00700008 0).wf 0x00700008 8 8 opc
    s.modCap fun c => { c with gw := some (opc, st, ws) }

/-- R344, R421: the command completes. -/
def State.gwComplete (s : State) : State :=
  match s.cap.gw with
  | none => s
  | some (_, st, ws) =>
    let s := ws.zipIdx.foldl (fun s w => s.wr (0x00700040 + 4 * w.2) w.1) s
    let s := s.modCap fun c => { c with gw := none }
    (((s.wf 0x00700008 4 4 st).wrap 0x00700008 16 16).clrFlag 0x00700008 0).signal 128

def State.cgwArg (s : State) : Nat := (s.rd 0x00700004).toNat

def gwOk : Nat := 0
def gwRefused : Nat := 2
def gwBadarg : Nat := 3
def gwNotyet : Nat := 4
def gwGone : Nat := 5
def gwEmpty : Nat := 6
def gwDown : Nat := 7

/-- R344, R345: START. -/
def State.gwStart (s : State) : Nat × List Word × State :=
  let m := s.cgwArg % 256
  if !s.capUp then (gwDown, [], s)
  else if (List.range 8).any fun b => m / 2 ^ b % 2 == 1 && paramIn s.cap.params 1 0 / 2 ^ b % 2 == 0 then
    (gwBadarg, [BitVec.ofNat 32 (s.rf cgwState 4 8)], s)
  else
    let s := (s.wf cgwState 4 8 (s.rf cgwState 4 8 ||| m)).capMode
    (gwOk, [BitVec.ofNat 32 (s.rf cgwState 4 8)], s)

/-- R344, R345: STOP. -/
def State.gwStop (s : State) : Nat × List Word × State :=
  if !s.capUp then (gwDown, [], s)
  else
    let m := s.cgwArg % 256
    let s := (s.wf cgwState 4 8 (s.rf cgwState 4 8 &&& (255 - m))).capMode
    (gwOk, [BitVec.ofNat 32 (s.rf cgwState 4 8)], s)

def payloadWords (p : Payload) : List Word := (List.range 16).map fun i => p.extractLsb' (32 * i) 32

/-- R352: the CRC of a record checks. -/
def recordOk (r : Payload) : Bool := crc16 ((payloadBytes r).take 60) == (entryWord r 0x3C).toNat % 65536

/-- R344, R352: READ_RECORD. -/
def State.gwRecord (s : State) : Nat × List Word × State :=
  let q := s.cgwArg
  let w := (s.rd 0x00700010).toNat
  let ahead := (q + 2 ^ 32 - w) % 2 ^ 32
  if !s.capUp then (gwDown, [], s)
  else if 1 ≤ ahead ∧ ahead < 2 ^ 31 then (gwNotyet, [], s)
  else if 4096 ≤ (w + 2 ^ 32 - q) % 2 ^ 32 then (gwGone, [], s)
  else if !recordOk (tget 0 s.cap.ring (q % 4096)) then (gwGone, [], s)
  else (gwOk, payloadWords (tget 0 s.cap.ring (q % 4096)), s)

/-- R344: READ_LOG. -/
def State.gwLog (s : State) : Nat × List Word × State :=
  let n := s.cgwArg
  if !s.capUp then (gwDown, [], s)
  else
    match s.cap.log.find? fun e => slotCommitted e.2 && slotNat e.2 4 4 == n with
    | some (k, v) => (gwOk, (List.range 8).map (fun i => v.extractLsb' (32 * i) 32) ++ [BitVec.ofNat 32 k], s)
    | none => (gwEmpty, [], s)

/-- R344: READ_SWID. -/
def State.gwSwid (s : State) : Nat × List Word × State :=
  if s.cstate < 2 then (gwDown, [], s)
  else
    let c := s.cap
    (gwOk, [if s.cstate = 4 then 0 else c.swid, c.version, BitVec.ofNat 32 (c.bank + c.boots * 2 ^ 16), c.fault], s)

/-- R344: READ_EVENT_COUNTER. -/
def State.gwCounter (s : State) : Nat × List Word × State :=
  if s.cstate < 2 then (gwDown, [], s)
  else
    let c := s.cap
    let w := c.ctr + boolNat s.pinSealed * 2 ^ 24 + boolNat (s.flag cgwState 24) * 2 ^ 25 + boolNat (s.flag cgwState 25) * 2 ^ 26 +
      boolNat (s.flag cgwState 26) * 2 ^ 27
    (gwOk, [BitVec.ofNat 32 w, BitVec.ofNat 32 c.committed, BitVec.ofNat 32 c.discarded, BitVec.ofNat 32 (logSlots - c.next)], s)

/-- R344: an `opc` outside the table completes at once with REFUSED and is counted. -/
def State.gwUnknown (s : State) (opc : Nat) : State :=
  if (1 ≤ opc ∧ opc ≤ 6) ∨ 256 ≤ opc then s
  else
    (s.gwCommand opc fun s => (gwRefused, [], s.count 0x0070000C 0 32)) |> fun t =>
      if s.flag 0x00700008 0 then t else t.gwComplete

/-! ## Reset and boot -/

/-- R337: CAP_RST_L is asserted: what is not in the NOR is lost. -/
def State.capReset (s : State) : State :=
  let c := s.cap
  let s := { s with cap := { log := c.log, nor := c.nor, copies := c.copies, images := c.images } }
  let s := (s.wr cgwState 0).wr 0x00700010 0xFFFFFFFF
  let s := (s.wr 0x00700018 0).wr 0x0070001C 0
  ((s.clrFlag 0x00700008 0).wr 0x00700034 0).capDomain

/-- The slots of the log that are not erased (R362). -/
def usedSlots (t : Tbl (BitVec 256)) : Nat → Nat → Nat
  | 0, k => k
  | n + 1, k => if tget erasedSlot t k = erasedSlot then k else usedSlots t n (k + 1)

/-- R362: what a scan of the log finds. -/
def State.scanLog (s : State) : State :=
  let n := usedSlots s.cap.log logSlots 0
  let es := (List.range n).map fun k => tget erasedSlot s.cap.log k
  let good := es.filter fun v => slotCommitted v && slotCrcOk v
  let last (f : BitVec 256 → Bool) : Option (BitVec 256) := (good.filter f).getLast?
  let et (k : Nat) (v : BitVec 256) : Bool := slotByte v 0 == k
  let lastSeal := last fun v => et etSealOpen v || et etSealClose v
  let c := { s.cap with
    next := n
    discarded := (es.filter fun v => !slotCommitted v).length
    committed := (es.filter slotCommitted).length
    ctr := good.getLast?.elim 0 fun v => slotNat v 8 3
    lseq := good.getLast?.elim 0 fun v => slotNat v 4 4 + 1
    logOpen := lastSeal.elim true fun v => et etSealOpen v
    bootBank := (last (et etImage)).elim 0 fun v => slotByte v 1
    gen := (last (et etParam)).map fun v => slotNat v 14 2
    boots := ((last (et etBoot)).elim 0 (fun v => slotNat v 12 2) + 1) % 2 ^ 16 }
  let bad := es.any fun v => slotCommitted v && !slotCrcOk v
  let s := ({ s with cap := c }).wf cgwState 25 1 (boolNat bad)
  let s := (s.wf cgwState 12 10 1000).wr 0x00700018 (BitVec.ofNat 32 n)
  ((s.wr 0x0070001C (BitVec.ofNat 32 n)).progress 5 n n).capFlags

/-- R339, R358, R364: the fault that keeps a boot from measuring. Only the code of a failed bank is given: the others are
free values (log 10). -/
def State.bootFault (s : State) (memSize : Nat) : Option Word :=
  match tget none s.cap.images s.cap.bootBank with
  | none => some 1
  | some i =>
    if s.bankFails s.cap.bootBank then some 1
    else if memSize < i.memNeed then some (BitVec.ofNat 32 (Config.unstated 339 0))
    else if s.cap.gen.any fun g => !([0, 1].any fun k =>
        (tget none s.cap.copies k).any fun c => c.committed && c.crcOk && c.gen == g) then
      some (BitVec.ofNat 32 (Config.unstated 358 0))
    else none

/-- R358: the set in force. -/
def State.bootParams (s : State) : Tbl Word :=
  match s.cap.gen with
  | none => (tget none s.cap.images s.cap.bootBank).elim [] (·.factory)
  | some g =>
    match [0, 1].filterMap fun k => (tget none s.cap.copies k).filter fun c => c.committed && c.crcOk && c.gen == g with
    | c :: _ => c.set
    | [] => []

/-- R364, R355: the Capsule boots: the log is scanned, a BOOT entry is written, the bank is verified, and the logged seal
state follows the pin. -/
def State.capBoot (s : State) (high : Bool) (memSize : Nat) (sfdp : Word) : State :=
  if s.cstate ≠ 0 then s
  else
    let s := (s.wr 0x00700010 0xFFFFFFFF).scanLog
    let s := s.modCap fun c => { c with sealLast := high, sealRun := 10, bank := c.bootBank }
    let s := (s.wf cgwState 3 1 (boolNat !high)).wf cgwState 4 8 0
    let s := s.norPush (.entry etBoot 0xFF 0 0 sfdp none)
    let s := match s.bootFault memSize with
      | some code =>
        let s := (s.wf cgwState 0 3 4).modCap fun c => { c with fault := code }
        if s.bankFails s.cap.bootBank then s.norPush (.entry etVerifyFail s.cap.bootBank 0 0 0 none) else s
      | none =>
        let s := s.wf cgwState 0 3 2
        let i := tget none s.cap.images s.cap.bootBank
        s.modCap fun c => { c with params := s.bootParams, swid := s.bankSwid s.cap.bootBank, version := i.elim 0 (·.version) }
    let s := s.capDomain
    if high ≠ s.cap.logOpen then
      s.norPush (.entry (if high then etSealOpen else etSealClose) 0xFF 0 0 0 none)
    else s

end Sys2Proof.Machine
end

