-- ==== Sys2Proof/Machine/ScheduleCommands.lean ====
section
/-! DEFINITION. The meanings of the schedule commands: starting and stopping (R155), control operations (R137 to R148), waits
and replies, and the sync units' commands (R151, R152). A command whose condition does not hold changes nothing (log 2). -/

namespace Sys2Proof.Machine

abbrev Result := Host.Outcome State Fault Refusal

/-- GO (R155). -/
def execGo (stop : Nat) (s : State) : Result := .next (if isTile stop then s.goTile stop else s)

/-- HALT (R155). -/
def execHalt (stop : Nat) (s : State) : Result := .next (if isTile stop then s.haltTile stop else s)

/-- CANCEL_ACKNOWLEDGED (R155). -/
def execCancelAcknowledged (stop : Nat) (s : State) : Result := .next (s.cancelAck stop)

/-- NOP (R140): a bundle whose slots hold no operation. -/
def execNop (stop : Nat) (s : State) : Result :=
  .next (s.runIf stop fun b => bFormat b != 2 && bCtlOp b == 0 && (List.range 3).all fun i => (slotOp stop b i).isNone)

/-- LITERAL (R143). -/
def execLiteral (stop : Nat) (s : State) : Result := .next (s.runIf stop fun b => bFormat b == 2)

/-- LOOP (R138). -/
def execLoop (stop : Nat) (s : State) : Result := .next (s.runCtl stop ctlLoop)

/-- LOOPC (R138). -/
def execLoopc (stop : Nat) (s : State) : Result := .next (s.runCtl stop ctlLoopc)

/-- SIG (R145). -/
def execSig (stop : Nat) (s : State) : Result := .next (s.runCtl stop ctlSig)

/-- RST (R145, R151). -/
def execRst (stop : Nat) (s : State) : Result := .next (s.runCtl stop ctlRst)

/-- WAITS (R147, R148). -/
def execWaits (stop : Nat) (s : State) : Result := .next (s.runCtl stop ctlWaits)

/-- ARM (R148). -/
def execArm (stop : Nat) (s : State) : Result := .next (s.runCtl stop ctlArm)

/-- WAITA (R148). -/
def execWaita (stop : Nat) (s : State) : Result := .next (s.runCtl stop ctlWaita)

/-- WAITQ (R147). -/
def execWaitq (stop : Nat) (s : State) : Result := .next (s.runCtl stop ctlWaitq)

/-- WAITH (R147). -/
def execWaith (stop : Nat) (s : State) : Result := .next (s.runCtl stop ctlWaith)

/-- CADD (R145). -/
def execCadd (stop : Nat) (s : State) : Result := .next (s.runCtl stop ctlCadd)

/-- END (R138). -/
def execEndSchedule (stop : Nat) (s : State) : Result := .next (s.runCtl stop ctlEnd)

/-- WAIT_SATISFIED (R147). -/
def execWaitSatisfied (stop : Nat) (s : State) : Result := .next (s.waitDone stop)

/-- WAIT_WATCHDOG (R150). -/
def execWaitWatchdog (stop : Nat) (s : State) : Result := .next (if isTile stop then s.watchdog stop else s)

/-- SYNC_SIGNAL (R151). -/
def execSyncSignal (k : Nat) (s : State) : Result := .next (s.applySync k SyncMsg.isSignal)

/-- SYNC_RESET (R151). -/
def execSyncReset (k : Nat) (s : State) : Result := .next (s.applySync k SyncMsg.isReset)

/-- WAIT_REQUEST (R151). -/
def execWaitRequest (k : Nat) (s : State) : Result := .next (s.applySync k SyncMsg.isWait)

/-- WAIT_CANCEL (R151). -/
def execWaitCancel (k : Nat) (s : State) : Result := .next (s.applySync k SyncMsg.isCancel)

end Sys2Proof.Machine
end

