-- ==== Sys2Proof/Machine/RegisterCommands.lean ====
section
/-! DEFINITION. The meanings of the host's accesses to registers and memories (R5, R403, R491) and of reads that have an
effect: conversion monitors (R48), the hazard log (R236). A read's value stands in `out`, as little-endian bytes
(log 4). -/

namespace Sys2Proof.Machine

/-- REGISTER_WRITE (R5). -/
def execRegisterWrite (addr : Nat) (v : W64) (size : Nat) (s : State) : Result := .next (s.hostWrite addr v size)

/-- BAR2_READ (R403, R491). -/
def execBar2Read (addr len : Nat) (s : State) : Result := .next (s.bar2Read addr len)

/-- BAR2_WRITE (R403, R491). -/
def execBar2Write (addr : Nat) (data : List Byte) (s : State) : Result := .next (s.bar2Write addr data)

/-- A read of a register with an effect: the value goes to `out`, the effect follows; a domain that does not answer reads
as 0 (R426), and so does an address that holds no register, which counts nothing (R6). -/
def State.readEffect (s : State) (a : Nat) (f : State → State) : State :=
  if !s.regThere a then { s with out := leBytes 0 4 }
  else if s.answers (addrDomain a) then f { s with out := leBytes (s.readReg a).toNat 4 }
  else { s.offAccess with out := leBytes 0 4 }

/-- A write of a register with an effect of its own: it acts where the register is there and its domain answers. -/
def State.writeEffect (s : State) (a : Nat) (f : State → State) : State :=
  if !s.regThere a then s.unmapped a false true
  else if s.answers (addrDomain a) then f s
  else s.offAccess

/-- Monitor slots of a unit (R48). -/
def monSlots (stop : Nat) : Nat :=
  if 448 ≤ stop then 0
  else match kindOf stop with
  | .at | .sft => 4
  | .cz => 8
  | _ => 0

/-- The read buffer of a monitor slot: the registers from CMON_TAG to CMON_NAN (R48). -/
def MonSet.words (m : MonSet) : List Word :=
  [BitVec.ofNat 32 (m.tag.toNat + m.epoch.toNat * 2 ^ 16), BitVec.ofNat 32 m.count, BitVec.ofNat 32 m.sse,
   BitVec.ofNat 32 (m.sse / 2 ^ 32 % 2 ^ 16 + boolNat m.sseSat * 2 ^ 31), BitVec.ofNat 32 m.satLo, BitVec.ofNat 32 m.satHi,
   BitVec.ofNat 32 m.ovf, BitVec.ofNat 32 m.nan]

def State.monBuffer (s : State) (stop slot : Nat) : State :=
  (s.monAt stop slot).latched.words.zipIdx.foldl (fun s w => s.wr (reg stop (0xE008 + 64 * slot + 4 * w.2)) w.1) s

/-- R48: a read of CMON_TAG copies the latched set into the read buffer. -/
def State.monTagRead (s : State) (stop slot : Nat) : State :=
  if monSlots stop ≤ slot then s
  else
    let a := reg stop (0xE008 + 64 * slot)
    if s.answers (addrDomain a) then (s.monBuffer stop slot).readEffect a id else s.readEffect a id

/-- CMON_TAG_READ (R48). -/
def execCmonTagRead (stop slot : Nat) (s : State) : Result := .next (s.monTagRead stop slot)

/-- CMON_LOST_READ (R48). -/
def execCmonLostRead (stop slot : Nat) (s : State) : Result :=
  let a := reg stop (0xE028 + 64 * slot)
  .next (if monSlots stop ≤ slot then s else s.readEffect a fun s => s.wf a 0 16 0)

/-- HZ_LOST_READ (R236). -/
def execHzLostRead (stop : Nat) (s : State) : Result :=
  .next (if 448 ≤ stop then s else s.readEffect (reg stop 0xF80C) fun s => s.wf (reg stop 0xF80C) 8 8 0)

/-- SYU_VAL_WRITE (R151, R159): a host write sets an object. -/
def execSyuValWrite (n : Nat) (v : Word) (s : State) : Result :=
  .next (if n < 65536 then
    s.writeEffect (syuVal n) fun s => ((s.count (syuPend (syuOf n) + 4) 0 32).wr (syuVal n) v).evalWaits n else s)

/-- SYU_ADD_WRITE (R151, R159): a host write adds to an object. -/
def execSyuAddWrite (n : Nat) (v : Word) (s : State) : Result :=
  .next (if n < 65536 then s.writeEffect (0x00840000 + 4 * n) fun s => s.syncOp (.signal n v hstStop) else s)

end Sys2Proof.Machine
end

