-- ==== Sys2Proof/Machine/Attest.lean ====
section
/-! DEFINITION. Attestation reports (R458, R459). -/

namespace Sys2Proof.Machine

/-- Bytes filled with zeros up to an offset. -/
def padTo (n : Nat) (bs : List Byte) : List Byte := bs ++ List.replicate (n - bs.length) 0

/-- R459: entries for the loaded images. -/
def reportImages (l : List Loaded) : List Byte :=
  l.flatMap fun i => padTo 64 (leBytes i.digest.toNat 48 ++ leBytes (i.pipes.foldl (fun m p => m + 2 ^ p) 0) 8)

/-- R459: the body of a report at this instant, but for the Capsule's fields at 0x164 to 0x170. Images loaded more than once
have one entry. -/
def State.reportBody (s : State) : List Byte :=
  let digests := (s.gov.imgs.map (·.digest)).eraseDups
  let imgs := digests.filterMap fun d =>
    (s.gov.imgs.find? fun l => l.digest == d).map fun l =>
      { l with pipes := (s.gov.imgs.filter fun x => x.digest == d).flatMap (·.pipes) }
  let n := imgs.length
  let flags := boolNat (s.flag 0x00330050 4) + boolNat s.owned * 2 + boolNat (s.flag 0x00300000 5) * 4 +
    boolNat (s.flag 0x0050800C 0) * 8
  let b := leBytes 1 4 ++ leBytes (0x1C0 + 64 * n) 4 ++ leBytes 0x9648 2 ++ leBytes 0xB0 1 ++ leBytes s.devId 1 ++
    leBytes flags 4 ++ leBytes (Config.serial 0).toNat 8 ++ leBytes (s.rdWide 0x00300200 12) 48 ++ leBytes s.time 8
  let b := padTo 0x80 (b ++ leBytes (Config.identity 0).toNat 48)
  let b := padTo 0xB8 (b ++ leBytes (s.rdWide 0x00300080 12) 48 ++ leBytes (s.rd 0x00300004).toNat 4 ++
    leBytes (s.rf 0x00300000 2 1) 1)
  let b := padTo 0xF0 (b ++ leBytes (if s.owned then s.rdWide 0x00300040 12 else 0) 48 ++ leBytes (s.rd 0x00300008).toNat 4)
  let b := b ++ leBytes (s.rdWide 0x00300010 4) 16
  let rhz := if s.flag 0x00300000 5 then s.boot.defRhz.elim 0 (fun x => x.1.digest.toNat) else 0
  let b := b ++ leBytes rhz 48 ++ leBytes s.rhz.digest.toNat 48 ++ leBytes s.lstate 1
  let b := padTo 0x180 b
  padTo 0x1C0 (b ++ leBytes n 2) ++ reportImages imgs

/-- R458: `att_go`: a report is begun, or none can be for want of a device key. -/
def State.attGo (s : State) : State :=
  if s.flag 0x00300244 0 ∨ !s.boot.started then s
  else
    let body := if s.flag 0x00300000 4 then some s.reportBody else none
    { s with boot := { s.boot with attBody := body, attAt := s.time } }.setFlag 0x00300244 0

/-- R458: the Capsule's fields, by READ_SWID and READ_EVENT_COUNTER; a gateway that is still busy leaves status 0xFF. -/
def State.attCapsule (s : State) : State × List Byte :=
  if s.flag 0x00700008 0 then (s, leBytes 0 12 ++ [0xFF])
  else
    let a := (s.gwCommand 5 State.gwSwid).gwComplete
    let st := a.rf 0x00700008 4 4
    let swid := if st = 0 then (a.rd 0x00700040).toNat else 0
    let ver := if st = 0 then (a.rd 0x00700044).toNat else 0
    let b := (a.gwCommand 6 State.gwCounter).gwComplete
    let ok := b.rf 0x00700008 4 4 = 0
    let ctr := if ok then b.rf 0x00700040 0 25 else 0
    (b, leBytes swid 4 ++ leBytes ver 4 ++ leBytes (ctr + s.cstate * 2 ^ 25) 4 ++ leBytes (b.rf 0x00700008 4 4) 1)

/-- R458: a host command of the gateway that is under way holds the report back, for up to 10 ms. -/
def State.attWaits (s : State) : Bool :=
  s.boot.attBody.isSome && s.flag 0x00700008 0 && decide (s.time < s.boot.attAt + 10000000)

/-- R458, R459: the report is signed and `att_busy` cleared. -/
def State.attDone (s : State) : State :=
  if !s.flag 0x00300244 0 ∨ s.attWaits then s
  else
    match s.boot.attBody with
    | none => s.wr 0x00300244 (BitVec.ofNat 32 2)
    | some b =>
      let c := s.attCapsule
      let body := b.take 0x164 ++ c.2 ++ b.drop (0x164 + 13)
      let sig := padTo Config.reportSigLen ((Config.reportSignature body).take Config.reportSigLen)
      let rep := body ++ sig
      { c.1 with boot := { c.1.boot with attBody := none, report := rep } }.wr 0x00300244 (BitVec.ofNat 32 (rep.length * 2 ^ 16))

/-- ATTESTATION (R458). -/
def execAttestation (s : State) : Result := .next (s.writeEffect 0x00300240 State.attGo)

/-- ATTESTATION_COMPLETE (R458). -/
def execAttestationComplete (s : State) : Result := .next s.attDone

end Sys2Proof.Machine
end

