-- ==== Sys2Proof/Machine/Governor.lean ====
section
/-! DEFINITION. What the governor does for the host: counters (R414), votes (R411, R427), the mailbox and its tunables
(R419), events (R420, R230). -/

namespace Sys2Proof.Machine

/-! ## Counters -/

/-- R414: the sums of set 3 over a pipeline's tiles: corrected and uncorrectable ECC errors, bank conflicts, stale
handles. -/
def State.errSum (s : State) (p i : Nat) : Nat :=
  ((s.info p).stops.map fun t =>
    let r (o : Nat) : Nat := (s.rd (reg t o)).toNat
    match i with
    | 0 => r 0x0204 + r 0xD018
    | 1 => r 0x0208
    | 2 => if kindOf t = .mt then r 0x0210 + r 0x0214 + r 0x0218 else 0
    | _ => if kindOf t = .mt then s.rf (reg t 0x0220) 0 16 else 0).sum

/-- Column i of a counter set. Set 3 keeps the sums at LOAD in its keys, but for the collisions, which it counts; errors that no
register of a tile counts (program memory, side RAM, engines) stand in keys 20 and 21. -/
def State.counter (s : State) (p set i : Nat) : Nat :=
  let k := tget 0 (s.pipeAt p).ctr (set * 5 + i)
  if set = 3 ∧ i ≠ 3 then s.errSum p (min i 3) - k + (if i < 2 then tget 0 (s.pipeAt p).ctr (20 + i) else 0) else k

/-- R414: the result area of READ_COUNTERS. -/
def State.counters (s : State) (p set : Nat) : List Byte :=
  ((List.range 4).flatMap fun i => leBytes (holdAt (2 ^ 64 - 1) (s.counter p set i)) 8) ++
    leBytes (holdAt (2 ^ 32 - 1) (s.counter p set 4)) 4

/-- R411: READ_COUNTERS. -/
def State.readCounters (s : State) (c : Cmd) : State :=
  s.complete c stOk 0 0 (s.counters c.pipe (c.arg 0x10 0 2))

/-! ## Votes -/

/-- Domains of a mask. -/
def maskDoms (m : Nat) : List Nat := (List.range 11).filter fun d => m / 2 ^ d % 2 == 1

/-- R411: VOTE. -/
def State.voteCmd (s : State) (c : Cmd) : State :=
  let m := c.arg 0x10 0 11
  if m / 2 ^ 10 = 1 then s.complete c stBadarg
  else
    let s := if c.arg 0x10 16 1 = 1 then (maskDoms m).foldl (fun s d => s.vote d 0) s
      else (maskDoms m).foldl (fun s d => s.unvote d 0) s
    s.complete c stOk 0 0 (leBytes s.runMask 2)

/-- R427: a W1C write to a domain's votes withdraws RHZ, PEER and WAKEPORT votes. -/
def State.voteW1c (s : State) (d : Nat) (v : Word) : State :=
  if 11 ≤ d then s
  else [3, 4, 5].foldl (fun s i => if bitOf v i then s.unvote d i else s) s

/-! ## Mailbox -/

/-- R419: the range of a tunable. -/
def tunRange (tid : Nat) : Option (Nat × Nat) :=
  if tid = 1 then some (1, 2458) else if tid = 2 then some (100, 1000000) else if tid = 3 then some (1000, 10000000)
  else if tid = 4 then some (0, 3) else if tid = 5 then some (70, 100) else if tid = 6 then some (0, 2 ^ 32 - 1) else none

/-- R220: CK_MESH of an operating point, MHz. -/
def ckMesh (point : Nat) : Nat := [800, 1200, 1600, 1600].getD point 1600

/-- R125: `fetch_cap` at the present point, in tokens of 64 bytes per 256 CK_MESH cycles. -/
def State.fetchCap (s : State) : Nat := s.tunable 1 * 4000 / ckMesh (s.rf 0x00200600 0 2)

/-- R125: the host lowers `fetch_cap`: the global rate is not above it. -/
def State.fetchRate (s : State) : State := s.wf 0x0300F008 0 13 (min (s.rf 0x0300F008 0 13) s.fetchCap)

/-- R125: the governor sets the rates and the depths of the regulator to values of its own (log 10), the global rate never above
`fetch_cap`. -/
def State.fetchGovern (s : State) : State :=
  let s := s.bump
  let v (k : Nat) : Nat := Config.unstated 125 (6 * s.free + k)
  let s := (s.wf 0x0300F000 0 12 (v 0)).wf 0x0300F000 16 16 (v 1)
  let s := (s.wf 0x0300F004 0 12 (v 2)).wf 0x0300F004 16 16 (v 3)
  (s.wf 0x0300F008 0 13 (min (v 4 % 8192) s.fetchCap)).wf 0x0300F008 16 16 (v 5)

/-- R419: a mailbox command is taken while none runs; otherwise it is counted. -/
def State.mailbox (s : State) (f : State → State × Nat × Option Word) : State :=
  if s.flag 8 0 then s.count 8 16 16
  else
    let r := f s
    let s := r.1.setFlag 8 0
    { s with host := { s.host with mbx := some (r.2.1, r.2.2) } }

def State.mbxGet (s : State) (tid : Nat) : State × Nat × Option Word :=
  match tunRange tid with
  | some _ => (s, 0, some (BitVec.ofNat 32 (s.tunable tid)))
  | none => (s, 1, none)

def State.mbxSet (s : State) (tid : Nat) : State × Nat × Option Word :=
  let v := (s.rd 4).toNat
  match tunRange tid with
  | none => (s, 1, none)
  | some (lo, hi) =>
    if lo ≤ v ∧ v ≤ hi then
      let s := { s with host := { s.host with tun := tput (tunDefault tid) s.host.tun tid v } }
      (if tid = 1 then s.fetchRate else s, 0, none)
    else (s, 2, none)

def State.mbxProbe (s : State) : State × Nat × Option Word := (s.trigger (s.rf 4 0 6), 0, none)

/-- R419: a mailbox command completes. -/
def State.mbxDone (s : State) : State :=
  match s.host.mbx with
  | none => s
  | some (st, v) =>
    let s := { s with host := { s.host with mbx := none } }
    let s := match v with
      | some w => s.wr 4 w
      | none => s
    ((s.wf 8 1 3 st).clrFlag 8 0).signal 130

/-! ## Events -/

/-- R420, R230, R239: the k-th event on its way reaches the governor. -/
def State.govEvent (s : State) (k : Nat) : State :=
  match takeAt s.events k with
  | none => s
  | some (e, rest) =>
    if !s.boot.started then s
    else
      let s := { s with events := rest }
      match e.pipe with
      | none => if 1 ≤ e.code ∧ e.code ≤ 13 then s.forward e.code e.stop e.value else s
      | some p =>
        if e.code = 0 then s.trigger p
        else if e.code = 14 then
          if s.flag (reg e.stop 0xF800) 1 then (s.info p).stops.foldl State.haltTile s else s
        else if e.code = 15 then s.crust p 0
        else
          let s := if e.code = 1 then s.tally p 9 else s
          s.forward e.code e.stop e.value p

end Sys2Proof.Machine
end

