-- ==== Sys2Proof/Machine/Owner.lean ====
section
/-! DEFINITION. Owner records: slots, the device block, minima and the ratchet (R451 to R453). -/

namespace Sys2Proof.Machine

def State.slot (s : State) (k : Nat) : Option OwnerSlot := tget none s.boot.slots k

/-- The committed slot of highest generation, among those that a test accepts. -/
def State.topSlot (s : State) (ok : OwnerSlot → Bool) : Option (Nat × OwnerSlot) :=
  (List.range 32).foldl (fun (best : Option (Nat × OwnerSlot)) k =>
    match s.slot k with
    | some x => if ok x && best.all fun b => decide (b.2.gen < x.gen) then some (k, x) else best
    | none => best) none

/-- R452: the numbers that the HMAC of a device block covers. -/
def blockNats (oseq gen : Nat) (minima : List Nat) : List Nat := oseq :: minima ++ [gen]

/-- R453: what a committed slot must meet to be in force. Its signatures are those of R446; that its signer was accepted
is what the HMAC vouches for (log 13). -/
def slotGood (x : OwnerSlot) : Bool :=
  (objVerify x.obj 3 true 0).isNone && x.mac == Config.deviceMac x.obj.digest (blockNats x.body.oseq x.gen x.minima) &&
    (x.minima.zip x.body.minima).all fun m => decide (m.2 ≤ m.1)

/-- R451, R453: a record takes force, or none does. A record that withdraws ownership leaves the part unowned, and its
`oseq` in force (log 13). -/
def State.installOwner (s : State) (o : Option (Nat × OwnerSlot)) : State :=
  let s := { s with boot := { s.boot with owner := o.map fun (x : Nat × OwnerSlot) => x.1 } }
  match o with
  | some (_, x) =>
    let on := x.body.ownerHash != 0
    let s := (s.wf 0x00300000 3 1 (boolNat on)).wr 0x00300008 (BitVec.ofNat 32 x.body.oseq)
    let s := s.wrWide 0x00300040 x.body.ownerHash.toNat 12
    let s := (List.range 4).foldl (fun s k =>
      s.wr (0x00300010 + 4 * k) (if on then BitVec.ofNat 32 (x.minima.getD k 0) else 0)) s
    { s with boot := { s.boot with vendorMask := if on then x.body.vendorMask else 15 } }
  | none =>
    let s := (s.clrFlag 0x00300000 3).wr 0x00300008 0
    let s := (s.wrWide 0x00300040 0 12).wrWide 0x00300010 0 4
    { s with boot := { s.boot with vendorMask := 15 } }

/-- R452: a slot is written: the next after the one of highest generation; a half of the area that holds no slot of that
generation is erased first. -/
def State.writeSlot (s : State) (obj : SignedObj) (body : OwnerBody) (minima : List Nat) : State :=
  let top := s.topSlot fun _ => true
  let k := top.elim 0 fun t => (t.1 + 1) % 32
  let gen := top.elim 1 fun t => t.2.gen + 1
  let erase := !(top.any fun t => t.1 / 16 == k / 16)
  let slots := if erase then (List.range 16).foldl (fun t i => tput none t (k / 16 * 16 + i) none) s.boot.slots else s.boot.slots
  let x : OwnerSlot := { obj := obj, body := body, gen := gen, minima := minima
                         mac := Config.deviceMac obj.digest (blockNats body.oseq gen minima) }
  let s := { s with boot := { s.boot with slots := tput none slots k (some x) } }
  s.installOwner (some (k, x))

/-- R451: the larger minima, type by type. -/
def maxMinima (a b : List Nat) : List Nat := (List.range 4).map fun k => max (a.getD k 0) (b.getD k 0)

/-- The minima in force, in the order of types 1, 2, 4, 6. -/
def State.minima (s : State) : List Nat := (List.range 4).map fun k => (s.rd (0x00300010 + 4 * k)).toNat

/-- R452: an object with `ratchet` raises its type's minimum; on an unowned part it has no effect. -/
def State.ratchet (s : State) (o : SignedObj) : State :=
  match s.boot.owner.bind s.slot with
  | some x =>
    let k := if o.itype = 1 then 0 else if o.itype = 2 then 1 else 2
    if s.owned ∧ o.ratchet ∧ s.minima.getD k 0 < o.sv then
      s.writeSlot x.obj x.body (s.minima.set k o.sv)
    else s
  | none => s

end Sys2Proof.Machine
end

