-- ==== Sys2Proof/Machine/Boot.lean ====
section
/-! DEFINITION. Reset of D_AON, the boot ROM, the firmware's start-up and staging (R449 to R456, R326, R390, R443, R467,
R481). -/

namespace Sys2Proof.Machine

/-! ## Reset -/

/-- R456: the bank that staging writes: the one not booted; bank 0 when none was (log 13). -/
def State.spareBank (s : State) : Nat := if s.rf 0x00300000 0 2 = 1 then 1 - s.rf 0x00300000 2 1 else 0

def State.setBank (s : State) (n : Nat) (b : Option FwBank) : State :=
  if n = 0 then { s with boot := { s.boot with bank0 := b } } else { s with boot := { s.boot with bank1 := b } }

/-- R456, R467: a flash write that a reset cuts short is discarded: the region of an object that passed its checks is still as it was, or
is erased and not committed. Where in its course the reset meets the staging is a free value (log 13). -/
def State.cutStaging (s : State) : Boot :=
  match s.boot.stageObj with
  | some (1, _) => if s.boot.stageErr = 0 ∧ Config.unstated 456 s.free % 2 = 1 then (s.setBank s.spareBank none).boot else s.boot
  | some (2, _) => if s.boot.stageErr = 0 ∧ Config.unstated 456 s.free % 2 = 1 then { s.boot with defRhz := none } else s.boot
  | _ => s.boot

/-- A D_AON reset (R424, R443, R455, R467): the main side is as after power-up. The Capsule, the boot flash, host memory and
the board's supplies stay; the fabric's supplies are the board's. -/
def State.aonClear (s : State) : State :=
  let flash := s.cutStaging
  { out := s.out, hostMem := s.hostMem, cap := s.cap, free := s.free + 1, pending := s.pending
    regs := s.regs.filter fun e => capsuleReg e.1
    boot := { bank0 := flash.bank0, bank1 := flash.bank1, defRhz := flash.defRhz, slots := flash.slots
              helper := s.boot.helper }
    rhz := { bank33 := s.rhz.bank33 }
    dbg := { chal := s.dbg.chal } }

/-- R481: a new challenge is drawn. -/
def State.newChallenge (s : State) : State :=
  let s := { s with dbg := { s.dbg with chal := s.dbg.chal + 1 } }
  s.wrWide 0x00330000 (Config.challenge s.dbg.chal).toNat 12

/-! ## The ROM -/

/-- R446, R451: a committed firmware bank verifies. -/
def State.bankGood (s : State) (b : Option FwBank) : Option FwBank := b.filter fun x => (s.verify x.obj 1).isNone

/-- R455, step 3: the bank that boots. -/
def State.pickBank (s : State) : Option (Nat × FwBank) :=
  match s.bankGood s.boot.bank0, s.bankGood s.boot.bank1 with
  | some a, some b =>
    let d := (b.gen + 2 ^ 32 - a.gen % 2 ^ 32) % 2 ^ 32
    if 0 < d ∧ d < 2 ^ 31 then some (1, b) else some (0, a)
  | some a, none => some (0, a)
  | none, some b => some (1, b)
  | none, none => none

/-- R455, steps 2 to 6. -/
def State.romBoot (s : State) : State :=
  let s := s.installOwner (if s.flag 0x00300000 4 then s.topSlot slotGood else none)
  match s.pickBank with
  | none => s.wf 0x00300000 0 2 2
  | some (n, b) =>
    let rhz := s.boot.defRhz.any fun x => (s.verify x.1 2).isNone
    let s := ((s.wf 0x00300000 0 2 1).wf 0x00300000 2 1 n).wf 0x00300000 5 1 (boolNat rhz)
    let s := (s.wf 0x00300000 8 2 ((s.vendorSlot b.obj.keyHash).getD 0)).wr 0x00300004 (BitVec.ofNat 32 b.obj.sv)
    let s := s.wrWide 0x00300080 b.obj.digest.toNat 12
    let s := s.wr 0x00508014 (BitVec.ofNat 32 (Config.unstated 336 b.obj.digest.toNat))
    { s with boot := { s.boot with fwRatchet := b.obj.ratchet } }

/-- R326, R329, R336, R474: the straps give the device id; the part is its own leader and only member. -/
def State.setStraps (s : State) (id : Nat) : State :=
  let id := id % 16
  ((s.wf 0x00508000 0 4 id).wf 0x00508000 4 4 id).wf 0x00508004 0 16 (2 ^ id)

/-- R455: AON_RST_L is released, with every reference clock present (R465, R476). -/
def State.aonReset (s : State) (straps : Nat) : State :=
  let s := (s.aonClear.capDomain.setStraps straps).newChallenge.wf 0x00200800 0 5 31
  let s := s.wf 0x00300000 4 1 (boolNat s.boot.helper)
  s.romBoot

/-- R452, R390: the end of the firmware's start-up: its ratchet, GOV's votes, the default Rhizoid image. -/
def State.firmwareStarted (s : State) : State :=
  if s.rf 0x00300000 0 2 ≠ 1 ∨ s.boot.started then s
  else
    let bank := if s.flag 0x00300000 2 then s.boot.bank1 else s.boot.bank0
    let s := match bank with
      | some b => if s.boot.fwRatchet then s.ratchet b.obj else s
      | none => s
    let s := ({ s with boot := { s.boot with started := true } }).govVotes
    match s.boot.defRhz with
    | some (o, d) => if s.flag 0x00300000 5 then s.rhzLoad { cmd := none, obj := o, img := d } else s
    | none => s

/-! ## Staging -/

/-- R456: a governor, or the ROM in RECOVERY, serves staging of the type. -/
def State.serves (s : State) (stype : Nat) : Bool := s.boot.started || (s.rf 0x00300000 0 2 == 2 && stype != 2)

/-- R446, check 1: the object that SEC_STAGE_LEN gives has another length; else what the checks of its type say. -/
def State.stageFail (s : State) (o : SignedObj) (err : Option Nat) : Nat :=
  if (s.rd 0x00300108).toNat ≠ o.objLen then 1 else err.getD 0

/-- R456: `stage_go`: the object is verified; what is wrong with it stands in `stageErr`. -/
def State.stage (s : State) (stype : Nat) (o : SignedObj) (err : Option Nat) (rhz : Option RhzDesign)
    (body : Option OwnerBody) : State :=
  if s.flag 0x00300110 0 ∨ !s.serves stype then s
  else
    let fail := s.stageFail o err
    let s := (s.wf 0x0030010C 0 2 stype).setFlag 0x00300110 0
    { s with boot := { s.boot with stageObj := some (stype, o), stageErr := fail, stageRhz := rhz
                                   stageOwner := body } }

/-- R451: what an owner record must meet beside R446. Without a device key the part has no serial (log 13). -/
def State.ownerErr (s : State) (o : SignedObj) (b : OwnerBody) : Option Nat :=
  match s.verify o 3 with
  | some e => some e
  | none =>
    if b.format ≠ 1 ∨ !b.restZero ∨ o.bodyLen ≠ 128 then some 1
    else if !s.flag 0x00300000 4 ∨ b.serial ≠ Config.serial 0 ∨ b.oseq ≤ (s.rd 0x00300008).toNat ∨ b.vendorMask % 16 = 0 then
      some 3
    else none

/-- The generation that staging writes (R456). -/
def State.stageGen (s : State) : Nat :=
  let other := if s.spareBank = 0 then s.boot.bank1 else s.boot.bank0
  (other.elim 0 (·.gen) + 1) % 2 ^ 32

/-- The flash of a staged object (R456): written and committed, or left uncommitted. -/
def State.stageFlash (s : State) (stype : Nat) (o : SignedObj) (good : Bool) : State :=
  if stype = 1 then
    let s := s.setBank s.spareBank (if good then some { obj := o, gen := s.stageGen } else none)
    if good ∧ s.rf 0x00300000 0 2 = 2 then s.romBoot else s
  else if stype = 2 then
    { s with boot := { s.boot with defRhz := if good then s.boot.stageRhz.map fun d => (o, d) else none } }
  else
    match s.boot.stageOwner with
    | some b => if good then s.writeSlot o b (maxMinima b.minima s.minima) else s
    | none => s

/-- R456: staging ends. `flashOk`: no write or erase failed; `unchanged`: the check of the digest after the write passes. -/
def State.stageDone (s : State) (flashOk unchanged : Bool) : State :=
  match s.boot.stageObj with
  | none => s
  | some (stype, o) =>
    let err := s.boot.stageErr
    let code := if err ≠ 0 then err else if !flashOk then 4 else if !unchanged then 2 else 0
    let s := if err ≠ 0 then s else s.stageFlash stype o (code == 0)
    let s := { s with boot := { s.boot with stageObj := none, stageRhz := none, stageOwner := none, stageErr := 0 } }
    (s.wf 0x00300110 4 4 code).clrFlag 0x00300110 0

end Sys2Proof.Machine
end

