-- ==== Sys2Proof/Machine/Power.lean ====
section
/-! DEFINITION. The power controller: refusals, the steps of entry, aborts, exits, supply failures and pads (R428 to R435),
wake sources (R436 to R439), operating points and throttling (R221, R440 to R442). -/

namespace Sys2Proof.Machine

def State.setPhase (s : State) (d ph st : Nat) : State := (s.wf (domReg d) 0 3 ph).wf (domReg d) 3 3 st

def State.modPwr (s : State) (f : Pwr → Pwr) : State := { s with pwr := f s.pwr }

/-- R421: vector 132 for a transition that has completed; D_HOST's own entry leaves no one to signal it. -/
def State.powerSignal (s : State) : State := if s.inRun dHost then s.signal 132 else s

/-- R12, R295: a domain is not in Run any more; frame-store writes to its stack are abandoned at once. -/
def State.leaveRun (s : State) (d : Nat) : State := if d = dHbmA ∨ d = dHbmB then s.abandonStore (d - dHbmA) else s

/-! ## Refusals -/

/-- R428, code 1: a LOAD, a CANCEL or a point change that involves the domain; for D_HOST, a link that is not in L2. -/
def State.govRefuses (s : State) (d : Nat) : Bool :=
  (d == dHost && !s.pwr.l2) ||
    (d == dRhz && (s.rhz.load.any fun l => l.cmd.isSome)) ||
    (s.flag 0x00200600 4 && (d == dA || d == dB || d == dHost)) ||
    (s.gov.pipes.any fun e => ((e.2.cmd.any fun c => c.opc == 4) || e.2.update.isSome) && (s.pipeDomains e.1).contains d)

/-- R428: the codes of the refusers of a domain, lowest first. -/
def State.refusers (s : State) (d : Nat) : List Nat :=
  let wire := match s.rhz.design with
    | some x => s.lstate == lsRunning && x.refuseWires.any fun w => w.1 == d && s.wireVal x w.2
    | none => false
  [(0, s.flag (domReg d + 8) 0), (1, s.govRefuses d),
   (2, d == dHost && s.flag 0x00700030 0 && s.recordsLeft), (3, wire),
   (4, d == dLnk && !s.upPorts.isEmpty),
   (6, (domChildren d).any fun c => s.phase c == phRun || s.phase c == phExit)].filterMap fun (x : Nat × Bool) =>
    if x.2 then some x.1 else none

/-- A stop-side domain: not D_AON, which never stops (R425), nor D_CAP, which the Capsule moves. -/
def isDomain (d : Nat) : Bool := 1 ≤ d && d ≤ 9

/-- R428: a domain in Run that is no longer wanted refuses, or begins entry. -/
def State.domainEntry (s : State) (d : Nat) : State :=
  if !isDomain d ∨ s.phase d ≠ phRun ∨ s.wantedNow d ∨ s.pwr.stuck.contains d then s
  else
    match s.refusers d with
    | r :: _ =>
      if s.pwr.counted.contains d then s
      else
        let s := (s.count (domReg d + 0x14) 0 16).wf (domReg d + 0x18) 0 3 r
        (s.modPwr fun p => { p with counted := d :: p.counted }).signal 132
    | [] =>
      ((s.setPhase d phEntry 1).leaveRun d).modPwr fun p =>
        { p with counted := p.counted.filter fun x => x != d, woken := p.woken.filter fun x => x != d
                 entryAt := tput 0 p.entryAt d s.time }

/-! ## Pads -/

/-- R435: the pads of a domain are latched: a Rhizoid pin keeps its drive. -/
def State.latchPads (s : State) (d : Nat) : State :=
  let s := if d = dRhz ∧ !s.flag (domReg d) 7 then
      { s with rhz := { s.rhz with pads := (List.range 96).map s.pinDrive } }
    else s
  s.setFlag (domReg d) 7

/-- R435: the pads take the values that the domain drives. -/
def State.freePads (s : State) (d : Nat) : State :=
  let s := s.clrFlag (domReg d) 7
  if d = dRhz then { s with rhz := { s.rhz with pads := [] } } else s

/-- R435: what a Rhizoid pin drives at its pad. -/
def State.padDrive (s : State) (n : Nat) : Nat :=
  if s.flag (domReg dRhz) 7 then s.rhz.pads.getD n 0 else s.pinDrive n

/-! ## Steps of entry -/

/-- R426, R431: writes held for a domain are applied in the order of their arrival. -/
def State.applyHeld (s : State) (d : Nat) : State :=
  let h := tget [] s.pwr.held d
  let s := s.modPwr fun p => { p with held := tput [] p.held d [] }
  h.foldl (fun s w => s.applyWrite w.1 w.2.1 w.2.2) s

/-- R432: an entry is unwound from abort point k; the domain goes on in Run. -/
def State.abortEntry (s : State) (d k : Nat) : State :=
  let s := if 3 ≤ k then s.freePads d else s
  let s := (s.setPhase d phRun 0).clrFlag (domReg d) 6
  let s := (s.count (domReg d + 0x14) 16 16).wf (domReg d + 0x18) 4 3 k
  let s := s.modPwr fun p => { p with woken := p.woken.filter fun x => x != d, saved := tput [] p.saved d [] }
  ((s.signal 132).applyHeld d).refresh

/-- R430: no unreserved flit is in flight to or from the stops of a domain, nor a fetch read: what a stop of the domain has sent has
left, and of what it will get nothing has entered the mesh. D_HOST holds the units of the operations. -/
def State.quiet (s : State) (d : Nat) : Bool :=
  let here (stop : Nat) : Bool := stopDomain stop == d
  !(s.mesh.uns.any fun u => here u.flit.src || (here u.flit.dst && u.place != .source)) && (d != dHost || s.sync.msgs.isEmpty) &&
    !(s.sync.replies.any fun r => here r.stop) && !(s.chain.any fun c => here c.stop) &&
    !(s.reads.any fun r => r.admitted && (here r.stop || dHbmA + stackOf r.addr == d))

/-- R429: pipelines that use a domain that has stopped. One in crust mode leaves it only through a LOAD (R20), and one that runs
cannot meet the case (R427): both stay. -/
def State.unloadDomain (s : State) (d : Nat) : State :=
  (s.loadedPipes.filter fun p => (s.pstate p == psLoaded || s.pstate p == psStopped) && (s.pipeDomains p).contains d).foldl
    State.unloadPipe s

/-- R430, step 6: the domain is in Stop. -/
def State.enterStop (s : State) (d : Nat) : State :=
  let s := s.unloadDomain d
  let s := if d = dRhz then s.fabricLost else s
  let s := ((s.domainLoss d).setPhase d phStop 0).count (domReg d + 0xC) 0 32
  (s.modPwr fun p => { p with stopAt := tput 0 p.stopAt d s.time }).refresh.powerSignal

/-- R430, R432: step k of entry completes. -/
def State.stepEnds (s : State) (d k : Nat) : State :=
  if k = 6 then s.enterStop d
  else
    let s := if k = 3 then s.latchPads d else if k = 2 then s.modPwr fun p => { p with saved := tput [] p.saved d (s.saveArea d) } else s
    if s.pwr.woken.contains d then s.abortEntry d k else s.wf (domReg d) 3 3 (k + 1)

/-- R430: step 1 has drained. -/
def State.drainedStep (s : State) (d : Nat) : State :=
  if isDomain d ∧ s.phase d = phEntry ∧ s.step6 d = 1 ∧ s.quiet d then s.stepEnds d 1 else s

/-- R430: step 1 has not drained after 100 µs. -/
def State.quiesceLate (s : State) (d : Nat) : State :=
  if isDomain d ∧ s.phase d = phEntry ∧ s.step6 d = 1 ∧ !s.quiet d ∧ tget 0 s.pwr.entryAt d + 100000 ≤ s.time then
    let s := (s.abortEntry d 1).setFlag (domReg d + 0x1C) 1
    s.modPwr fun p => { p with stuck := d :: p.stuck }
  else s

def State.entryStep (s : State) (d : Nat) : State :=
  if isDomain d ∧ s.phase d = phEntry ∧ 2 ≤ s.step6 d then s.stepEnds d (s.step6 d) else s

/-! ## Exits -/

/-- R433: every parent is in Run. -/
def State.parentsRun (s : State) (d : Nat) : Bool := (domAncestors d).all s.inRun

/-- R431, R433: a domain in Stop is called for: it is wanted, or a wake latched in step 6 came from a child that is. -/
def State.called (s : State) (d : Nat) : Bool :=
  s.wantedNow d || (s.flag (domReg d) 6 && (domChildren d).any s.wantedNow)

/-- R418: pseudo-channels of the stacks that are in Run, which are trained. -/
def State.trained (s : State) : Nat := 32 * (boolNat (s.inRun dHbmA) + boolNat (s.inRun dHbmB))

/-- R418: the progress of HBM training, for a domain that holds a stack. -/
def State.trainProgress (s : State) (d : Nat) : State := if d = dHbmA ∨ d = dHbmB then s.progress 3 s.trained 64 else s

/-- R433: a domain leaves Stop, if it has its clock (R470). -/
def State.domainExit (s : State) (d : Nat) : State :=
  if isDomain d ∧ s.phase d = phStop ∧ s.called d ∧ s.parentsRun d ∧ s.clockGone 3 = false then
    let stay := s.time - tget 0 s.pwr.stopAt d
    let s := ((s.setPhase d phExit 0).clrFlag (domReg d) 6).trainProgress d
    (s.modPwr fun p => { p with stopNs := tput 0 p.stopNs d (tget 0 p.stopNs d + stay), stopAt := tput 0 p.stopAt d 0 }).refresh
  else s

/-- R390: the governor loads the default image when the fabric's domain is back. -/
def State.defaultFabric (s : State) : State :=
  match s.boot.defRhz with
  | some (o, d) => if s.boot.started ∧ s.flag 0x00300000 5 then s.rhzLoad { cmd := none, obj := o, img := d } else s
  | none => s

/-- R424, R433: a domain that leaves Stop restores its save area; there is none after a failure without the steps of entry (R434). -/
def State.restoreArea (s : State) (d : Nat) : State :=
  let s := (tget [] s.pwr.saved d).foldl (fun s e => s.wr e.1 (restoredReg e)) s
  s.modPwr fun p => { p with saved := tput [] p.saved d [] }

/-- R433, R436, R437: a domain enters Run. -/
def State.exitDone (s : State) (d : Nat) : State :=
  if isDomain d ∧ s.phase d = phExit then
    let s := s.restoreArea d
    let s := (((s.setPhase d phRun 0).clrFlag (domReg d) 6).count (domReg d + 0x10) 0 32).trainProgress d
    let s := if d = dRhz then s.defaultFabric else s
    let s := if d = dHost then
        let due := s.pwr.vector
        let s := s.modPwr fun p => { p with wakeL := false, vector := false, l2 := false }
        if due then s.signal 133 else s
      else s
    s.refresh.powerSignal.applyHeld d
  else s

/-! ## Supply failures -/

/-- R434: a domain in Run or in entry fails. -/
def State.supplyFail (s : State) (d : Nat) : State :=
  if isDomain d ∧ (s.phase d = phRun ∨ s.phase d = phEntry) then
    let s := s.crustDomain d
    let s := s.latchPads d
    let s := if d = dRhz then s.fabricLost else s
    let s := (((s.domainLoss d).setPhase d phFault 0).leaveRun d).clrFlag (domReg d) 6
    let s := (s.setFlag (domReg d + 0x1C) 0).count (domReg d + 0x1C) 16 16
    (s.modPwr fun p => { p with woken := p.woken.filter fun x => x != d, stopAt := tput 0 p.stopAt d s.time }).refresh
  else s

/-- R434: the host clears `fault`; a domain that is wanted in Run then leaves Stop. -/
def State.faultClear (s : State) (d : Nat) : State :=
  let s := s.clrFlag (domReg d + 0x1C) 0
  if isDomain d ∧ s.phase d = phFault ∧ s.wantedNow d then (s.setPhase d phStop 0).domainExit d else s

/-- R435: the host writes `pad_rel`. -/
def State.padRelease (s : State) (d : Nat) : State := if s.flag (domReg d) 7 then s.freePads d else s

/-! ## Wake sources -/

/-- R427: the client of each wake source (R438). -/
def wakeClient (src : Nat) : Nat := [5, 3, 4, 2, 0].getD src 0

/-- R436, R437: a wake source fires. -/
def State.fire (s : State) (src : Nat) : State :=
  let w := s.rd (0x00200400 + 4 * src)
  if !bitOf w 31 then s
  else
    let doms := ((maskDoms (bitsOf w 0 11)).flatMap fun d => d :: domAncestors d).eraseDups
    let wake := s.phase dHost == phStop && s.pwr.l2
    let s := doms.foldl (fun s d => s.vote d (wakeClient src)) s
    let s := ((s.setFlag 0x00200440 src).wf 0x00200440 8 3 src).count 0x00200448 0 32
    let s := if wake then s.modPwr fun p => { p with wakeL := true } else s
    if s.inRun dHost then s.signal 133 else s.modPwr fun p => { p with vector := true }

/-- R439: a write to the wake port: the vote that it carries, and the firing of source 0. -/
def State.wakePortWrite (s : State) (addr : Nat) (bytes : List Byte) : State :=
  match bytes with
  | [b0, b1] =>
    if s.pinsHeld ∨ !s.flag 0x00200444 7 ∨ addr ≠ s.rf 0x00200444 0 7 then s
    else
      let doms := (maskDoms (b0.toNat + b1.toNat % 8 * 256)).filter fun d => d != dCap
      if b1.toNat / 128 = 1 then (doms.foldl (fun s d => s.vote d 5) s).fire 0
      else doms.foldl (fun s d => s.unvote d 5) s
  | _ => s

/-- R439: a read of the wake port; no byte comes from an address that is not acknowledged. -/
def State.wakePortRead (s : State) (addr : Nat) : State :=
  if !s.pinsHeld ∧ s.flag 0x00200444 7 ∧ addr = s.rf 0x00200444 0 7 then { s with out := leBytes s.runMask 2 } else { s with out := [] }

/-- R438: an edge on a pin that a sense cell reads. -/
def State.wakePin (s : State) (pin : Nat) (rising : Bool) : State :=
  let hit (k : Nat) : Bool :=
    let w := s.rd (0x00200420 + 4 * k)
    let e := bitsOf w 7 2
    bitsOf w 0 7 == pin && (e == 2 || (e == 0 && rising) || (e == 1 && !rising))
  if !s.pinsHeld && (List.range 4).any hit then s.fire 1 else s

/-! ## Operating points -/

/-- R420: what a completed point change or a throttle reports: the point and the island minimum reached (log 17). -/
def State.pointEvent (s : State) (m : Nat) : State := s.forward 12 0xFFFF (s.rf 0x00200600 0 2 + m * 2 ^ 8)

/-- R441: the code that the part drives on VID_A and VID_B: the point that it rises to, else the present one. -/
def State.vid (s : State) : Nat := if s.flag 0x00200600 4 then s.rf 0x00200600 2 2 else s.rf 0x00200600 0 2

/-- R440: VDD_A and VDD_B in mV, tile clock and CK_MESH in MHz at each point. -/
def opTable (point : Nat) : Nat × Nat × Nat :=
  ([650, 700, 750, 850].getD point 0, [600, 900, 1250, 1500].getD point 0, ckMesh point)

/-- R440, R441: the part is at a new point. -/
def State.atPoint (s : State) (point : Nat) : State :=
  let s := ((s.wf 0x00200600 0 2 point).wf 0x00200600 2 2 point).clrFlag 0x00200600 4
  ((s.wrap 0x0020060C 0 32).fetchGovern).pointEvent 16

/-- R441: the governor chooses a point, never above `op_max` (R419). Clocks and then voltages fall at once; a rise asks for
the voltage and waits. -/
def State.changePoint (s : State) (point : Nat) : State :=
  let cur := s.rf 0x00200600 0 2
  if !s.boot.started ∨ 3 < point ∨ s.tunable 4 < point ∨ s.flag 0x00200600 4 ∨ point = cur then s
  else if point < cur then s.atPoint point
  else
    (((s.wf 0x00200600 2 2 point).setFlag 0x00200600 4).modPwr fun p => { p with opPrev := cur, opStart := s.time })

/-- R442: both rails confirm. -/
def State.vokConfirm (s : State) : State := if s.flag 0x00200600 4 ∧ !s.pinsHeld then s.atPoint (s.rf 0x00200600 2 2) else s

/-- R442: a rail has not confirmed within 1 ms. -/
def State.vokTimeout (s : State) : State :=
  if s.flag 0x00200600 4 ∧ s.pwr.opStart + 1000000 ≤ s.time then
    let s := ((s.wf 0x00200600 2 2 s.pwr.opPrev).clrFlag 0x00200600 4).count 0x00200600 16 16
    s.pointEvent 16
  else s

/-- R221: pipelines whose tiles stand in an island; an island is a stop (R219). -/
def State.islandMin (s : State) (island : Nat) : Nat :=
  ((s.loadedPipes.filter fun p => (s.info p).stops.contains island || (s.info p).jobs.any fun j => j.stop == island).map
    fun p => (s.info p).entry.m).foldl max 1

/-- R221: to hold the junction limit the governor sets an island to m/16 of the point's tile clock, never below the minima of its
pipelines: where that would not do, the whole part moves to a lower point instead, the next one (DESIGN CHOICE, log 17). -/
def State.throttle (s : State) (island m : Nat) : State :=
  if s.boot.started ∧ island < 448 ∧ 1 ≤ m ∧ m ≤ 16 then
    if s.islandMin island ≤ m then (s.modPwr fun p => { p with islands := tput 16 p.islands island m }).pointEvent m
    else if s.rf 0x00200600 0 2 = 0 then s else s.changePoint (s.rf 0x00200600 0 2 - 1)
  else s

end Sys2Proof.Machine
end

