-- ==== Sys2Proof/Machine/BootCommands.lean ====
section
/-! DEFINITION. The meanings of the commands of boot and staging (R449 to R456, R467). -/

namespace Sys2Proof.Machine

/-- R455, R466: a reset of D_AON, after which the domains of rails outside their range are in FAULT. Bits [3:0] of the operand are the
straps, bit 4 + d says that a rail of domain d is outside its range. -/
def State.boots (s : State) (pins : Nat) : State := (maskDoms (pins / 16)).foldl State.supplyFail (s.aonReset (pins % 16))

/-- AON_RESET (R455). -/
def execAonReset (straps : Nat) (s : State) : Result := .next (s.boots straps)

/-- AON_BROWNOUT (R467): every other main-side domain is forced to Stop first, which the reset then overtakes. -/
def execAonBrownout (straps : Nat) (s : State) : Result := .next (s.boots straps)

/-- FIRMWARE_STARTUP_COMPLETE (R452). -/
def execFirmwareStartupComplete (s : State) : Result := .next s.firmwareStarted

/-- STAGE_FIRMWARE (R456). -/
def execStageFirmware (obj : SignedObj) (s : State) : Result := .next (s.stage 1 obj (s.verify obj 1) none none)

/-- STAGE_RHIZOID_IMAGE (R456). -/
def execStageRhizoidImage (obj : SignedObj) (img : RhzDesign) (s : State) : Result :=
  .next (s.stage 2 obj (s.verify obj 2) (some img) none)

/-- STAGE_OWNER_RECORD (R451). -/
def execStageOwnerRecord (obj : SignedObj) (body : OwnerBody) (s : State) : Result :=
  .next (s.stage 3 obj (s.ownerErr obj body) none (some body))

/-- STAGING_COMPLETE (R456). -/
def execStagingComplete (flashOk unchanged : Bool) (s : State) : Result := .next (s.stageDone flashOk unchanged)

end Sys2Proof.Machine
end

