-- ==== Sys2Proof/Machine/CapsuleCommands.lean ====
section
/-! DEFINITION. The meanings of the Capsule's commands: its gateway, service port, sensors and seal (R337 to R366). -/

namespace Sys2Proof.Machine

/-- A write of CGW_CMD (R344). -/
def State.cgwWrite (s : State) (opc : Nat) (f : State → Nat × List Word × State) : State :=
  s.writeEffect 0x00700000 fun s => s.gwCommand opc f

/-- CAPSULE_START (R345). -/
def execCapsuleStart (s : State) : Result := .next (s.cgwWrite 1 State.gwStart)

/-- CAPSULE_STOP (R345). -/
def execCapsuleStop (s : State) : Result := .next (s.cgwWrite 2 State.gwStop)

/-- READ_RECORD (R352). -/
def execReadRecord (s : State) : Result := .next (s.cgwWrite 3 State.gwRecord)

/-- READ_LOG (R344). -/
def execReadLog (s : State) : Result := .next (s.cgwWrite 4 State.gwLog)

/-- READ_SWID (R344). -/
def execReadSwid (s : State) : Result := .next (s.cgwWrite 5 State.gwSwid)

/-- READ_EVENT_COUNTER (R344). -/
def execReadEventCounter (s : State) : Result := .next (s.cgwWrite 6 State.gwCounter)

/-- CGW_COMMAND_REFUSED (R344). -/
def execCgwCommandRefused (opc : Nat) (s : State) : Result := .next (s.writeEffect 0x00700000 fun s => s.gwUnknown opc)

/-- CAPSULE_COMMAND_COMPLETE (R344). -/
def execCapsuleCommandComplete (s : State) : Result := .next s.gwComplete

/-- PARAM_READ (R357). -/
def execParamRead (id idx : Nat) (s : State) : Result := .next (s.paramRead id idx)

/-- PARAM_WRITE (R358). -/
def execParamWrite (id idx : Nat) (v : Word) (s : State) : Result := .next (s.paramWrite id idx v)

/-- IMAGE_BEGIN (R356). -/
def execImageBegin (size : Nat) (s : State) : Result := .next (s.imageBegin size)

/-- IMAGE_DATA (R356). -/
def execImageData (off : Nat) (data : List Byte) (s : State) : Result := .next (s.imageData off data)

/-- IMAGE_END (R364). -/
def execImageEnd (verdict : Verdict) (version : Word) (memNeed : Nat) (factory : Tbl Word) (s : State) : Result :=
  .next (s.imageEnd verdict version memNeed factory)

/-- STATUS (R356). -/
def execStatus (s : State) : Result := .next s.svcStatus

/-- BAD_SERVICE_FRAME (R356). -/
def execBadServiceFrame (crcOk : Bool) (cmd : Nat) (s : State) : Result := .next (s.badFrame crcOk cmd)

/-- NOR_OPERATION_COMPLETE (R361). -/
def execNorOperationComplete (s : State) : Result := .next s.norComplete

/-- PROFILE_PACKET (R346). -/
def execProfilePacket (f : PortFrame) (lead : ProfileLead) (s : State) : Result :=
  .next (s.capPacket f.port f.frame lead.fmt lead.points lead.lines)

/-- CAPSULE_ENCODER_TRANSITION (R347). -/
def execCapsuleEncoderTransition (n : Nat) (a b : Bool) (s : State) : Result := .next (s.capEncoder n a b)

/-- PARCEL_WINDOW_OPEN (R347). -/
def execParcelWindowOpen (belt : Nat) (s : State) : Result := .next (s.windowOpen belt)

/-- PARCEL_WINDOW_CLOSE (R348). -/
def execParcelWindowClose (belt : Nat) (facts : ParcelFacts) (s : State) : Result := .next (s.windowClose belt facts)

/-- RECORD_FORWARD (R353). -/
def execRecordForward (s : State) : Result := .next s.recordForward

/-- TIME_MAP_SAMPLE (R354). -/
def execTimeMapSample (s : State) : Result := .next s.mapSample

/-- SEAL_SAMPLE (R355). -/
def execSealSample (pinHigh : Bool) (s : State) : Result := .next (s.sealSample pinHigh)

/-- CAPSULE_RESET (R337). -/
def execCapsuleReset (s : State) : Result := .next s.capReset

/-- CAPSULE_BOOT (R364). -/
def execCapsuleBoot (pinHigh : Bool) (memSize : Nat) (sfdp : Word) (s : State) : Result := .next (s.capBoot pinHigh memSize sfdp)

end Sys2Proof.Machine
end

