-- ==== Sys2Proof/Machine/Debug.lean ====
section
/-! DEFINITION. The test access port and its boundary register (R477 to R479), debug tokens (R480, R481) and the self-test
(R485, R486). -/

namespace Sys2Proof.Machine

def State.modDbg (s : State) (f : Dbg → Dbg) : State := { s with dbg := f s.dbg }

/-! ## Test access port -/

/-- R479: an instruction is updated: edges that the core did not see while inputs were held reach it when the instruction
changes. -/
def State.tapUpdate (s : State) (opc : Nat) : State :=
  if s.pinsHeld && s.dbg.ir != opc then
    let seen := if s.answers dRhz then s.dbg.live else []
    let s := s.modDbg fun d => { d with ir := opc, live := [] }
    seen.foldl (fun s e => s.setPin e.1 (e.2 == 2)) s
  else s.modDbg fun d => { d with ir := opc }

/-- R478, R479: what Rhizoid pin n drives at its pad, as PIN_HOLD codes it: the boundary register's cells, nothing under
HIGHZ, else the latched or live value. -/
def State.pinAtPad (s : State) (n : Nat) : Nat :=
  if s.dbg.ir = 4 then 0
  else if s.dbg.ir = 0 ∨ s.dbg.ir = 5 then
    (if s.dbg.bnd.getLsbD (3 * n + 2) then (if s.dbg.bnd.getLsbD (3 * n + 1) then 2 else 1) else 0)
  else s.padDrive n

/-- EXTEST (R479). -/
def execExtest (bits : BitVec 325) (s : State) : Result := .next ((s.tapUpdate 0).modDbg fun d => { d with bnd := bits })

/-- IDCODE (R477). -/
def execIdcode (s : State) : Result := .next { s.tapUpdate 1 with out := leBytes 0x19648A5F 4 }

/-- R478: what boundary cell n captures: outputs and enables of the Rhizoid pins, WAKE_L, the VID codes and THERM_TRIP_L as the part
drives them, an open-drain output that drives nothing as 1; every other cell what stands at its pin. -/
def State.cell (s : State) (pins : BitVec 325) (n : Nat) : Bool :=
  if n < 288 ∧ n % 3 = 1 then s.padDrive (n / 3) % 4 == 2
  else if n < 288 ∧ n % 3 = 2 then s.padDrive (n / 3) % 4 != 0
  else if n = 308 then !s.pwr.wakeL
  else if n = 313 ∨ n = 315 then s.vid % 2 == 1
  else if n = 314 ∨ n = 316 then s.vid / 2 % 2 == 1
  else if n = 324 then !s.flag 0x00200914 4
  else pins.getLsbD n

/-- SAMPLE_PRELOAD (R477, R478). -/
def execSamplePreload (pins : BitVec 325) (bits : Option (BitVec 325)) (s : State) : Result :=
  let cells := (List.range 325).map (s.cell pins)
  .next ((s.tapUpdate 2).modDbg fun d => { d with sample := cells, bnd := bits.getD d.bnd })

/-- HIGHZ (R479). -/
def execHighz (s : State) : Result := .next (s.tapUpdate 4)

/-- CLAMP (R479). -/
def execClamp (s : State) : Result := .next (s.tapUpdate 5)

/-- BYPASS (R477): every code that is no other instruction's. -/
def execBypass (opc : Nat) (s : State) : Result :=
  .next (if opc < 256 ∧ ¬[0, 1, 2, 4, 5].contains opc then s.tapUpdate opc else s)

/-- TEST_LOGIC_RESET (R477). -/
def execTestLogicReset (s : State) : Result := .next (s.tapUpdate 1)

/-! ## Debug tokens -/

/-- R480: the first check that a token fails, as `tstatus`; 0 when none does. -/
def State.tokenStatus (s : State) (o : SignedObj) (b : TokenBody) : Nat :=
  match s.verify o 6 with
  | some e => e
  | none =>
    if b.format ≠ 1 ∨ !b.restZero ∨ o.bodyLen ≠ 96 then 1
    else if !s.flag 0x00300000 4 ∨ b.serial ≠ Config.serial 0 then 4
    else if b.challenge.toNat ≠ s.rdWide 0x00330000 12 then 5
    else 0

/-- R480: `tok_go`. A token presented in debug mode answers ACTIVE. -/
def State.tokenGo (s : State) (o : SignedObj) (b : TokenBody) : State :=
  if s.flag 0x00330050 0 ∨ !s.boot.started then s
  else
    let st := if s.flag 0x00330050 4 then 7 else if (s.rd 0x00330048).toNat ≠ o.objLen then 1 else s.tokenStatus o b
    (s.modDbg fun d => { d with tok := some (st, b.perms % 4) }).setFlag 0x00330050 0

/-- R480: the verification ends. -/
def State.tokenDone (s : State) : State :=
  match s.dbg.tok with
  | none => s
  | some (st, perms) =>
    let s := (s.modDbg fun d => { d with tok := none }).clrFlag 0x00330050 0
    let s := s.wf 0x00330050 1 3 st
    if st = 0 then ((s.setFlag 0x00330050 4).wf 0x00330050 5 2 perms).setFlag 0x00300000 6 else s

/-- R481, R236: HZ_CTL and the hazard log of a stop. -/
def hazardRegister (a : Nat) : Bool :=
  match windowOf a with
  | some (_, off) => off == 0xF800 || off == 0xF80C || (decide (0xF840 ≤ off) && decide (off < 0xF8C0))
  | none => false

/-- R481: `lock`: a verification under way is discarded; debug mode ends. -/
def State.lockDebug (s : State) : State :=
  let s := if s.dbg.tok.isSome then
      ((s.modDbg fun d => { d with tok := none }).clrFlag 0x00330050 0).wf 0x00330050 1 3 6
    else s
  if s.flag 0x00330050 4 then
    let s := { s with regs := s.regs.filter fun e => !hazardRegister e.1, dbg := { s.dbg with hzOld := [] } }
    (((s.clrFlag 0x00330050 4).wf 0x00330050 5 2 0).clrFlag 0x00300000 6).newChallenge
  else s

/-- TOKEN_VERIFY (R480). -/
def execTokenVerify (obj : SignedObj) (body : TokenBody) (s : State) : Result :=
  .next (s.writeEffect 0x0033004C fun s => s.tokenGo obj body)

/-- TOKEN_VERIFY_COMPLETE (R480). -/
def execTokenVerifyComplete (s : State) : Result := .next s.tokenDone

/-- LOCK (R481). -/
def execLock (s : State) : Result := .next (s.writeEffect 0x0033004C State.lockDebug)

/-! ## Self-test -/

/-- R485: the steps of a domain. -/
def bistSteps (d : Nat) : List BistStep :=
  if d = dA ∨ d = dB then ((List.range 448).filter fun t => stopDomain t == d).map .stop
  else if d = dHbmA then (List.range 32).map .pc
  else if d = dHbmB then (List.range 32).map fun i => .pc (32 + i)
  else (List.range 16).map .line

def bistDoms (mask : Nat) : List Nat := [1, 2, 3, 4, 5].filter fun d => mask / 2 ^ d % 2 == 1

/-- R485: the test is refused. -/
def State.bistRefusal (s : State) (mask : Nat) : Option Nat :=
  if mask % 2 = 1 ∨ 64 ≤ mask then some 3
  else if (bistDoms mask).any fun d => !s.inRun d || s.loadedPipes.any fun p => (s.pipeDomains p).contains d then some 2
  else none

/-- R485, R486: the test ends. -/
def State.bistEnd (s : State) (status : Nat) : State :=
  ((s.modDbg fun d => { d with bist := [], bistBad := false, mask := 0 }).wf 0x00330104 1 3 status).clrFlag 0x00330104 0

/-- R485: `bist_go`. -/
def State.bistGo (s : State) : State :=
  if s.flag 0x00330104 0 ∨ !s.boot.started then s
  else
    let mask := s.rf 0x00330100 0 11
    match s.bistRefusal mask with
    | some st => s.wf 0x00330104 1 3 st
    | none =>
      let steps := (bistDoms mask).flatMap bistSteps
      let s := (bistDoms mask).foldl (fun s d => s.vote d 0) s
      let s := (s.modDbg fun d => { d with bist := steps, bistBad := false, mask := mask }).progress 2 0 steps.length
      if steps.isEmpty then s.bistEnd 0 else s.setFlag 0x00330104 0

/-- R485: a tested memory holds zeros, and a tile comes up as after reset. -/
def State.bistZero (s : State) : BistStep → State
  | .stop t =>
    let other (n e : Nat) : Bool := e / n != t
    let keep (a : Nat) : Bool := match windowOf a with
      | some (stop, off) => stop != t || decide (0xF000 ≤ off)
      | none => true
    { s with regs := s.regs.filter fun e => keep e.1
             pmem := s.pmem.filter fun e => other 4096 e.1
             sched := s.sched.filter fun e => other 1 e.1
             lq := s.lq.filter fun e => other 8 e.1
             mon := s.mon.filter fun e => other 8 e.1
             pair := s.pair.filter fun e => other 1 e.1
             at_ := s.at_.filter fun e => other 1 e.1
             mt := s.mt.filter fun e => other 1 e.1
             sft := s.sft.filter fun e => other 1 e.1
             eng := s.eng.filter fun e => other 1 e.1 }
  | .pc n =>
    let keep (a : Nat) : Bool := pseudoOf a != n
    { s with hbm := { bytes := s.hbm.bytes.filter fun e => keep e.1
                      ue := s.hbm.ue.filter fun w => keep (8 * w)
                      ce := s.hbm.ce.filter fun w => keep (8 * w) } }
  | .line _ => s

/-- R486, R487: a failed step is recorded in the next free place and marks its unit. A line buffer has no number of its own
there: the stop recorded is that of its ingest unit (log 18). -/
def State.bistFail (s : State) (b : BistStep) : State :=
  let w : Word := match b with
    | .stop t => BitVec.ofNat 32 t
    | .pc n => BitVec.ofNat 32 (2 ^ 9 + n * 2 ^ 10)
    | .line n => BitVec.ofNat 32 (unitStop .ing (n / 8))
  let k := s.rf 0x00330104 16 16
  let s := if k < 16 then s.wr (0x00330140 + 4 * k) w else s
  let s := s.count 0x00330104 16 16
  s.modDbg fun d =>
    let d := { d with bistBad := true }
    match b with
    | .stop t => { d with failed := t :: d.failed }
    | .pc n => { d with failedPc := n :: d.failedPc }
    | .line _ => d

/-- R485, R486: a step completes. -/
def State.bistStep (s : State) (failed : Bool) : State :=
  match s.dbg.bist with
  | [] => s
  | b :: rest =>
    let s := s.bistZero b
    let s := if failed then s.bistFail b else s
    let s := s.modDbg fun d => { d with bist := rest }
    let total := (s.rd 0x1024).toNat
    let s := s.progress 2 ((s.rd 0x1020).toNat + 1) total
    if rest.isEmpty then s.bistEnd (if s.dbg.bistBad then 1 else 0) else s

/-- BIST (R485). -/
def execBist (s : State) : Result := .next (s.writeEffect 0x00330100 State.bistGo)

/-- BIST_STEP (R486). -/
def execBistStep (failed : Bool) (s : State) : Result := .next (s.bistStep failed)

end Sys2Proof.Machine
end

