-- ==== Sys2Proof/Machine/Engines.lean ====
section
/-! DEFINITION. The Crozier and Sorus engines (R262 to R286): descriptors and jobs, credits and turns, first and last
layers. -/

namespace Sys2Proof.Machine

/-! ## Engine SRAM -/

/-- Bytes of engine SRAM; those of an uncorrectable word read as zeros (R266). -/
def Engine.get (e : Engine) (a n : Nat) : List Byte :=
  (List.range n).map fun i => if e.lmUe.contains ((a + i) / 8) then 0 else tget 0 e.sram (a + i)

/-- Bytes written to engine SRAM; a write of a word ends its error (log 6). -/
def Engine.put (e : Engine) (a : Nat) (bs : List Byte) : Engine :=
  let hit (w : Nat) : Bool := decide (a / 8 ≤ w) && decide (w < (a + bs.length + 7) / 8)
  let clean := (e.lmUe.filter hit).foldl (fun t w => putBytes t (8 * w) (List.replicate 8 0)) e.sram
  if bs.isEmpty then e
  else { e with sram := putBytes clean a bs, lmUe := e.lmUe.filter (fun w => !hit w), lmCe := e.lmCe.filter (fun w => !hit w) }

def Engine.word (e : Engine) (a : Nat) : Word := BitVec.ofNat 32 (leNat (e.get a 4))
def Engine.payload (e : Engine) (a : Nat) : Payload := payloadOf (e.get a 64)

/-- R266: a unit of a job reads ranges (address, length) of SRAM: errors met are counted once each; an uncorrectable one
sends a notice that names the job's pipeline and block. -/
def State.engTouch (s : State) (stop slot : Nat) (ranges : List (Nat × Nat)) : State :=
  let e := s.engAt stop
  let met (w : Nat) : Bool := ranges.any fun r => decide (r.1 / 8 ≤ w) && decide (w < (r.1 + r.2 + 7) / 8)
  let p := s.rf (jobReg stop slot 0) 1 6
  let t := (s.jobAt stop slot).tag
  let s := (e.lmCe.filter met).foldl (fun s w => (s.memCe .engine stop w).tally p 20) s
  (e.lmUe.filter met).foldl (fun s w =>
    (((s.memUe .engine stop w).tally p 21).notice stop .error p t).event 7 stop (t.elim 0 (·.toNat)) (some p)) s

/-! ## Jobs and descriptors -/

def State.jobValid (s : State) (stop slot : Nat) : Bool := isEngine stop && slot < 8 && s.flag (jobReg stop slot 0) 0
def State.jobRuns (s : State) (stop slot : Nat) : Bool :=
  s.jobValid stop slot && s.rf (jobReg stop slot 0) 30 2 == 1 && s.inRun (stopDomain stop)
def State.jobPipe (s : State) (stop slot : Nat) : Nat := s.rf (jobReg stop slot 0) 1 6
def State.jobCpy (s : State) (stop slot : Nat) : Nat := s.rf (jobReg stop slot 0) 7 1
def State.jobTagEpoch (s : State) (stop slot : Nat) : Tag := BitVec.ofNat 16 (s.rf (jobReg stop slot 4) 0 16)

/-- Descriptor number d of a job, as the copy has it (R285, log 22). -/
def State.descAt (s : State) (stop slot cpy d : Nat) : Payload :=
  match (s.jobAt stop slot).alt.find? fun x => x.1 == d && cpy == 1 with
  | some x => x.2
  | none => (s.engAt stop).payload (64 * d)

/-- The descriptor list from number d on (R262): (number, descriptor); at most n. -/
def State.descList (s : State) (stop slot cpy d : Nat) : Nat → List (Nat × Payload)
  | 0 => []
  | n + 1 =>
    let p := s.descAt stop slot cpy d
    let w9 := entryWord p 36
    (d, p) :: (if bitOf w9 14 then [] else s.descList stop slot cpy (bitsOf w9 0 14) n)

def State.jobDescs (s : State) (stop slot cpy : Nat) : List (Nat × Payload) :=
  s.descList stop slot cpy (s.rf (jobReg stop slot 0) 8 14) 16384

/-- A field of a descriptor: word, lowest bit, width. -/
def dsel (p : Payload) (w lo n : Nat) : Nat := bitsOf (entryWord p (4 * w)) lo n

/-- A Crozier descriptor (R272). -/
structure CzDesc where
  mode : Nat
  bayer : Bool
  bpat : Nat
  rawfmt : Nat
  cin : Nat
  kh : Nat
  kw : Nat
  st : Nat
  cout : Nat
  mon : Nat
  outSigned : Bool
  wide : Bool
  zpMode : Nat
  wIn : Nat
  h : Nat
  wOut : Nat
  padL : Nat
  padT : Nat
  padB : Nat
  cinl : Nat
  lq : Nat
  rt : Nat
  obj : Nat
  zpOut : Int
  qLo : Int
  qHi : Int
  zpA : Nat
  lim : Nat
  zpW : Nat
  wbase : Nat
  pbase : Nat
  lbase : Nat
  deriving DecidableEq, Repr

/-- The descriptor in a job's copy `cpy` of its parameters (R272, R285). -/
def czDesc (p : Payload) (cpy : Nat) : CzDesc :=
  let f := dsel p
  let sg := f 0 27 1 == 1
  { mode := f 0 0 3, bayer := f 0 3 1 == 1, bpat := f 0 4 2, rawfmt := f 0 6 2, cin := f 0 8 2 + 1, kh := f 0 10 3 + 1
    kw := f 0 13 3 + 1, st := 2 ^ f 0 16 2, cout := f 0 18 6 + 1, mon := f 0 24 3, outSigned := sg, wide := f 0 28 1 == 1
    zpMode := f 0 29 2, wIn := f 1 0 15, h := f 1 16 15, wOut := f 2 0 15, padL := f 2 15 3, padT := f 2 18 3, padB := f 2 21 3
    cinl := f 3 0 9 + 1, lq := f 3 9 3, rt := f 3 12 4, obj := f 3 16 16, zpOut := codeOf sg (f 4 0 8), qLo := codeOf sg (f 4 8 8)
    qHi := codeOf sg (f 4 16 8), zpA := f 4 24 8, lim := f 5 0 16, zpW := f 5 16 8, wbase := f 6 0 20
    pbase := f 7 0 20 + 0x2000 * cpy, lbase := f 8 0 20 }

/-- A Sorus descriptor (R284). -/
structure SorDesc where
  fn : Nat
  head : Bool
  na : Nat
  wide : Bool
  rot : Bool
  agnostic : Bool
  ownOnly : Bool
  ncls : Nat
  clsOff : Nat
  boxOff : Nat
  fSigned : Bool
  astride : Nat
  st : Nat
  lineScale : Nat
  keepMax : Nat
  scoreMin : Nat
  thr : Nat
  lqIn : Nat
  lqStamp : Nat
  rtCrop : Nat
  ring : Nat
  cropEn : Bool
  cropMask : Word
  lim : Nat
  obj : Nat
  x0 : Int
  xpitch : Nat
  pbase : Nat
  deriving DecidableEq, Repr

def sorDesc (p : Payload) (cpy : Nat) : SorDesc :=
  let f := dsel p
  { fn := f 0 0 3, head := f 0 3 1 == 1, na := f 0 4 2 + 1, wide := f 0 6 1 == 1, rot := f 0 7 1 == 1, agnostic := f 0 8 1 == 1
    ownOnly := f 0 9 1 == 1, ncls := f 0 10 5 + 1, clsOff := f 0 15 6, boxOff := f 0 21 6, fSigned := f 0 27 1 == 1
    astride := f 1 0 6, st := f 1 6 7, lineScale := 2 ^ f 1 13 2, keepMax := f 1 15 11, scoreMin := f 2 0 16, thr := f 2 16 16
    lqIn := f 3 0 3, lqStamp := f 3 3 3, rtCrop := f 3 6 4, ring := f 3 10 6, cropEn := f 3 16 1 == 1, cropMask := entryWord p 16
    lim := f 5 0 16, obj := f 5 16 16, x0 := int32 (entryWord p 24), xpitch := (entryWord p 28).toNat
    pbase := f 8 0 20 + 0x2000 * cpy }

/-! ## Input -/

/-- R163, R255, R285: a flit of the job's input: another tag starts a block, at which an armed update of its frame switches
the parameter copy. -/
def State.engBlock (s : State) (stop slot : Nat) (tag : Tag) : State :=
  let j := s.jobAt stop slot
  if j.tag = some tag then s
  else
    let j := { j with tag := some tag, ok := true, x := 0 }
    match j.armed with
    | some (f, ep) =>
      if f = tag.toNat / 4096 then
        let r := jobReg stop slot
        ((s.setJob stop slot { j with armed := none }).wf (r 0) 7 1 (1 - s.jobCpy stop slot)).wf (r 4) 16 8 ep
      else s.setJob stop slot j
    | none => s.setJob stop slot j

/-- R264: the flits of another epoch in a queue of the job are dropped and counted, wherever they stand (log 22). -/
def State.engShed (s : State) (stop slot q : Nat) : State :=
  let l := s.lqAt stop q
  let keep := l.q.filter fun f => f.epoch == s.jobTagEpoch stop slot
  let n := l.q.length - keep.length
  if n = 0 then s
  else (((s.setLq stop q { l with q := keep, pops := l.pops + n }).lqCredit stop q n).count (jobReg stop slot 0xC) 0 16 n).setFlag
    (reg stop 0x0200) 4

/-- R264, R224: the head flit leaves a landing queue; one of another epoch is dropped and answers none. -/
def State.engPop (s : State) (stop slot q : Nat) (input : Bool) : State × Option LFlit :=
  let l := s.lqAt stop q
  match l.q with
  | [] => (s, none)
  | f :: rest =>
    let s := (s.setLq stop q { q := rest, last := f, pops := l.pops + 1 }).lqCredit stop q 1
    if f.epoch ≠ s.jobTagEpoch stop slot then ((s.count (jobReg stop slot 0xC) 0 16).setFlag (reg stop 0x0200) 4, none)
    else
      let s := if input then s.engBlock stop slot f.tag else s
      if f.op = 2 then
        let s := s.count (reg stop (0x0408 + 16 * q)) 0 16
        (if input then s.setJob stop slot { s.jobAt stop slot with ok := false } else s, some f)
      else (s, some f)

/-- The flits of a landing queue that take part in a job's unit. -/
def State.engFlits (s : State) (stop slot q : Nat) : List LFlit :=
  (s.lqAt stop q).q.filter fun f => f.epoch == s.jobTagEpoch stop slot

/-! ## Credits and turns -/

/-- R264, R109: the value that a credit object must reach before n more flits go out for descriptor d. -/
def EJob.threshold (j : EJob) (d lim n : Nat) : Word := tget 0 j.sent d + BitVec.ofNat 32 n - BitVec.ofNat 32 lim

def EJob.mayFor (j : EJob) (d lim n : Nat) : Bool :=
  j.granted.contains d && waitHolds (tget 0 j.grant d) (j.threshold d lim n)

/-- R264, R153: the job asks for the credits that a descriptor lacks, unless a request of it is out or the engine has four. -/
def State.askCredit (s : State) (stop slot d obj lim n : Nat) : State :=
  let j := s.jobAt stop slot
  let out := ((s.engAt stop).jobs.filter fun e => e.2.wait.isSome).length
  if j.wait.isSome ∨ 4 ≤ out then s
  else
    let thr := j.threshold d lim n
    (s.setJob stop slot { j with wait := some (d, thr) }).sync1 (.wait obj thr stop slot)

/-- The flits that a unit sends, by descriptor: (number, object, limit, flits). -/
def State.unitSends (s : State) (stop slot : Nat) : List (Nat × Nat × Nat × Nat) :=
  if kindOf stop = .cz then
    (s.jobDescs stop slot (s.jobCpy stop slot)).map fun x =>
      let c := czDesc x.2 0
      (x.1, c.obj, c.lim, if c.mode = 0 then c.wOut else 1)
  else []

def State.creditsFor (s : State) (stop slot : Nat) : Bool :=
  (s.unitSends stop slot).all fun x => (s.jobAt stop slot).mayFor x.1 x.2.2.1 x.2.2.2

/-- Flits sent on a route for a descriptor; PUSH_EOP turns into PUSH_ABORT while the job's block is not good (R264). -/
def State.engSend (s : State) (stop slot d rt : Nat) (fs : List (Nat × Tag × Payload)) : State :=
  let j := s.jobAt stop slot
  let e := s.jobTagEpoch stop slot
  let s := s.setJob stop slot { j with sent := tput 0 j.sent d (tget 0 j.sent d + BitVec.ofNat 32 fs.length) }
  fs.foldl (fun s f => s.sendFlit stop rt (if f.1 = 1 ∧ !j.ok then 2 else f.1) f.2.1 e f.2.2 0) s

/-! ## First layers -/

def CzDesc.planes (d : CzDesc) : Nat := if d.bayer then 4 else d.cin
def CzDesc.planeH (d : CzDesc) : Nat := if d.bayer then d.h / 2 else d.h
def CzDesc.planeW (d : CzDesc) : Nat := if d.bayer then d.wIn / 2 else d.wIn
/-- R269: the output height. -/
def CzDesc.outH (d : CzDesc) : Nat :=
  if d.planeH + d.padT + d.padB < d.kh then 0 else (d.planeH + d.padT + d.padB - d.kh) / d.st + 1

/-- R267: plane at each phase, (0,0), (0,1), (1,0), (1,1). -/
def bayerPlanes (bpat : Nat) : List Nat := [[0, 1, 2, 3], [1, 0, 3, 2], [2, 3, 0, 1], [3, 2, 1, 0]].getD bpat []

/-- R267: samples of a line. -/
def samplesOf (rawfmt : Nat) : List Byte → List Nat
  | [] => []
  | [a] => [a.toNat]
  | a :: b :: r =>
    if rawfmt = 0 then a.toNat :: samplesOf rawfmt (b :: r)
    else min (a.toNat + 256 * b.toNat) (if rawfmt = 1 then 1023 else 4095) :: samplesOf rawfmt r

/-- R268: the operand of a pixel of plane c, and whether it was clamped. -/
def CzDesc.operand (d : CzDesc) (e : Engine) (c u : Nat) : Int × Bool :=
  let a := d.pbase + 512 + 8 * c
  let off := bitsOf (e.word a) 0 12
  let sc := e.word (a + 4)
  let r := rneShift (((u : Int) - off) * (bitsOf sc 0 16 : Int)) (bitsOf sc 16 6)
  if r < -255 then (-255, true) else if 255 < r then (255, true) else (r, false)

/-- R269: the SRAM byte of pixel `col` of row `row` of plane c: the line buffer at `lbase` holds kh + st rows of every plane, row r
standing in place r modulo kh + st, 2 bytes a pixel (log 22). -/
def CzDesc.pixelAt (d : CzDesc) (c row col : Nat) : Nat :=
  d.lbase + ((row % (d.kh + d.st) * d.planes + c) * d.planeW + col) * 2

/-- R262, R269: the bytes of the line buffer. -/
def CzDesc.bufBytes (d : CzDesc) : Nat := (d.kh + d.st) * d.planes * d.planeW * 2

/-- R267: the planes that a line of the camera feeds, each with its row and its samples. -/
def CzDesc.planesOf (d : CzDesc) (row : Nat) (px : List Nat) : List (Nat × Nat × List Nat) :=
  if d.bayer then (List.range 2).map fun i =>
      ((bayerPlanes d.bpat).getD (row % 2 * 2 + i) 0, row / 2, (List.range d.planeW).map fun x => px.getD (2 * x + i) 0)
  else (List.range d.cin).map fun c => (c, row, (List.range d.planeW).map fun x => px.getD (x * d.cin + c) 0)

/-- R269: a line enters a descriptor's line buffer. -/
def CzDesc.store (d : CzDesc) (e : Engine) (row : Nat) (px : List Nat) : Engine :=
  if d.mode ≠ 0 then e
  else (d.planesOf row px).foldl (fun e x => e.put (d.pixelAt x.1 x.2.1 0) (x.2.2.flatMap fun u => leBytes u 2)) e

/-- R268, R269: the tap at (y, x) of plane c: 0 for padding and for a line that never arrived. -/
def CzDesc.tap (d : CzDesc) (e : Engine) (r : RawIn) (c : Nat) (y x : Int) : Int :=
  if y < 0 ∨ (d.planeH : Int) ≤ y ∨ x < 0 ∨ (d.planeW : Int) ≤ x then 0
  else
    let row := if d.bayer then 2 * y.toNat + (bayerPlanes d.bpat).idxOf c / 2 else y.toNat
    if r.lines.contains row then (d.operand e c (leNat (e.get (d.pixelAt c y.toNat x.toNat) 2))).1 else 0

/-- The bias and the scale word of output k (R272). -/
def CzDesc.scale (d : CzDesc) (e : Engine) (k : Nat) : Int × Nat × Nat :=
  let sc := e.word (d.pbase + 8 * k + 4)
  (int32 (e.word (d.pbase + 8 * k)), bitsOf sc 0 16, bitsOf sc 16 6)

/-- R269: the sum of output k at (oy, ox). -/
def CzDesc.acc (d : CzDesc) (e : Engine) (r : RawIn) (k ox : Nat) : Int :=
  ((List.range d.planes).map fun c => ((List.range d.kh).map fun i => ((List.range d.kw).map fun j =>
    let w := int8 ((e.get (d.wbase + ((k * d.planes + c) * d.kh + i) * d.kw + j) 1).headD 0).toNat
    d.tap e r c ((r.oy * d.st + i : Nat) - (d.padT : Int)) ((ox * d.st + j : Nat) - (d.padL : Int)) * w).sum).sum).sum

def CzDesc.narrowFirst (d : CzDesc) (e : Engine) (r : RawIn) (k ox : Nat) : Narrowed :=
  let p := d.scale e k
  narrowAcc (d.acc e r k ox) false p.1 p.2.1 p.2.2 d.zpOut d.qLo d.qHi

/-- The lines [first, last] of the frame that output row oy takes (R269), none where every row is padding. -/
def CzDesc.linesOf (d : CzDesc) (oy : Nat) : Option (Nat × Nat) :=
  let lo := oy * d.st - d.padT
  let hi := min (oy * d.st + d.kh) (d.planeH + d.padT)
  if hi ≤ d.padT ∨ d.planeH ≤ lo then none
  else
    let last := hi - d.padT - 1
    some (if d.bayer then (2 * lo, 2 * last + 1) else (lo, last))

/-- The rows of the planes that output row oy takes. -/
def CzDesc.rowsFor (d : CzDesc) (oy : Nat) : List Nat :=
  (List.range d.kh).filterMap fun i =>
    if d.padT ≤ oy * d.st + i ∧ oy * d.st + i < d.planeH + d.padT then some (oy * d.st + i - d.padT) else none

/-- The ranges of SRAM that a unit reads beside descriptors: parameters, weights and, of FIRST, the line buffer for row oy. -/
def CzDesc.ranges (d : CzDesc) (oy : Nat) : List (Nat × Nat) :=
  if d.mode = 0 then
    [(d.pbase, 8 * d.cout), (d.pbase + 512, 8 * d.planes), (d.wbase, d.cout * d.planes * d.kh * d.kw)] ++
      (d.rowsFor oy).map fun y => (d.pixelAt 0 y 0, d.planes * d.planeW * 2)
  else [(d.pbase, 8 * d.cout), (d.wbase, d.cout * d.cinl)]

/-- R266: the descriptors that a job reads from SRAM, as ranges. -/
def State.descRanges (s : State) (stop slot cpy : Nat) : List (Nat × Nat) :=
  ((s.jobDescs stop slot cpy).filter fun d => !(cpy == 1 && (s.jobAt stop slot).alt.any fun x => x.1 == d.1)).map fun d => (64 * d.1, 64)

def State.czDescs (s : State) (stop slot : Nat) : List (Nat × CzDesc) :=
  let c := s.jobCpy stop slot
  (s.jobDescs stop slot c).map fun x => (x.1, czDesc x.2 c)

/-- The rows of a job's frame: those of its tallest descriptor. -/
def rowsOf (ds : List (Nat × CzDesc)) : Nat := ds.foldl (fun n d => max n d.2.outH) 0

/-- R263: the input of the next output row has come: every line that it takes has arrived, been passed, or will not come. -/
def rowReady (ds : List (Nat × CzDesc)) (r : RawIn) : Bool :=
  decide (r.oy < rowsOf ds) && (r.ended || ds.all fun d => decide (d.2.outH ≤ r.oy) || (match d.2.linesOf r.oy with
    | some l => decide (l.2 < r.latest)
    | none => true))

/-- R268, R286: lines that never arrive. -/
def State.lineGap (s : State) (stop slot n : Nat) : State :=
  if n = 0 then s else (s.count (jobReg stop slot 0xC) 16 16 n).setFlag (reg stop 0x0200) 3

/-- R268: the pixels of a line that are clamped. -/
def CzDesc.clamped (d : CzDesc) (e : Engine) (row : Nat) (px : List Nat) : Nat :=
  let n := if d.bayer then d.wIn else d.wIn * d.cin
  let plane (i : Nat) : Nat := if d.bayer then (bayerPlanes d.bpat).getD (row % 2 * 2 + i % 2) 0 else i % d.cin
  ((List.range n).filter fun i => (d.operand e (plane i) (px.getD i 0)).2).length

/-- A line has come whole. -/
def State.rawLine (s : State) (stop slot : Nat) (r : RawIn) (row : Nat) (bs : List Byte) : State :=
  let ds := s.czDescs stop slot
  let px := samplesOf ((ds.head?.map (·.2.rawfmt)).getD 0) bs
  let n := (ds.map fun d => d.2.clamped (s.engAt stop) row px).sum
  let s := if n = 0 then s else (s.count (reg stop 0x0204) 0 32 n).setFlag (reg stop 0x0200) 2
  let lines := if r.oy < rowsOf ds then r.lines ++ [row] else r.lines
  let s := s.setEng stop (ds.foldl (fun e d => d.2.store e row px) (s.engAt stop))
  s.setJob stop slot { s.jobAt stop slot with raw := some { r with lines := lines, latest := row + 1, part := none } }

/-- A flit of a line packet (R296): the header of a line, or 64 bytes of it. -/
def State.rawFlit (s : State) (stop slot : Nat) (f : LFlit) : State :=
  let w := payloadBytes f.payload
  let seq := leNat (w.take 4)
  let row := leNat ((w.drop 4).take 2)
  match (s.jobAt stop slot).raw.bind fun r => r.part.map fun p => (r, p) with
  | some (r, p) =>
    let bs := p.2 ++ w
    if f.op = 0 then s.setJob stop slot { s.jobAt stop slot with raw := some { r with part := some (p.1, bs) } }
    else s.rawLine stop slot r p.1 bs
  | none =>
    let fresh : RawIn := { frame := seq, lines := [], latest := 0, part := none, ended := false, oy := 0 }
    let r := match (s.jobAt stop slot).raw with
      | some r => if r.frame = seq then r else fresh
      | none => fresh
    let s := s.lineGap stop slot (row - r.latest)
    let r := { r with latest := max r.latest row }
    if f.op = 0 then s.setJob stop slot { s.jobAt stop slot with raw := some { r with part := some (row, []) } }
    else s.rawLine stop slot r row []

/-- The header of another frame than the one in progress stands at the head of the queue. -/
def State.otherFrame (s : State) (stop slot q : Nat) : Bool :=
  match (s.jobAt stop slot).raw, s.engFlits stop slot q with
  | some r, f :: _ => r.part.isNone && r.frame != leNat ((payloadBytes f.payload).take 4)
  | _, _ => false

/-- The job takes its input until a row is ready; the header of another frame ends the frame, and waits until its rows are
done. -/
def State.rawFeed (s : State) (stop slot q : Nat) : Nat → State
  | 0 => s
  | n + 1 =>
    let ds := s.czDescs stop slot
    let j := s.jobAt stop slot
    if j.raw.any (rowReady ds) then s
    else
      let h := (ds.head?.map (·.2.h)).getD 0
      match j.raw with
      | some r =>
        if s.otherFrame stop slot q ∧ !r.ended then
          ((s.lineGap stop slot (h - r.latest)).setJob stop slot { j with raw := some { r with ended := true } }).rawFeed stop slot q n
        else
          let x := s.engPop stop slot q true
          (match x.2 with
            | some f => x.1.rawFlit stop slot f
            | none => x.1).rawFeed stop slot q n
      | none =>
        let x := s.engPop stop slot q true
        (match x.2 with
          | some f => x.1.rawFlit stop slot f
          | none => x.1).rawFeed stop slot q n

/-- One output row of a descriptor (R269). -/
def State.rowOut (s : State) (stop slot : Nat) (r : RawIn) (d : Nat × CzDesc) : State :=
  if d.2.outH ≤ r.oy then s
  else
    let e := s.engAt stop
    let tag : Tag := BitVec.ofNat 16 (r.frame % 16 * 4096 + r.oy)
    let cells := (List.range d.2.wOut).map fun ox => (List.range d.2.cout).map fun k => d.2.narrowFirst e r k ox
    let s := s.monCount stop d.2.mon tag (s.jobTagEpoch stop slot) cells.flatten
    let fs := cells.zipIdx.map fun c =>
      (if c.2 + 1 = d.2.wOut then 1 else 0, tag, payloadOf (c.1.map fun n => byteOf n.y))
    s.engSend stop slot d.1 d.2.rt fs

/-- The lines that no later row of the frame takes go. -/
def RawIn.prune (r : RawIn) (ds : List (Nat × CzDesc)) : RawIn :=
  let need (l : Nat) : Bool := ds.any fun d => decide (r.oy < d.2.outH) && (match d.2.linesOf r.oy with
    | some x => decide (x.1 ≤ l)
    | none => true)
  { r with lines := r.lines.filter need }

/-- R263: the engine has completed a unit of the job. -/
def State.unitDone (s : State) (stop slot : Nat) : State :=
  (s.setEng stop { s.engAt stop with last := slot }).wrap (jobReg stop slot 8) 0 32

/-- R262, R269: a unit of a FIRST job. -/
def State.rowUnit (s : State) (stop slot : Nat) : State :=
  let ds := s.czDescs stop slot
  match (s.jobAt stop slot).raw with
  | none => s
  | some r =>
    let s := s.engTouch stop slot (s.descRanges stop slot (s.jobCpy stop slot) ++ ds.flatMap fun d => d.2.ranges r.oy)
    let s := ds.foldl (fun s d => s.rowOut stop slot r d) s
    let r := { r with oy := r.oy + 1 }
    (s.setJob stop slot { s.jobAt stop slot with raw := some (r.prune ds) }).unitDone stop slot

/-! ## Last layers -/

/-- R271: flits of an input position. -/
def posFlits (ds : List (Nat × CzDesc)) : Nat := ds.foldl (fun n d => max n ((d.2.cinl + 63) / 64)) 1

/-- Takes n flits of the job from its queue; fuel is the queue's level. -/
def State.takeFlits (s : State) (stop slot q n : Nat) : Nat → State × List LFlit
  | 0 => (s, [])
  | k + 1 =>
    if n = 0 then (s, [])
    else
      let x := s.engPop stop slot q true
      match x.2 with
      | none => x.1.takeFlits stop slot q n k
      | some f =>
        let r := x.1.takeFlits stop slot q (n - 1) k
        (r.1, f :: r.2)

/-- R271, R24: the signedness of a LAST job's input. No descriptor field gives it: a free value (log 22). -/
def lastSigned : Bool := Config.unstated 271 0 % 2 == 1

/-- R271, R24: output k of a position. -/
def CzDesc.narrowLast (d : CzDesc) (e : Engine) (input : List Byte) (k : Nat) : Narrowed :=
  let w (c : Nat) : Int := int8 ((e.get (d.wbase + k * d.cinl + c) 1).headD 0).toNat
  let acc := ((List.range d.cinl).map fun c =>
    operandA d.zpMode (codeOf lastSigned (input.getD c 0).toNat) (codeOf lastSigned d.zpA) * operandW d.zpMode (w c) (int8 d.zpW)).sum
  let p := d.scale e k
  if d.wide then narrowWide acc false p.1 p.2.1 p.2.2 else narrowAcc acc false p.1 p.2.1 p.2.2 d.zpOut d.qLo d.qHi

/-- The output of a descriptor of a LAST job. -/
def State.posOut (s : State) (stop slot : Nat) (tag : Tag) (op : Nat) (input : List Byte) (d : Nat × CzDesc) : State :=
  let e := s.engAt stop
  let rs := (List.range d.2.cout).map (d.2.narrowLast e input)
  let s := s.monCount stop d.2.mon tag (s.jobTagEpoch stop slot) rs
  let bs := rs.flatMap fun r => if d.2.wide then leBytes (r.y % 65536).toNat 2 else [byteOf r.y]
  s.engSend stop slot d.1 d.2.rt [(op, tag, payloadOf bs)]

/-- R262, R271: a unit of a LAST job. -/
def State.posUnit (s : State) (stop slot : Nat) : State :=
  let q := ((s.czDescs stop slot).head?.map (·.2.lq)).getD 0
  let n := posFlits (s.czDescs stop slot)
  let x := s.takeFlits stop slot q n (s.lqAt stop q).q.length
  let ds := x.1.czDescs stop slot
  let s := x.1.engTouch stop slot (x.1.descRanges stop slot (x.1.jobCpy stop slot) ++ ds.flatMap fun d => d.2.ranges 0)
  let input := x.2.flatMap fun f => payloadBytes f.payload
  let l := x.2.getLastD {}
  (ds.foldl (fun s d => s.posOut stop slot l.tag l.op input d) s).unitDone stop slot

end Sys2Proof.Machine
end

