-- ==== Sys2Proof/Machine/Polygons.lean ====
section
/-! DEFINITION. The geometry of boxes (R277 to R279): the rotation ROM, vertices, clipping, suppression. -/

namespace Sys2Proof.Machine

/-- a ÷ b rounded to the nearest integer, ties to even; 0 where b is 0. -/
def rneDiv (a b : Int) : Int :=
  let n := if b < 0 then -a else a
  let d : Int := b.natAbs
  if d = 0 then 0
  else
    let q := n / d
    let r := n - q * d
    if 2 * r > d ∨ (2 * r = d ∧ q % 2 = 1) then q + 1 else q

/-- π in units of 2^−64. -/
def piFix : Int := 57952155664616982739

/-- Terms of the cosine's series from term k on, in units of 2^−64; x2 is the square of the angle. -/
def cosTerms (x2 term : Int) (k : Nat) : Nat → Int
  | 0 => 0
  | n + 1 => term + cosTerms x2 (-(term * x2 / 2 ^ 64) / ((2 * k + 1 : Nat) * (2 * k + 2 : Nat) : Int)) (k + 1) n

/-- R277: rne(16,384 × cos(2πθ ÷ 1,024)) for θ from 0 to 256. -/
def cosQuarter (th : Nat) : Int :=
  let x := (th : Int) * piFix / 512
  rneShift (cosTerms (x * x / 2 ^ 64) (2 ^ 64) 0 16) 50

/-- R277: the ROM values C and S. -/
def romCos (th : Nat) : Int :=
  let t := th % 1024
  if t ≤ 256 then cosQuarter t else if t ≤ 512 then -cosQuarter (512 - t)
  else if t ≤ 768 then -cosQuarter (t - 512) else cosQuarter (1024 - t)

def romSin (th : Nat) : Int := romCos (th + 768)

abbrev Point := Int × Int

/-- R277: the vertices v0 to v3 of a box. -/
def Box.vertices (b : Box) : List Point :=
  let hw := rneShift b.w 1
  let hh := rneShift b.h 1
  let c := romCos b.th
  let s := romSin b.th
  let v (ex ey : Int) : Point := (b.cx + rneShift (ex * c - ey * s) 14, b.cy + rneShift (ex * s + ey * c) 14)
  [v hw hh, v (-hw) hh, v (-hw) (-hh), v hw (-hh)]

/-- The edges of a polygon, from each vertex to the next. -/
def edgesOf (ps : List Point) : List (Point × Point) := ps.zip (ps.drop 1 ++ ps.take 1)

/-- R278: the side of P on the edge from E0 to E1. -/
def sideOf (e : Point × Point) (p : Point) : Int :=
  (e.2.1 - e.1.1) * (p.2 - e.1.2) - (e.2.2 - e.1.2) * (p.1 - e.1.1)

/-- R278: a polygon clipped by an edge. -/
def clipBy (poly : List Point) (e : Point × Point) : List Point :=
  (edgesOf poly).flatMap fun x =>
    let p := x.1
    let q := x.2
    let dp := sideOf e p
    let dq := sideOf e q
    (if dp ≥ 0 then [p] else []) ++
      (if (dp ≥ 0) = (dq ≥ 0) then []
       else [(p.1 + rneDiv ((q.1 - p.1) * dp) (dp - dq), p.2 + rneDiv ((q.2 - p.2) * dp) (dp - dq))])

/-- Twice the area of a polygon; 0 for fewer than three vertices (R278). -/
def area2 (ps : List Point) : Nat :=
  if ps.length < 3 then 0
  else ((edgesOf ps).map fun (x : Point × Point) => x.1.1 * x.2.2 - x.2.1 * x.1.2).sum.natAbs

/-- R278: the boxes meet the suppression test. -/
def overlaps (thr : Nat) (a b : Box) : Bool :=
  let i2 : Int := area2 ((edgesOf b.vertices).foldl clipBy a.vertices)
  let u2 : Int := area2 a.vertices + area2 b.vertices - i2
  decide (u2 > 0) && decide (i2 * 65536 ≥ thr * u2)

/-- R279: a ranks before b. -/
def Box.before (a b : Box) : Bool := decide (b.score < a.score) || (a.score == b.score && decide (a.num ≤ b.num))

/-- R279: candidates in rank order to the boxes kept and the number that `keep_max` leaves. -/
def suppress (thr keepMax : Nat) (agnostic : Bool) (ranked : List Box) : List Box × Nat :=
  ranked.foldl (fun acc b =>
    if acc.1.any fun k => (agnostic || k.cls == b.cls) && overlaps thr k b then acc
    else if acc.1.length < keepMax then (acc.1 ++ [b], acc.2) else (acc.1, acc.2 + 1)) ([], 0)

end Sys2Proof.Machine
end

