-- ==== Sys2Proof/Machine/Sorus.lean ====
section
/-! DEFINITION. Sorus engines: candidates (R274, R275), regions (R276), stamps and coordinates (R280), records (R281 to
R283), notices. -/

namespace Sys2Proof.Machine

/-! ## Candidates -/

def State.sorDescs (s : State) (stop slot cpy : Nat) : List (Nat × SorDesc) :=
  (s.jobDescs stop slot cpy).map fun x => (x.1, sorDesc x.2 cpy)

/-- The job's first descriptor, whose fields hold for the job as a whole (log 22). -/
def State.sorHead (s : State) (stop slot cpy : Nat) : Nat × SorDesc :=
  ((s.sorDescs stop slot cpy).head?).getD (0, sorDesc 0 cpy)

/-- R274: field i of a flit; a code in the signedness given, a wide field as an INT16. -/
def SorDesc.field (d : SorDesc) (sg : Bool) (p : Payload) (i : Nat) : Int :=
  if d.wide then int16 (leNat [byteAt p (2 * i), byteAt p (2 * i + 1)]) else codeOf sg (byteAt p i).toNat

/-- R274: the least score of a candidate, in the format of a field. -/
def SorDesc.least (d : SorDesc) : Int := if d.wide then int16 d.scoreMin else codeOf d.fSigned d.scoreMin

/-- R274: score and class of anchor a. -/
def SorDesc.best (d : SorDesc) (p : Payload) (a : Nat) : Int × Nat :=
  let v (f : Nat) : Int := d.field d.fSigned p (d.clsOff + f + a * d.astride)
  ((List.range d.ncls).drop 1).foldl (fun acc f => if acc.1 < v f then (v f, f) else acc) (v 0, 0)

/-- R274: the signedness of a box field of one byte: unsigned under unsigned codes, as the worked example of R283 has it;
under signed codes the manual gives none: a free value (log 22). -/
def SorDesc.boxSigned (d : SorDesc) : Bool := d.fSigned && Config.unstated 274 0 % 2 == 1

/-- R274: box field f (dx, dy, tw, th, ta) of anchor a as a Q16.16 value. -/
def SorDesc.boxField (d : SorDesc) (e : Engine) (p : Payload) (a f : Nat) : Int :=
  let zp := int16 (leNat (e.get (d.pbase + 8 * f) 2))
  let sc := e.word (d.pbase + 8 * f + 4)
  let m : Int := bitsOf sc 0 16
  let s := bitsOf sc 16 6
  let raw := d.field d.boxSigned p (d.boxOff + f + a * d.astride)
  sat32 (if 16 ≤ s then rneShift ((raw - zp) * m) (s - 16) else (raw - zp) * m * 2 ^ (16 - s))

/-- R275: EXP, from the table T at `pbase` + 64. -/
def SorDesc.exp (d : SorDesc) (e : Engine) (x : Int) : Nat :=
  let t (i : Nat) : Nat := (e.word (d.pbase + 64 + 4 * i)).toNat
  let u := x + 8 * 65536
  if u < 0 then t 0
  else if 2 ^ 20 ≤ u then t 1024
  else
    let i := u.toNat / 1024
    let f := u.toNat % 1024
    let dif := (t (i + 1) + 2 ^ 32 - t i) % 2 ^ 32
    (t i + (rneShift ((dif * f : Nat) : Int) 10).toNat) % 2 ^ 32

/-- R275: the geometry of a candidate at cell (x, y). -/
def SorDesc.box (d : SorDesc) (e : Engine) (p : Payload) (a x y num : Nat) (best : Int × Nat) : Box :=
  let g := d.boxField e p a
  let st : Int := d.st
  let side (k : Nat) : Nat := if d.head then leNat (e.get (d.pbase + 40 + 4 * a + 2 * k) 2) else d.st * 16
  let size (f k : Nat) : Nat := min (rneShift ((d.exp e (g f) * side k : Nat) : Int) 16).toNat 0xFFFFFF
  { num := num, score := best.1, cls := best.2
    cx := rneShift (((x : Int) * 65536 + 32768 + g 0) * st) 12
    cy := rneShift (((y : Int) * 65536 + 32768 + g 1) * st) 12
    w := size 2 0, h := size 3 1
    th := if d.rot then (rneShift (g 4) 6 % 1024).toNat else 0 }

/-- R274, R276: the candidates of one flit join their region; those beyond 8,192 are counted. -/
def SorDesc.decode (d : SorDesc) (e : Engine) (p : Payload) (x y : Nat) (r : Region) : Region :=
  (List.range d.na).foldl (fun r a =>
    let b := d.best p a
    if b.1 < d.least then r
    else if 8192 ≤ r.decoded then { r with surplus := r.surplus + 1 }
    else { r with boxes := r.boxes ++ [d.box e p a x y r.decoded b], decoded := r.decoded + 1 }) r

/-- The parameter ranges that a unit of DETECT reads. -/
def SorDesc.ranges (d : SorDesc) : List (Nat × Nat) := [(d.pbase, 64 + 4 * 1025)]

/-- R266: the ranges of SRAM that a unit of DETECT or PASS reads. -/
def State.sorRanges (s : State) (stop slot : Nat) : List (Nat × Nat) :=
  let c := s.jobCpy stop slot
  s.descRanges stop slot c ++ (s.sorDescs stop slot c).flatMap fun d => if d.2.fn = 0 then d.2.ranges else []

/-! ## Regions -/

/-- R276: the flit's frame has a region, or opens one. -/
def State.openRegion (s : State) (stop slot : Nat) (tag : Tag) : State :=
  let j := s.jobAt stop slot
  let f := tag.toNat / 4096
  let has := match j.regions.getLast? with
    | some r => r.frame == f && r.closed.isNone
    | none => false
  if has then s
  else
    let r : Region := { frame := f, epoch := s.jobTagEpoch stop slot, cfgEpoch := s.rf (jobReg stop slot 4) 16 8, boxes := []
                        decoded := 0, surplus := 0, cpy := s.jobCpy stop slot, closed := none, kept := [], left := 0, pFirst := 0
                        pNext := 0, next := 0, fl := 0 }
    s.setJob stop slot { j with regions := j.regions ++ [r] }

/-- A flit of DETECT: its position is the job's; the candidates join the newest region. -/
def State.detectFlit (s : State) (stop slot : Nat) (f : LFlit) : State :=
  let s := s.openRegion stop slot f.tag
  let j := s.jobAt stop slot
  match j.regions.getLast? with
  | none => s
  | some r =>
    let ds := s.sorDescs stop slot r.cpy
    let e := s.engAt stop
    let r2 := ds.foldl (fun r d => d.2.decode e f.payload j.x (f.tag.toNat % 4096) r) r
    let s := s.setJob stop slot { j with x := j.x + 1, regions := j.regions.dropLast ++ [r2] }
    let s := if r2.decoded = r.decoded then s else s.count (reg stop 0x0204) 0 32 (r2.decoded - r.decoded)
    if r2.surplus = r.surplus then s else s.setFlag (reg stop 0x0200) 2

/-- A region of the job is closing: it is open and not the newest (R263). -/
def EJob.closing (j : EJob) : Bool := j.regions.dropLast.any fun r => r.closed.isNone

/-! ## Stamps -/

/-- R280: a stamp packet. -/
def stampOf (ps : List Payload) : Stamp :=
  let h := ps.headD 0
  { frame := (entryWord h 0).toNat % 65536 / 4096, camera := (byteAt h 4).toNat % 32, lines := bitsOf (entryWord h 4) 16 16
    time := (entryW64 h 8).toNat, status := (entryWord h 16).toNat
    marks := (ps.drop 1).flatMap fun p => (List.range 16).map fun i => entryWord p (4 * i) }

/-- R280: the stamp packets that have come. -/
def State.takeStamps (s : State) (stop slot q : Nat) : Nat → State
  | 0 => s
  | n + 1 =>
    let x := s.engPop stop slot q false
    (match x.2 with
      | none => x.1
      | some f =>
        let j := x.1.jobAt stop slot
        let ps := j.stampIn ++ [f.payload]
        x.1.setJob stop slot (if f.op = 0 then { j with stampIn := ps }
          else if f.op = 1 then { j with stampIn := [], stamps := j.stamps ++ [stampOf ps] }
          else { j with stampIn := [] })).takeStamps stop slot q n

def State.stamps (s : State) (stop slot : Nat) : State :=
  let q := (s.sorHead stop slot (s.jobCpy stop slot)).2.lqStamp
  s.takeStamps stop slot q (s.lqAt stop q).q.length

def EJob.stampFor (j : EJob) (frame : Nat) : Option Stamp := j.stamps.find? fun x => x.frame == frame

/-- The number of stamps that the marks of a stamp hold beside the last line's. -/
def Stamp.segs (t : Stamp) : Nat := (t.lines + 63) / 64

/-- R280: s256 of a line coordinate in 1/16 line. A segment without lines is the one before it, or a point (log 22). -/
def Stamp.s256 (t : Stamp) (l16 : Int) : Int :=
  let m := t.segs
  let lastSpan := t.lines - 1 - 64 * (m - 1)
  let segs := if lastSpan = 0 then m - 1 else m
  let k := min (l16 / 1024).toNat (segs - 1)
  let n := if k + 1 = m then lastSpan else 64
  let p (i : Nat) : Word := if i < m then t.marks.getD i 0 else t.marks.getD m 0
  if segs = 0 then int32 (p 0) * 256
  else int32 (p k) * 256 + rneDiv (((p (k + 1) - p k).toNat : Int) * 256 * (l16 - 1024 * k)) (16 * n)

/-- R276: the window [p_first, p_next) of a frame: the next frame's first line as its stamp or its camera has it; a free
value where neither does, or the frame has no stamp (log 22). -/
def State.window276 (s : State) (stop slot frame : Nat) : Word × Word :=
  let j := s.jobAt stop slot
  let free (k : Nat) : Word := BitVec.ofNat 32 (Config.unstated 276 (2 * s.free + k))
  match j.stampFor frame with
  | none => (free 0, free 1)
  | some t =>
    let f := (frame + 1) % 16
    let c := tget {} s.ingest.cams t.camera
    let next := match j.stampFor f with
      | some u => u.marks.headD 0
      | none => match (c.ended ++ c.frames).find? fun g => g.seq % 16 == f && g.idx != 0 with
        | some g => g.p0
        | none => free 1
    (t.marks.headD 0, next)

/-- R276: the position of a box's centre lies in the window; every position does where the frame has no stamp. -/
def inWindow (t : Option Stamp) (lineScale : Nat) (first next : Word) (b : Box) : Bool :=
  match t with
  | none => true
  | some t => (BitVec.ofInt 32 (t.s256 (b.cy * lineScale) / 256) - first).toNat < (next - first).toNat

/-- R276, R279: the oldest open region closes: it is not the newest, or the job has stopped. -/
def State.regionClose (s : State) (stop slot : Nat) : State :=
  let s := s.stamps stop slot
  let j := s.jobAt stop slot
  let p := s.jobPipe stop slot
  let ended := s.rf (jobReg stop slot 0) 30 2 == 2 && ((s.pipeAt p).phase == 1 || s.pstate p == psStopped)
  match j.regions.find? fun r => r.closed.isNone with
  | none => s
  | some r =>
    if !(j.closing || ended) then s
    else
      let d := (s.sorHead stop slot r.cpy).2
      let w := s.window276 stop slot r.frame
      let s := s.bump
      let cand := if d.ownOnly then r.boxes.filter (inWindow (j.stampFor r.frame) d.lineScale w.1 w.2) else r.boxes
      let k := suppress d.thr d.keepMax d.agnostic (cand.mergeSort Box.before)
      let r2 := { r with boxes := [], closed := some s.ck, kept := k.1, left := k.2, pFirst := w.1, pNext := w.2 }
      let s := s.setJob stop slot { j with regions := j.regions.map fun x => if x = r then r2 else x }
      if k.2 = 0 then s else s.setFlag (reg stop 0x0200) 3

/-! ## Records -/

/-- R283: the flags of a frame's records, in word 0. -/
def State.recFlags (s : State) (stop slot frame : Nat) : Nat :=
  let p := s.jobPipe stop slot
  let j := s.jobAt stop slot
  let has (k : NoticeKind) : Bool := j.notices.any fun n => n.kind == k && n.tag.any fun t => t.toNat / 4096 == frame
  let lossy := (j.stampFor frame).any fun t => t.status % 4 != 0 || t.status / 65536 != 0
  let re := (s.pipeAt p).update.any fun u => (frame + 16 - u.frame % 16) % 16 < 8
  2 ^ 16 * boolNat (has .error) + 2 ^ 17 * boolNat (has .skew) + 2 ^ 18 * boolNat lossy + 2 ^ 19 * boolNat (has .overwrite) +
    2 ^ 20 * boolNat (has .overwrite || s.pstate p == psCrust) + 2 ^ 21 * boolNat re + 2 ^ 22 * boolNat (s.flag 0x0050800C 0)

/-- R276, R279, R280: the flags that a region carries beside. -/
def Region.flags (r : Region) (t : Option Stamp) : Nat :=
  2 ^ 23 * boolNat (r.surplus != 0) + 2 ^ 24 * boolNat (r.left != 0) + 2 ^ 25 * boolNat t.isNone

/-- The common words of a record (R283). -/
def recHead (typ pipe flags : Nat) (epoch : Tag) (cfg frame time seq : Nat) : List Byte :=
  leBytes (typ + pipe * 256 + flags) 4 ++ leBytes (epoch.toNat + cfg * 2 ^ 16 + frame % 16 * 2 ^ 24) 4 ++ leBytes time 8 ++
    leBytes seq 4

/-- The little-endian bytes of an integer taken modulo its width. -/
def leInt (v : Int) (n : Nat) : List Byte := leBytes (v % (2 ^ (8 * n) : Nat)).toNat n

/-- R283: the type 1 record of box i. -/
def type1 (pipe flags : Nat) (r : Region) (t : Option Stamp) (d : SorDesc) (regSeq recSeq i : Nat) (b : Box) : Payload :=
  let s256 : Int := t.elim 0 fun t => t.s256 (b.cy * d.lineScale)
  let xum : Int := if t.isNone then 0 else d.x0 + rneDiv (b.cx * d.xpitch) 16000
  payloadOf (recHead 1 pipe flags r.epoch r.cfgEpoch r.frame (t.elim 0 (·.time)) regSeq ++
    leBytes (i % 2 ^ 16 + b.cls * 2 ^ 16 + boolNat d.rot * 2 ^ 21 + b.th * 2 ^ 22) 4 ++ leInt b.cx 4 ++ leInt b.cy 4 ++
    leBytes b.w 4 ++ leBytes b.h 4 ++ leInt s256 5 ++ leBytes (t.elim 0 (·.camera)) 1 ++ leInt b.score 2 ++ leInt xum 4 ++
    leBytes 0 4 ++ leBytes recSeq 4 ++ leBytes 0 4)

/-- R283: the type 2 record of a region. -/
def type2 (pipe flags : Nat) (r : Region) (t : Option Stamp) (regSeq recSeq : Nat) : Payload :=
  payloadOf (recHead 2 pipe flags r.epoch r.cfgEpoch r.frame (t.elim 0 (·.time)) regSeq ++ leBytes r.kept.length 4 ++
    leBytes r.pFirst.toNat 4 ++ leBytes r.pNext.toNat 4 ++ leBytes 0 8 ++ leBytes 0 5 ++ leBytes (t.elim 0 (·.camera)) 1 ++
    leBytes r.decoded 2 ++ leBytes r.surplus 4 ++ leBytes r.left 4 ++ leBytes recSeq 4 ++ leBytes 0 4)

/-- R283: a type 4 record: bytes 0 to 31 of the packet's first flit stand at 0x18. -/
def type4 (pipe flags : Nat) (epoch : Tag) (cfg frame time seq recSeq : Nat) (p : Payload) : Payload :=
  payloadOf (recHead 4 pipe flags epoch cfg frame time seq ++ leBytes 0 4 ++ (payloadBytes p).take 32 ++ leBytes recSeq 4 ++
    leBytes 0 4)

/-- R282, R286: SOR_RECBUF shows how many records an engine holds. -/
def State.showRecs (s : State) (stop : Nat) : State := s.wf (reg stop 0x0210) 0 9 (s.engAt stop).recs.length

/-- R282: a record enters the engine's buffer; `rec_lost` is reported by the next one written. -/
def State.pushRec (s : State) (stop slot ring : Nat) (kept : Bool) (data : Payload) : State :=
  let e := s.engAt stop
  let s := s.setEng stop { e with recs := e.recs ++ [{ slot := slot, kept := kept, ring := ring, data := data }] }
  let j := s.jobAt stop slot
  (s.setJob stop slot { j with lostRec := false, recSeq := (j.recSeq + 1) % 2 ^ 32 }).showRecs stop

def Engine.room (e : Engine) : Bool := (e.recs.filter fun r => !r.kept).length < 240

def lostBit (j : EJob) : Nat := 2 ^ 26 * boolNat j.lostRec

/-- R282: a type 1 or type 4 record, `mk` being it for given flags: written, or dropped and counted. -/
def State.emitRec (s : State) (stop slot ring key : Nat) (flags : Nat) (mk : Nat → Payload) : State :=
  let j := s.jobAt stop slot
  if (s.engAt stop).room then (s.pushRec stop slot ring false (mk (flags + lostBit j))).tally (s.jobPipe stop slot) key
  else
    ((s.setJob stop slot { j with lostRec := true }).count (jobReg stop slot 0xC) 16 16).tally (s.jobPipe stop slot) 14

/-- Changes the oldest region. -/
def State.modRegion (s : State) (stop slot : Nat) (f : Region → Region) : State :=
  let j := s.jobAt stop slot
  s.setJob stop slot { j with regions := match j.regions with
    | [] => []
    | r :: rs => f r :: rs }

/-- R281: the type 1 records of a region, from the next box on, with their crop requests; a request that lacks credit stops
here. -/
def State.boxRecords (s : State) (stop slot : Nat) (r : Region) : Nat → State
  | 0 => s
  | n + 1 =>
    let p := s.jobPipe stop slot
    let j := s.jobAt stop slot
    let d := s.sorHead stop slot r.cpy
    let i := ((j.regions.head?).map (·.next)).getD 0
    match r.kept[i]? with
    | none => s
    | some b =>
      let crop := d.2.cropEn && bitOf d.2.cropMask b.cls
      if crop && !j.mayFor d.1 d.2.lim 1 then s.askCredit stop slot d.1 d.2.obj d.2.lim 1
      else
        let t := j.stampFor r.frame
        let fl := s.recFlags stop slot r.frame + r.flags t
        let mk (f : Nat) : Payload := type1 p f r t d.2 j.regSeq j.recSeq i b
        let s := s.modRegion stop slot fun x => { x with next := x.next + 1, fl := x.fl ||| (fl + lostBit j) }
        let s := s.emitRec stop slot d.2.ring 10 fl mk
        let s := if crop then
            s.engSend stop slot d.1 d.2.rtCrop [(1, BitVec.ofNat 16 (r.frame % 16 * 4096 + i % 4096), mk (fl + lostBit j))]
          else s
        s.boxRecords stop slot r n

/-- A frame number of a window of 8 that ends before frame f. -/
def olderFrame (f g : Nat) : Bool := let d := (f + 16 - g % 16) % 16; decide (1 ≤ d) && decide (d ≤ 8)

/-- Notices and stamps of frames before f are forgotten, and notices that name no frame (log 22). -/
def EJob.since (j : EJob) (f : Nat) : EJob :=
  { j with notices := j.notices.filter fun n => n.tag.any fun t => !olderFrame f (t.toNat / 4096)
           stamps := j.stamps.filter fun x => !olderFrame f x.frame }

/-- A region's records are written: its notices and its stamp are used. -/
def EJob.usedFrame (j : EJob) (f : Nat) : EJob :=
  let j := j.since f
  { j with notices := j.notices.filter fun n => n.tag.any fun t => t.toNat / 4096 != f
           stamps := j.stamps.filter fun x => x.frame != f
           regions := j.regions.drop 1
           regSeq := (j.regSeq + 1) % 2 ^ 32 }

/-- R281: the records of the oldest region, G cycles after it closed. -/
def State.regionRecords (s : State) (stop slot : Nat) : State :=
  let s := s.stamps stop slot
  let p := s.jobPipe stop slot
  match (s.jobAt stop slot).regions with
  | [] => s
  | r :: _ =>
    match r.closed with
    | none => s
    | some c =>
      if s.ck < c + s.gap p then s
      else
        let t := (s.jobAt stop slot).stampFor r.frame
        let s := if t.isNone then s.setFlag (reg stop 0x0200) 5 else s
        let s := s.boxRecords stop slot r (r.kept.length - r.next)
        let j := s.jobAt stop slot
        let next := (j.regions.head?.map (·.next)).getD 0
        let made := j.regions.head?.elim 0 (·.fl)
        let e := s.engAt stop
        if next < r.kept.length ∨ (!e.room ∧ 256 ≤ e.recs.length) then s
        else
          let d := (s.sorHead stop slot r.cpy).2
          let fl := (s.recFlags stop slot r.frame + r.flags t + lostBit j) ||| made
          let s := (s.pushRec stop slot d.ring (!e.room) (type2 p fl r t j.regSeq j.recSeq)).tally p 11
          s.setJob stop slot ((s.jobAt stop slot).usedFrame r.frame)

/-- R282: a region whose type 2 record waits for a free entry. -/
def State.recStuck (s : State) (stop slot : Nat) : Bool :=
  let e := s.engAt stop
  match (s.jobAt stop slot).regions with
  | r :: _ => r.closed.any (fun c => decide (c + s.gap (s.jobPipe stop slot) ≤ s.ck)) && decide (r.kept.length ≤ r.next) &&
      !e.room && decide (256 ≤ e.recs.length)
  | [] => false

/-! ## Units -/

/-- R263: the engine is kept by a region that is closing, or by a type 2 record. -/
def State.engKept (s : State) (stop : Nat) : Bool :=
  (List.range 8).any fun k => (s.jobAt stop k).closing || s.recStuck stop k

/-- The landing queue of a job's input. -/
def State.jobLq (s : State) (stop slot : Nat) : Nat :=
  if kindOf stop = .cz then ((s.czDescs stop slot).head?.map (·.2.lq)).getD 0 else (s.sorHead stop slot (s.jobCpy stop slot)).2.lqIn

/-- R263: the landing queue holds the flits of a whole unit: an input block of more than 32 flits is taken as it comes
(log 22). -/
def State.inputReady (s : State) (stop slot : Nat) : Bool :=
  let q := s.jobLq stop slot
  let fs := s.engFlits stop slot q
  if kindOf stop = .cz then
    let ds := s.czDescs stop slot
    match ds with
    | [] => false
    | d :: _ => if d.2.mode = 0 then (s.jobAt stop slot).raw.any (rowReady ds) else decide (posFlits ds ≤ fs.length)
  else !fs.isEmpty && ((s.jobAt stop slot).inUnit || fs.any (fun f => f.op != 0) || decide (32 ≤ (s.lqAt stop q).q.length))

def State.unitReady (s : State) (stop slot : Nat) : Bool :=
  s.jobRuns stop slot && s.inputReady stop slot && s.creditsFor stop slot

/-- R263: the job within a unit of which the engine is. -/
def State.midUnit (s : State) (stop : Nat) : Option Nat :=
  (List.range 8).find? fun k => s.jobRuns stop k && (s.jobAt stop k).inUnit

/-- R263: the ready job that the engine takes next; no job is interrupted within a unit. -/
def State.nextJob (s : State) (stop : Nat) : Option Nat :=
  (s.midUnit stop).orElse fun _ => ((List.range 8).map fun k => ((s.engAt stop).last + 1 + k) % 8).find? fun k => s.unitReady stop k

/-- R263, R264: a unit of the job where its input has come: run in its turn, or its credits are asked for. -/
def State.inTurn (s : State) (stop slot : Nat) (unit : State → State) : State :=
  if !s.jobRuns stop slot then s
  else
    let s := s.engShed stop slot (s.jobLq stop slot)
    if !s.inputReady stop slot then s
    else
      match (s.unitSends stop slot).find? fun x => !(s.jobAt stop slot).mayFor x.1 x.2.2.1 x.2.2.2 with
      | some x => s.askCredit stop slot x.1 x.2.1 x.2.2.1 x.2.2.2
      | none => if s.nextJob stop = some slot ∧ !s.engKept stop then unit s else s

/-- Takes flits of a block, at most n of them, each by `f`; answers whether it came to the end of the packet. -/
def State.takeBlock (s : State) (stop slot q : Nat) (f : State → LFlit → State) : Nat → State × Bool
  | 0 => (s, false)
  | n + 1 =>
    let x := s.engPop stop slot q true
    match x.2 with
    | none => x.1.takeBlock stop slot q f n
    | some l => if l.op = 0 then (f x.1 l).takeBlock stop slot q f n else (f x.1 l, true)

/-- The unit of a job whose block comes in parts goes on, or is completed. -/
def State.unitEnd (s : State) (stop slot : Nat) (ended : Bool) : State :=
  let s := s.setJob stop slot { s.jobAt stop slot with inUnit := !ended }
  if ended then s.unitDone stop slot else s

/-- R262, R274: a unit of a DETECT job. -/
def State.detectUnit (s : State) (stop slot : Nat) : State :=
  let q := s.jobLq stop slot
  let x := s.takeBlock stop slot q (fun s f => s.detectFlit stop slot f) (s.lqAt stop q).q.length
  let s := if (s.jobAt stop slot).inUnit then x.1 else x.1.engTouch stop slot (x.1.sorRanges stop slot)
  s.unitEnd stop slot x.2

/-- A flit of PASS: the first of its packet is kept. -/
def State.passFlit (s : State) (stop slot : Nat) (f : LFlit) : State :=
  let j := s.jobAt stop slot
  if j.head.isSome then s else s.setJob stop slot { j with head := some f.payload }

/-- R283: a PASS job has no regions; its region sequence counts the frames of its packets (log 22). -/
def EJob.passFrame (j : EJob) (old : Option Tag) (frame : Nat) : EJob :=
  if old.any fun t => t.toNat / 4096 != frame then { j with regSeq := (j.regSeq + 1) % 2 ^ 32 } else j

/-- R280, R283: the record of a PASS job's packet, of which the last flit has come. -/
def State.passRecord (s : State) (stop slot : Nat) : State :=
  let j := s.jobAt stop slot
  let frame := (j.tag.getD 0).toNat / 4096
  let miss := (j.stampFor frame).isNone
  let s := if miss then s.setFlag (reg stop 0x0200) 5 else s
  let fl := s.recFlags stop slot frame + 2 ^ 25 * boolNat miss
  let mk (f : Nat) : Payload :=
    type4 (s.jobPipe stop slot) f (s.jobTagEpoch stop slot) (s.rf (jobReg stop slot 4) 16 8) frame ((j.stampFor frame).elim 0 (·.time))
      j.regSeq j.recSeq (j.head.getD 0)
  let s := s.emitRec stop slot (s.sorHead stop slot (s.jobCpy stop slot)).2.ring 13 fl mk
  s.setJob stop slot { (s.jobAt stop slot).since frame with head := none }

/-- R283: a unit of a PASS job: its packet's record. -/
def State.passUnit (s : State) (stop slot : Nat) : State :=
  let s := s.stamps stop slot
  let old := (s.jobAt stop slot).tag
  let q := s.jobLq stop slot
  let x := s.takeBlock stop slot q (fun s f => s.passFlit stop slot f) (s.lqAt stop q).q.length
  let s := if (s.jobAt stop slot).inUnit then x.1 else x.1.engTouch stop slot (x.1.sorRanges stop slot)
  let j := s.jobAt stop slot
  let s := s.setJob stop slot (j.passFrame old ((j.tag.getD 0).toNat / 4096))
  (if x.2 then s.passRecord stop slot else s).unitEnd stop slot x.2

/-- R281: an engine that a notice has reached delivers it to its jobs of the pipeline. -/
def State.noticeArrives (s : State) (k : Nat) : State :=
  match takeAt s.notices k with
  | none => s
  | some (n, rest) =>
    let s := { s with notices := rest }
    ((s.jobsOf n.pipe).filter fun j => j.1 = n.dst).foldl (fun s j =>
      let x := s.jobAt j.1 j.2
      s.setJob j.1 j.2 { x with notices := x.notices ++ [n] }) s

/-- R417: a record of an engine reaches HST's staging buffer. -/
def State.recMove (s : State) (stop : Nat) : State :=
  let e := s.engAt stop
  match e.recs with
  | [] => s
  | r :: rest => if s.stageRoom then ((s.setEng stop { e with recs := rest }).stageRec r.ring r.data).showRecs stop else s

end Sys2Proof.Machine
end

