-- ==== Sys2Proof/Machine/EngineCommands.lean ====
section
/-! DEFINITION. The meanings of the engines' commands (R262 to R285) and of the arrival of sync replies (R148). A command whose
condition does not hold changes nothing (log 2). -/

namespace Sys2Proof.Machine

/-- R264: the reply to a job's wait: the credits that it asked for are there. -/
def State.engReply (s : State) (stop slot : Nat) : State :=
  let j := s.jobAt stop slot
  match j.wait with
  | none => s
  | some (d, thr) =>
    let granted := if j.granted.contains d then j.granted else j.granted ++ [d]
    s.setJob stop slot { j with wait := none, grant := tput 0 j.grant d thr, granted := granted }

/-- R148, R153: the k-th reply reaches the tile or the engine that asked. -/
def State.replyArrives (s : State) (k : Nat) : State :=
  match takeAt s.sync.replies k with
  | none => s
  | some (r, rest) =>
    if r.ack || !s.replyReady k then s
    else
      let s := { s with sync := { s.sync with replies := rest } }
      if isEngine r.stop then s.engReply r.stop r.slot else s.syncReplyAt r

/-- SYNC_REPLY (R148). -/
def execSyncReply (k : Nat) (s : State) : Result := .next (s.replyArrives k)

/-- NOTICE (R281). -/
def execNotice (k : Nat) (s : State) : Result := .next (s.noticeArrives k)

/-- R267: the mode of a Crozier job, by its first descriptor. -/
def State.czMode (s : State) (stop slot : Nat) : Nat := ((s.czDescs stop slot).head?.map (·.2.mode)).getD 0
def State.sorFn (s : State) (stop slot : Nat) : Nat := (s.sorHead stop slot (s.jobCpy stop slot)).2.fn

def State.isJob (s : State) (k : Kind) (stop slot : Nat) : Bool := s.jobValid stop slot && kindOf stop == k

/-- R262, R269: a FIRST job takes its lines, and runs an output row in its turn. -/
def State.firstStep (s : State) (stop slot : Nat) : State :=
  let q := ((s.czDescs stop slot).head?.map (·.2.lq)).getD 0
  let s := if s.jobRuns stop slot then s.rawFeed stop slot q ((s.lqAt stop q).q.length + 2) else s
  s.inTurn stop slot fun s => s.rowUnit stop slot

/-- CROZIER_FIRST (R269). -/
def execCrozierFirst (stop slot : Nat) (s : State) : Result :=
  .next (if s.isJob .cz stop slot ∧ s.czMode stop slot = 0 then s.firstStep stop slot else s)

/-- CROZIER_LAST (R271). -/
def execCrozierLast (stop slot : Nat) (s : State) : Result :=
  .next (if s.isJob .cz stop slot ∧ s.czMode stop slot = 1 then s.inTurn stop slot fun s => s.posUnit stop slot else s)

/-- SORUS_DETECT (R274). -/
def execSorusDetect (stop slot : Nat) (s : State) : Result :=
  .next (if s.isJob .sor stop slot ∧ s.sorFn stop slot = 0 then s.inTurn stop slot fun s => s.detectUnit stop slot else s)

/-- SORUS_PASS (R283). -/
def execSorusPass (stop slot : Nat) (s : State) : Result :=
  .next (if s.isJob .sor stop slot ∧ s.sorFn stop slot = 1 then s.inTurn stop slot fun s => s.passUnit stop slot else s)

/-- REGION_CLOSE (R279). -/
def execRegionClose (stop slot : Nat) (s : State) : Result :=
  .next (if s.isJob .sor stop slot then s.regionClose stop slot else s)

/-- REGION_RECORDS (R281). -/
def execRegionRecords (stop slot : Nat) (s : State) : Result :=
  .next (if s.isJob .sor stop slot then s.regionRecords stop slot else s)

end Sys2Proof.Machine
end

