-- ==== Sys2Proof/Machine/HostCommands.lean ====
section
/-! DEFINITION. The meanings of the commands of the host's rings, of the pipelines, of the mailbox and of the governor
(R239 to R251, R400, R405 to R421, R427). -/

namespace Sys2Proof.Machine

/-- The k-th fetched command begins, if it has the opcode (R411, R413); reserved bytes that are not 0 complete it with
BADARG (R409). -/
def State.command (s : State) (k opc : Nat) (f : State → Cmd → State) : State :=
  match s.begin k opc with
  | none => s
  | some (c, s) => if c.stray then s.complete c stBadarg else f s c

/-- R431: a command that targets the stops, cameras or ports of domains that are not in Run sets HOST's vote on them, and takes
effect once they are: until then it stays among the fetched commands. -/
def State.commandIn (s : State) (k opc : Nat) (doms : List Nat) (f : State → Cmd → State) : State :=
  if doms.all s.inRun then s.command k opc f
  else match s.begin k opc with
    | none => s
    | some (c, t) => if c.stray then t.complete c stBadarg else (doms.filter fun d => !s.inRun d).foldl (fun s d => s.vote d 0) s

/-- The pipeline that the k-th fetched command names. -/
def State.cmdPipe (s : State) (k : Nat) : Nat := (s.host.cmds[k]?).elim 0 Cmd.pipe

/-- START (R412). Of a pipeline that it would start, every domain must be in Run (R431). -/
def execStart (k : Nat) (s : State) : Result :=
  let st := s.pstate (s.cmdPipe k)
  .next (s.commandIn k 2 (if st = psLoaded ∨ st = psStopped then s.pipeDomains (s.cmdPipe k) else []) State.startPipe)

/-- STOP (R412). -/
def execStop (k : Nat) (s : State) : Result := .next (s.command k 3 State.stopPipe)

/-- STOP_COMPLETE (R411, R417). -/
def execStopComplete (p : Nat) (s : State) : Result := .next (s.stopDone p)

/-- CANCEL (R251). -/
def execCancel (k : Nat) (s : State) : Result := .next (s.command k 4 State.cancelPipe)

/-- CANCEL_HALTED (R251, step 3). -/
def execCancelHalted (p : Nat) (s : State) : Result := .next (s.cancelHalted p)

/-- CANCEL_DRAINED (R251, step 5). -/
def execCancelDrained (p : Nat) (s : State) : Result := .next (s.cancelDrained p)

/-- CANCEL_RESTART (R251, steps 7 and 8). -/
def execCancelRestart (p : Nat) (s : State) : Result := .next (s.cancelRestart p)

/-- READ_COUNTERS (R414). -/
def execReadCounters (k : Nat) (s : State) : Result := .next (s.command k 6 State.readCounters)

/-- VOTE (R411). -/
def execVote (k : Nat) (s : State) : Result := .next (s.command k 7 State.voteCmd)

/-- SQ_TAIL_WRITE (R405). -/
def execSqTailWrite (n : Nat) (v : Word) (s : State) : Result := .next (s.doorbell 0 n v)

/-- R407, R470: an access of HST to host memory; without the PCI Express link there is none, and what would be written waits. -/
def State.overPcie (s : State) (f : State → State) : State := if s.clockGone 0 then s else f s

/-- COMMAND_FETCH (R405). -/
def execCommandFetch (n : Nat) (entry : Option Payload) (s : State) : Result := .next (s.overPcie fun s => s.fetchCmd n entry)

/-- FORWARDED_COMMAND (R332). -/
def execForwardedCommand (origin ring : Nat) (entry : Payload) (s : State) : Result :=
  .next (s.fetchForwarded origin ring entry)

/-- COMPLETION_WRITE (R406). -/
def execCompletionWrite (n : Nat) (ok : Bool) (s : State) : Result := .next (s.overPcie fun s => s.writeCompletion n ok)

/-- CQ_HEAD_WRITE (R407). -/
def execCqHeadWrite (n : Nat) (v : Word) (s : State) : Result := .next (s.doorbell 1 n v)

/-- RR_HEAD_WRITE (R407). -/
def execRrHeadWrite (n : Nat) (v : Word) (s : State) : Result := .next (s.doorbell 2 n v)

/-- RECORD_WRITE (R417). -/
def execRecordWrite (n : Nat) (ok : Bool) (s : State) : Result := .next (s.overPcie fun s => s.writeRecord n ok)

/-- RING_ENABLE (R408). -/
def execRingEnable (kind n : Nat) (v : Word) (s : State) : Result := .next (s.enableRing kind n v)

/-- RING_DISABLE (R408). -/
def execRingDisable (kind n : Nat) (v : Word) (s : State) : Result := .next (s.disableRing kind n v)

/-- INTERRUPT_COALESCE_TIMEOUT (R421). -/
def execInterruptCoalesceTimeout (kind n : Nat) (s : State) : Result := .next (s.coalesceTimeout kind n)

/-- GET (R419). -/
def execGet (tid : Nat) (s : State) : Result := .next (s.mailbox fun s => s.mbxGet tid)

/-- SET (R419). -/
def execSet (tid : Nat) (s : State) : Result := .next (s.mailbox fun s => s.mbxSet tid)

/-- PROBE (R419). -/
def execProbe (s : State) : Result := .next (s.mailbox State.mbxProbe)

/-- MAILBOX_COMPLETE (R419). -/
def execMailboxComplete (s : State) : Result := .next s.mbxDone

/-- GOVERNOR_EVENT (R420). -/
def execGovernorEvent (k : Nat) (s : State) : Result := .next (s.govEvent k)

/-- VOTE_W1C (R427). -/
def execVoteW1c (d : Nat) (v : Word) (s : State) : Result := .next (s.voteW1c d v)

/-- PROBE_PERIOD_EXPIRY (R239). -/
def execProbePeriodExpiry (p : Nat) (s : State) : Result := .next (s.probePeriod p)

/-- QUIESCENCE_PROBE (R240). -/
def execQuiescenceProbe (p : Nat) (s : State) : Result := .next (s.firstWave p)

/-- PROBE_SECOND_WAVE (R240, R241). -/
def execProbeSecondWave (p : Nat) (s : State) : Result := .next (s.secondWave p)

/-- AGING_WINDOW_EXPIRY (R243). -/
def execAgingWindowExpiry (s : State) : Result := .next s.newWindow

/-- EPOCH_CHANGE (R251). -/
def execEpochChange (stop slot : Nat) (s : State) : Result :=
  .next (if isTile stop then s.tileEpoch stop else if isEngine stop ∧ slot < 8 then s.jobEpoch stop slot else s)

end Sys2Proof.Machine
end

