-- ==== Sys2Proof/Machine/FabricCommands.lean ====
section
/-! DEFINITION. The meanings of the commands of the Rhizoid fabric and its gateway (R368 to R398). -/

namespace Sys2Proof.Machine

/-- LOAD_RHIZOID_IMAGE (R389). D_RHZ must be in Run (R431). -/
def execLoadRhizoidImage (k : Nat) (obj : SignedObj) (img : RhzDesign) (s : State) : Result :=
  match s.host.cmds[k]? with
  | some c =>
    .next (if c.arg 0x1C 0 2 = 1 then
      s.commandIn k 1 (if c.arg 0x10 0 6 ≠ 0 ∨ rhzMalformed c obj then [] else [dRhz]) fun s c => s.loadRhz c obj img
    else s)
  | none => .next s

/-- CAPTURE (R391). -/
def execCapture (k : Nat) (s : State) : Result :=
  .next (s.commandIn k 9 (if s.captureBad then [] else [dRhz]) State.captureCmd)

/-- FABRIC_STOP (R389). -/
def execFabricStop (s : State) : Result := .next s.fabricStop

/-- FABRIC_VERIFY (R387). -/
def execFabricVerify (s : State) : Result := .next (s.fabricVerify State.ratchet)

/-- RUN (R388). -/
def execRun (s : State) : Result := .next (s.writeEffect 0x0060000C State.requestRelease)

/-- FABRIC_RELEASE (R388). -/
def execFabricRelease (s : State) : Result := .next s.fabricRelease

/-- GATEWAY_REGISTER_WRITE (R380). -/
def execGatewayRegisterWrite (n : Nat) (v : Word) (s : State) : Result :=
  .next (if n < 16 then s.writeEffect (0x00600400 + 4 * n) fun s => s.gregWrite n v else s)

/-- FABRIC_QUEUE_PUSH (R381). -/
def execFabricQueuePush (n : Nat) (w : Word) (s : State) : Result := .next (s.fabricPush n w)

/-- FABRIC_QUEUE_POP (R381). -/
def execFabricQueuePop (n : Nat) (s : State) : Result := .next (s.fabricPop n)

/-- HOST_QUEUE_POP (R381). -/
def execHostQueuePop (n : Nat) (s : State) : Result :=
  .next (if n < 2 then s.readEffect (0x00600500 + 0x10 * n) fun s => s.hostPop n else s)

/-- HOST_QUEUE_PUSH (R381). -/
def execHostQueuePush (n : Nat) (w : Word) (s : State) : Result :=
  .next (if n = 2 ∨ n = 3 then s.writeEffect (0x00600500 + 0x10 * n) fun s => s.queuePush n w else s)

/-- QUADRATURE_TRANSITION (R383). -/
def execQuadratureTransition (n : Nat) (a b : Bool) (s : State) : Result := .next (s.quad n a b)

/-- Z_EDGE (R383). -/
def execZEdge (n : Nat) (s : State) : Result := .next (s.zEdge n)

/-- TIMESTAMP_CAPTURE (R384). -/
def execTimestampCapture (n : Nat) (rising : Bool) (s : State) : Result := .next (s.capture n rising)

/-- TSC_EVENT_READ (R396). -/
def execTscEventRead (n : Nat) (s : State) : Result :=
  let a := 0x00600608 + 0x20 * n
  .next (if n < 8 then (if s.answers dRhz && s.regThere a then (s.tscRead n).readEffect a id else s.readEffect a id) else s)

/-- PIN_HOLD_WRITE (R386). -/
def execPinHoldWrite (n : Nat) (v : Word) (s : State) : Result :=
  let a := 0x00600100 + 4 * n
  .next (if n < 96 then s.writeEffect a fun s => s.wr a (v &&& 0xF) else s)

/-- SNAPSHOT (R391). -/
def execSnapshot (s : State) : Result := .next s.snapshot

/-- CAP_FREE (R391). -/
def execCapFree (s : State) : Result := .next (s.writeEffect 0x00600900 State.capFree)

/-- FABRIC_ACTIVE_CLOCK_EDGE (R370). -/
def execFabricActiveClockEdge (clk : Nat) (rising : Bool) (near : Bool) (s : State) : Result :=
  .next (s.clockEdge clk rising near)

/-- RHZ_PIN_INPUT_EDGE (R379, R479). -/
def execRhzPinInputEdge (pin : Nat) (v : Bool) (s : State) : Result :=
  .next (if 96 ≤ pin ∨ !s.answers dRhz then s
    else if s.pinsHeld then { s with dbg := { s.dbg with live := tput 0 s.dbg.live pin (1 + boolNat v) } }
    else s.setPin pin v)

/-- PLL_LOCK_CHANGE (R373). -/
def execPllLockChange (n : Nat) (v : Bool) (s : State) : Result := .next (s.pllLock n v)

end Sys2Proof.Machine
end

