-- ==== Sys2Proof/Machine/HostReset.lean ====
section
/-! DEFINITION. Function Level Reset and PCIE_PERST_L (R400, R468). -/

namespace Sys2Proof.Machine

/-- R400, R422: a ring is disabled and its head and tail cleared. -/
def State.ringClear (s : State) (kind n : Nat) : State :=
  let r := ringReg kind n
  ((s.clrFlag (r + 8) 0).wr (r + 0xC) 0).wr (r + 0x10) 0

/-- R400: commands under way on a pipeline are abandoned; a running one is stopped as by STOP. -/
def State.abandonPipe (s : State) (p : Nat) : State :=
  let s := if (s.pipeAt p).update.isSome then s.disarm p else s
  let x := { s.pipeAt p with cmd := none, again := none }
  if s.pstate p = psRunning then (s.setPipe p { x with phase := 1 }).haltAll p else s.setPipe p { x with phase := 0 }

/-- R400: the loads of the fabric go on, but complete nowhere. -/
def State.abandonFabric (s : State) : State :=
  let quiet (l : RhzLoad) : RhzLoad := { l with cmd := none }
  { s with rhz := { s.rhz with load := s.rhz.load.map quiet, latched := s.rhz.latched.map quiet } }

/-- R400: a Function Level Reset. -/
def State.flr (s : State) : State :=
  let s := (List.range 3).foldl (fun s kind => (List.range 64).foldl (fun s n => s.ringClear kind n) s) s
  let h := { s.host with cmds := [], compl := [], away := [], unsig := [], unsigAt := []
                         relay := s.host.relay.filter fun r => r.origin != s.devId }
  let cams := s.ingest.cams.map fun e => (e.1, { e.2 with inj := [] })
  let s := { s with host := h, gov := { s.gov with join := none, capture := none }, ingest := { s.ingest with cams := cams } }
  (s.gov.pipes.map (·.1)).foldl State.abandonPipe s.abandonFabric

/-- FUNCTION_LEVEL_RESET (R400). -/
def execFunctionLevelReset (s : State) : Result := .next s.flr

/-- PCIE_PERST (R468, R479): as a Function Level Reset; the link drops. -/
def execPciePerst (s : State) : Result :=
  .next (if s.dbg.ir = 0 ∨ s.dbg.ir = 4 ∨ s.dbg.ir = 5 then s
    else
      let s := s.flr
      { s with pwr := { s.pwr with l2 := false } })

end Sys2Proof.Machine
end

