-- ==== Sys2Proof/Machine/IngestCommands.lean ====
section
/-! DEFINITION. The meanings of the commands of ingest (R287 to R309). -/

namespace Sys2Proof.Machine

/-- LINE_START (R292). -/
def execLineStart (cam : Nat) (s : State) : Result := .next (s.lineStart cam)

/-- LINE_COMPLETE (R296). -/
def execLineComplete (cam : Nat) (data : LineData) (flags : Nat) (s : State) : Result :=
  .next (s.lineComplete cam data.bytes flags data.crcs data.bad)

/-- FRAME_STORE_WRITE_ACK (R295). -/
def execFrameStoreWriteAck (cam : Nat) (s : State) : Result := .next (if cam < 32 then s.storeAck cam else s)

/-- TRIGGER_EDGE (R293). -/
def execTriggerEdge (cam : Nat) (rising : Bool) (s : State) : Result := .next (s.trigEdge cam rising)

/-- TRIGGER_PACKET_SENT (R293). -/
def execTriggerPacketSent (cam : Nat) (s : State) : Result := .next (if cam < 16 then s.trigSent cam else s)

/-- GVSP_PACKET (R294). -/
def execGvspPacket (port : Nat) (f : GvspFrame) (s : State) : Result := .next (s.gvsp port f)

/-- CXP_CONTROL_PACKET (R289). -/
def execCxpControlPacket (link : Nat) (words : List Word) (s : State) : Result := .next (s.ctlPacket link words)

/-- CTL_TX_WRITE (R308). -/
def execCtlTxWrite (link : Nat) (w : Word) (s : State) : Result :=
  .next (if link < 16 then s.writeEffect (lnkReg link 0xC) fun s => s.ctlWrite link w else s)

/-- CTL_RX_READ (R308). -/
def execCtlRxRead (link : Nat) (s : State) : Result :=
  .next (if link < 16 then s.readEffect (lnkReg link 0x10) fun s => s.setRx link ((tget [] s.ingest.ctlRx link).drop 1) else s)

/-- CXP_LINK_UP_CHANGE (R308). -/
def execCxpLinkUpChange (link : Nat) (up : Bool) (s : State) : Result := .next (s.linkUp link up)

/-- INJECT (R299). A command for a camera whose domain is not in Run wakes it and takes effect once it is (R431). -/
def execInject (k : Nat) (lines : List (List Byte)) (s : State) : Result :=
  match s.host.cmds[k]? with
  | none => .next s
  | some c =>
    .next (s.commandIn k 5 [stopDomain (s.camStop (c.arg 0x10 0 5))] fun s c => s.injectCmd c lines)

end Sys2Proof.Machine
end

