-- ==== Sys2Proof/Machine/Joined.lean ====
section
/-! DEFINITION. The joined system: the JOIN exchange, heartbeats, membership, the leader and time (R315, R323 to R331). -/

namespace Sys2Proof.Machine

def State.isMember (s : State) (d : Nat) : Bool := s.flag 0x00508004 d
def State.isLost (s : State) (d : Nat) : Bool := s.flag 0x00508004 (16 + d)
def State.origin (s : State) (d : Nat) : Option Origin := tget none s.link.origins d

/-! ## Completion of JOIN -/

/-- R411: the result of JOIN: byte p holds the state and the HELD reason of port p. -/
def State.joinResult (s : State) : List Byte :=
  (List.range 8).map fun p => BitVec.ofNat 8 (s.lstat p + s.rf (rihReg p 0) 4 4 * 16)

/-- R411: every named port is UP or HELD, each after its exchange. -/
def State.joinDone (s : State) (ports : List Nat) : Bool :=
  ports.all fun p => !(s.port p).want && (s.lstat p == lkUp || s.lstat p == lkHeld)

def State.endJoin (s : State) (c : Cmd) : State :=
  ({ s with gov := { s.gov with join := none } }).complete c stOk 0 0 s.joinResult

def State.checkJoin (s : State) : State :=
  match s.gov.join with
  | some j => if s.joinDone j.ports then s.endJoin j.cmd else s
  | none => s

/-- R411: 200 ms after its start a JOIN completes as it stands. -/
def State.joinTimeout (s : State) : State :=
  match s.gov.join with
  | some j => if j.start + 200000000 ≤ s.time then s.endJoin j.cmd else s
  | none => s

/-! ## Leader and time parent -/

/-- R329: the lowest device id among the members. -/
def State.leaderOf (s : State) : Nat := ((List.range 16).find? s.isMember).getD s.devId

/-- R329, R332: the UP port whose neighbour has the fewest hops to part d; ties go to the lower device id, then port. What came by
a port counts while it is of d's latest heartbeat or the one before (DESIGN CHOICE, log 15). -/
def State.parentPort (s : State) (d : Nat) : Option (Nat × Nat) :=
  let latest := (s.origin d).elim 0 (·.hb)
  s.upPorts.foldl (fun (b : Option (Nat × Nat)) p =>
    let seen := tget (0, 0) s.link.seen (16 * p + d)
    let hops := if s.peerId p = d then some 0 else if seen.1 = 0 ∨ seen.2 + 1 < latest then none else some (seen.1 - 1)
    match hops, b with
    | none, _ => b
    | some h, none => some (p, h)
    | some h, some (q, g) => if h < g ∨ (h = g ∧ s.peerId p < s.peerId q) then some (p, h) else b) none

/-- R329, R336: leader, parent, hops and port are brought up to date. -/
def State.elect (s : State) : State :=
  let l := s.leaderOf
  let s := s.wf 0x00508000 4 4 l
  match (if l = s.devId then none else s.parentPort l) with
  | some (p, h) => ((s.wf 0x0050800C 1 4 (s.peerId p)).wf 0x0050800C 5 4 (h + 1)).wf 0x0050800C 9 3 p
  | none => ((s.wf 0x0050800C 1 4 0).wf 0x0050800C 5 4 0).wf 0x0050800C 9 3 0

/-! ## The JOIN command and exchange -/

/-- R325: the command's digest. -/
def Cmd.digest (c : Cmd) : BitVec 256 := c.entry.extractLsb' 128 256

/-- R325, R411: JOIN. A second JOIN during the first completes with STATE (log 15). -/
def State.joinCmd (s : State) (c : Cmd) : State :=
  let ports := (List.range 8).filter fun p => c.arg 0x30 p 1 == 1
  if s.gov.join.isSome then s.complete c stState
  else if c.arg 0x30 9 1 = 1 then
    let s := { s with link := { s.link with left := true } }
    let s := s.upPorts.foldl (fun s p => s.sendCtl p (.leave s.devId)) s
    let s := (List.range 8).foldl (fun s p => s.holdLink p hrLeft) s
    s.complete c stOk 0 0 s.joinResult
  else if !s.upPorts.isEmpty ∧ c.digest ≠ BitVec.ofNat 256 (s.rdWide 0x00508020 8) then s.complete c stRefused 3
  else
    let s := s.wrWide 0x00508020 c.digest.toNat 8
    let step := c.arg 0x30 8 1 == 1
    let s := { s with link := { s.link with stepOk := step, left := false } }
    let s := ports.foldl (fun s p => s.modPort p fun x => { x with want := s.lstat p != lkUp }) s
    let s := ports.foldl (fun s p => if s.lstat p = lkAligned ∨ s.lstat p = lkHeld then s.sendCtl p (.join (s.joinInfo p)) else s) s
    let run : JoinRun := { cmd := c, ports := ports, digest := c.digest, stepOk := step, start := s.time }
    ({ s with gov := { s.gov with join := some run } }).checkJoin

/-- R324: a part may step its time base. -/
def mayStep (o : JoinInfo) : Bool := o.stepOk && !o.hasUp && !o.runs

/-- R324: part `me` is the one that steps. -/
def steps (me o : JoinInfo) : Bool := mayStep me && (!mayStep o || decide (o.devId < me.devId))

/-- R323: the first check of the exchange between `me` and `o` that fails. A part that has left fails its peer's check 8, and both
then hold the link. -/
def joinCheck (me o : JoinInfo) (offset : Int) : Option Nat :=
  if o.protocol ≠ me.protocol then some 1
  else if o.devId = me.devId then some 2
  else if o.digest ≠ me.digest then some 3
  else if o.profile ≠ me.profile then some 4
  else if o.firmware ≠ me.firmware then some 5
  else if 1000 < offset.natAbs ∧ !mayStep me ∧ !mayStep o then some 6
  else if me.declaredLost ∨ o.declaredLost then some hrLost
  else if o.hasLeft ∨ me.hasLeft then some hrLeft
  else none

/-- R330: offset and delay of an exchange of time stamps on a port. `asym` is in units of 0.25 ns; the offset is rounded down
to whole ns (log 15). -/
def State.timeOffset (s : State) (p : Nat) (t : Int × Int × Int × Int) : Int :=
  let asym := (BitVec.ofNat 16 (s.rf (rihReg p 0x20) 0 16)).toInt
  (2 * ((t.2.1 - t.1) - (t.2.2.2 - t.2.2.1)) - asym) / 4

def timeDelay (t : Int × Int × Int × Int) : Int := ((t.2.1 - t.1) + (t.2.2.2 - t.2.2.1)) / 2

def State.noteDelay (s : State) (p : Nat) (t : Int × Int × Int × Int) : State :=
  s.wf (rihReg p 0x24) 0 16 ((BitVec.ofInt 16 (timeDelay t)).toNat)

/-- R323: the exchange on a port, with its four exchanges of time stamps; the last one gives the offset (DESIGN CHOICE, log 15). The
part that has not asked for it answers with what the exchange sends of it. -/
def State.joinExchange (s : State) (p : Nat) (o : JoinInfo) (stamps : List (Int × Int × Int × Int)) : State :=
  if 8 ≤ p ∨ !((s.lstat p = lkAligned ∧ (s.port p).want) ∨ s.lstat p = lkHeld) ∨ 16 ≤ o.devId ∨ stamps.length ≠ 4 then s
  else
    let t := stamps.getLastD (0, 0, 0, 0)
    let offset := s.timeOffset p t
    let s := if (s.port p).want then s else (s.freshWire p).sendCtl p (.join (s.joinInfo p))
    let me := s.joinInfo p
    let s := ((s.wf (rihReg p 0) 8 4 o.devId).wf (rihReg p 0) 12 3 o.port).noteDelay p t
    let seen := s.link.seen.filter fun e => e.1 / 16 != p
    let s := { s.modPort p fun x => { x with want := false, serial := o.serial, met := true } with link.seen := seen }
    match joinCheck me o offset with
    | some reason => (s.hold p reason).checkJoin
    | none =>
      let s := if 1000 < offset.natAbs ∧ steps me o then { s with time := ((s.time : Int) + offset).toNat % 2 ^ 64 } else s
      let s := ((s.setLstat p lkUp).wf (rihReg p 0) 4 4 0).clrFlag 0x00508004 (16 + o.devId)
      let closed := s.link.closed.filter fun k => k / 32 != p
      let s := { s with link := { s.link with closed := closed } }
      ((s.modPort p fun x => { x with lostSince := false }).flushCtl p ((s.port p).ctl.length)).elect.checkJoin

/-! ## Loss -/

/-- R328: the pipelines with a channel to or from a part, directly or through relays. -/
def State.peerPipes (s : State) (o : Nat) (ports : List Nat) : List Nat :=
  s.loadedPipes.filter fun p =>
    (s.info p).peers.contains o || (s.chansOf p).any fun k => ports.contains (k / 32)

/-- R328: the part is declared lost; `reason` is what its links hold. -/
def State.declareLost (s : State) (o reason : Nat) : State :=
  let ports := (List.range 8).filter fun p => (s.port p).met && s.peerId p == o
  let s := ports.foldl (fun s p => (s.modPort p fun x => { x with lostSince := true }).holdLink p reason) s
  let keys := ports.flatMap fun p => (List.range 32).map fun c => chanKey p c
  let s := { s with link := { s.link with closed := s.link.closed ++ keys.filter fun k => !s.link.closed.contains k } }
  let s := (s.peerPipes o ports).foldl (fun s p => s.crust p 2) s
  let s := ((s.clrFlag 0x00508004 o).setFlag 0x00508004 (16 + o)).setFlag 0x00508018 0
  let s := { s with link := { s.link with origins := tput none s.link.origins o none } }
  ((s.forward 9 0xFFFF o).elect).checkJoin

/-- R325: part o's leave notice arrives on a port: the part goes on telling every member at once, and treats o as lost; o's links hold
LEFT. A notice that has come before has no further effect. -/
def State.leaveNotice (s : State) (p o : Nat) : State :=
  if p < 8 ∧ s.carries p ∧ o < 16 ∧ o ≠ s.devId ∧ !s.isLost o then
    let on := s.upPorts.filter fun q => q != p && s.peerId q != o
    (on.foldl (fun s q => (s.freshWire q).sendCtl q (.leave o)) s).declareLost o hrLeft
  else s

/-- R327: the time at which a heartbeat of an origin is late. -/
def Origin.due (o : Origin) : Nat := (o.hb + 1) * 100000 + 30000 + 2000 * o.hops

/-- R327, R328: no heartbeat in time. -/
def State.peerLost (s : State) (d : Nat) : State :=
  match s.origin d with
  | some o => if d < 16 ∧ d ≠ s.devId ∧ !s.isLost d ∧ o.due ≤ s.time then s.declareLost d hrLost else s
  | none => s

/-! ## Heartbeats and time -/

/-- R330: the unsynchronised mark after an exchange with the parent. -/
def State.timeMark (s : State) (offset : Int) : State :=
  let good := if offset.natAbs ≤ 20 then s.link.good + 1 else 0
  let s := { s with link := { s.link with good := good, slew := offset } }
  if 1000 < offset.natAbs then
    let rising := !s.flag 0x0050800C 0
    let s := (s.setFlag 0x0050800C 0).setFlag 0x00508018 2
    if rising then s.forward 13 0xFFFF ((BitVec.ofInt 64 offset).toNat) else s
  else if 10 ≤ good then s.clrFlag 0x0050800C 0
  else s

/-- R330: time stamps t1 to t4 of an exchange with the parent. -/
def State.timeExchange (s : State) (t : Int × Int × Int × Int) : State :=
  let p := s.rf 0x0050800C 9 3
  let offset := s.timeOffset p t
  ((s.wr 0x00508008 (BitVec.ofInt 32 offset)).noteDelay p t).timeMark offset

/-- R329, R401: the leader follows its host through PTM where `ptm_follow` is set; an exchange of time stamps with the root complex
says how far it is off, without `asym` (DESIGN CHOICE, log 15). -/
def State.followHost (s : State) (t : Int × Int × Int × Int) : State :=
  if s.flag 0x0000000C 0 then { s with link := { s.link with slew := ((t.2.1 - t.1) - (t.2.2.2 - t.2.2.1)) / 2 } } else s

/-- R327: this part's heartbeat k is due when its time base reaches k × 100,000 ns. -/
def State.heartbeatSend (s : State) (stamps : Option (Int × Int × Int × Int)) : State :=
  let k := s.time / 100000
  if !s.boot.started ∨ BitVec.ofNat 32 k = s.rd 0x00508010 then s
  else
    let parent := s.rf 0x0050800C 1 4
    let s := s.elect
    let s := s.wr 0x00508010 (BitVec.ofNat 32 k)
    let s := s.upPorts.foldl (fun s p => (s.freshWire p).sendCtl p (.heartbeat s.devId (Config.serial 0) k 0 parent)) s
    match stamps with
    | some t => if s.leaderOf = s.devId then s.followHost t else s.timeExchange t
    | none => s

/-- R326: another member has this part's device id. -/
def State.dupId (s : State) (serial : W64) : State :=
  if serial = Config.serial 0 ∨ (Config.serial 0).toNat ≤ serial.toNat then s
  else
    let s := (List.range 8).foldl (fun s p => s.holdLink p 2) s
    s.setFlag 0x00508018 1

/-- R327: a heartbeat arrives on a port. -/
def State.heartbeatReceive (s : State) (p d : Nat) (serial : W64) (hb hops parent : Nat) : State :=
  if 8 ≤ p ∨ s.lstat p ≠ lkUp ∨ 16 ≤ d then s
  else if d = s.devId then s.dupId serial
  else if s.isLost d then s
  else
    let s := { s with link := { s.link with seen := tput (0, 0) s.link.seen (16 * p + d) (hops + 1, hb) } }
    let fresh := (s.origin d).all fun o => decide (o.hb < hb) && decide (s.time < hb * 100000 + 30000 + 2000 * o.hops)
    if !fresh then s
    else
      let o : Origin := { serial := serial, hb := hb, hops := hops, port := p, parent := parent }
      let s := { s with link := { s.link with origins := tput none s.link.origins d (some o) } }
      let s := s.setFlag 0x00508004 d
      let s := (s.upPorts.filter fun q => q != p).foldl (fun s q =>
        (s.freshWire q).sendCtl q (.heartbeat d serial hb (hops + 1) parent)) s
      s.elect

/-! ## Codewords -/

/-- R317: the first control flit after a retrain carries the peer's E, its `lack`, whatever its own number: what the peer has is
acknowledged and the rest is sent again. -/
def State.resumeFrom (s : State) (p e : Nat) : State :=
  let s := (s.takeLack p e).modPort p fun x => { x with resume := false }
  (s.resend p 0).flushCtl p ((s.port p).ctl.length)

/-- A control flit takes effect. What the JOIN exchange sends takes effect as the exchange completes. -/
def State.control (s : State) (p : Nat) (c : Control) : State :=
  match c with
  | .credit ch => s.linkCredit p ch
  | .leave o => s.leaveNotice p o
  | .heartbeat d serial hb hops parent => s.heartbeatReceive p d serial hb hops parent
  | .vote h => if h then s.vote dLnk 4 else s.unvote dLnk 4
  | .resume _ => s
  | .join _ => s
  | .command _ origin ring entry => s.fetchForwarded origin ring entry
  | .completion origin ring entry => if s.boot.started ∧ origin < 16 ∧ ring < 64 then s.forwardedDone origin ring entry else s

/-- R315: a numbered flit that survives. -/
def State.takeNumbered (s : State) (p : Nat) (l : LinkFlit) : State :=
  let e := s.rxExp p
  let d := (l.lseq + 4096 - e) % 4096
  if d = 0 then
    let s := s.wrap (rihReg p 4) 16 12
    if l.ltype = 0 then s.chanDeliver p (l.chan % 32) l.flit
    else match l.control with
      | some c => s.control p c
      | none => s
  else if d < 2048 then
    let s := s.count (rihReg p 0x10) 16 16
    let recent := (s.port p).nak.any fun n => n.1 == e && decide (s.time < n.2 + 1000)
    if recent then s
    else ((s.modPort p fun x => { x with nak := some (e, s.time) }).sendNak p).count (rihReg p 0xC) 16 16
  else s.count (rihReg p 0x10) 0 16

/-- R312, R213, R313, R315: a flit of a codeword. -/
def State.takeLinkFlit (s : State) (p : Nat) (l : LinkFlit) : State :=
  if l.flit.hdrErr = 2 ∨ l.flit.par != 0 then s.setFlag (rihReg p 0x1C) 1
  else
    let s := if l.flit.hdrErr = 1 then s.count (reg (linkStop p) 0xF414) 0 16 else s
    let s := if l.ltype = 1 ∧ (s.port p).resume then s.resumeFrom p l.lack else s.takeLack p l.lack
    if l.ltype ≤ 1 then s.takeNumbered p l else if l.ltype = 3 then s.takeNak p l.lseq else s

/-- R312: a codeword arrives with so many symbols in error: the RS(544, 512) code corrects up to 16. Every 4,096th is an alignment
codeword and carries no flit; they are counted from the lock (DESIGN CHOICE, log 15). -/
def State.codeword (s : State) (p : Nat) (symbols : Nat) (flits : List LinkWord) : State :=
  if 8 ≤ p ∨ !s.carries p then s
  else
    let cws := (s.port p).cws + 1
    let s := (s.freshWire p).modPort p fun x => { x with cws := cws }
    let s := if 16 < symbols then (s.setFlag (rihReg p 0x1C) 0).count (rihReg p 0x18) 0 32
      else
        let s := s.count (rihReg p 0x14) 0 32 symbols
        if cws % 4096 = 0 then s else (flits.take 8).foldl (fun s w => s.takeLinkFlit p (linkFlitOf w)) s
    s.fillIdle p

/-- R332: a command or a completion that waits to leave for another part goes out on the port with the fewest hops to it; the governor
moves one at a time. -/
def State.relayTick (s : State) : State :=
  match s.host.relay.find? fun r => (s.parentPort r.dest).isSome with
  | none => s
  | some r => match s.parentPort r.dest with
    | none => s
    | some (p, _) =>
      let s := { s with host := { s.host with relay := s.host.relay.erase r } }
      (s.freshWire p).sendCtl p (if r.back then .completion r.origin r.ring r.entry else .command r.dest r.origin r.ring r.entry)

end Sys2Proof.Machine
end

