-- ==== Sys2Proof/Machine/JoinedCommands.lean ====
section
/-! DEFINITION. The meanings of the commands of the Riham links and of the joined system (R311 to R336). -/

namespace Sys2Proof.Machine

/-- JOIN (R325). D_LNK must be in Run where it names a port (R431). -/
def execJoin (k : Nat) (s : State) : Result :=
  let named := (s.host.cmds[k]?).any fun c => c.arg 0x30 0 8 != 0
  .next (s.commandIn k 8 (if named then [dLnk] else []) State.joinCmd)

/-- JOIN_COMMAND_TIMEOUT (R411). -/
def execJoinCommandTimeout (s : State) : Result := .next s.joinTimeout

/-- SIGNAL_DETECT (R322). -/
def execSignalDetect (p : Nat) (s : State) : Result := .next (s.signalDetect p)

/-- TRAINING_LOCK (R322). -/
def execTrainingLock (p : Nat) (s : State) : Result := .next (s.trainingLock p).checkJoin

/-- TRAINING_TIMEOUT (R322). -/
def execTrainingTimeout (p : Nat) (s : State) : Result := .next (s.trainingTimeout p)

/-- TRAIN_RETRY (R322). -/
def execTrainRetry (p : Nat) (s : State) : Result := .next (s.trainRetry p)

/-- LOCK_LOST (R322). -/
def execLockLost (p : Nat) (s : State) : Result := .next (s.lockLost p)

/-- JOIN_EXCHANGE (R323). -/
def execJoinExchange (p : Nat) (peer : JoinInfo) (stamps : List (Int × Int × Int × Int)) (s : State) : Result :=
  .next (s.joinExchange p peer stamps)

/-- CODEWORD_RECEIVE (R312, R315). -/
def execCodewordReceive (p : Nat) (data parity : Nat) (flits : List LinkWord) (s : State) : Result :=
  .next (s.codeword p (data + parity) flits)

/-- NAK (R316). -/
def execNak (p n : Nat) (s : State) : Result :=
  .next (if p < 8 ∧ s.carries p then (s.freshWire p).takeNak p n else s)

/-- GO_BACK_TIMEOUT (R316). -/
def execGoBackTimeout (p : Nat) (s : State) : Result := .next (s.goBackTimeout p)

/-- LEAVE_NOTICE (R325). -/
def execLeaveNotice (w : LeaveWord) (s : State) : Result := .next (s.leaveNotice w.port w.origin)

/-- HEARTBEAT_SEND (R327, R330). -/
def execHeartbeatSend (stamps : Option (Int × Int × Int × Int)) (s : State) : Result := .next (s.heartbeatSend stamps)

/-- HEARTBEAT_RECEIVE (R327). -/
def execHeartbeatReceive (p origin : Nat) (serial : W64) (hb hops parent : Nat) (s : State) : Result :=
  .next (s.heartbeatReceive p origin serial hb hops parent)

/-- PEER_LOST (R328). -/
def execPeerLost (origin : Nat) (s : State) : Result := .next (s.peerLost origin)

/-- CHANNEL_TRANSMIT (R318). -/
def execChannelTransmit (p c : Nat) (s : State) : Result := .next (s.chanTransmit p c)

/-- LINK_CREDIT (R319). -/
def execLinkCredit (p c : Nat) (s : State) : Result := .next (s.linkCredit p c)

/-- CHANNEL_RECEIVE_DEPART (R319). -/
def execChannelReceiveDepart (p c : Nat) (s : State) : Result := .next (s.chanDepart p c)

/-- CREDIT_OBJECT_REREAD (R319). -/
def execCreditObjectReread (p c : Nat) (s : State) : Result := .next (s.chanReread p c)

end Sys2Proof.Machine
end

