-- ==== Sys2Proof/Machine/TileCommands.lean ====
section
/-! DEFINITION. The meanings of the commands that issue an operation of a tile's IN, OP or OUT slot (R165, R170, R179), of
expander flushes and host accesses to stream slots, and of conversion-monitor reads (R48). -/

namespace Sys2Proof.Machine

/-- VEC (R166). -/
def execVec (stop : Nat) (s : State) : Result := .next (s.runOp stop .vec)

/-- LOADW (R167). -/
def execLoadw (stop : Nat) (s : State) : Result := .next (s.runOp stop .loadw)

/-- DROP (R168). -/
def execDrop (stop : Nat) (s : State) : Result := .next (s.runOp stop .drop)

/-- SENDV (R169). -/
def execSendv (stop : Nat) (s : State) : Result := .next (s.runOp stop .sendv)

/-- EXPAND (R171, R196). -/
def execExpand (stop : Nat) (s : State) : Result := .next (s.runOp stop .expand)

/-- EXPANDER_FLUSH (R197). -/
def execExpanderFlush (stop : Nat) (s : State) : Result := .next (s.flushDue stop)

/-- FETCH (R172): of the schedule, or a host write of `start` to a slot. -/
def execFetch (stop : Nat) (slot : Option Nat) (s : State) : Result :=
  .next (match slot with
    | some k => if kindOf stop = .mt then s.startStream stop (k % 16) else s
    | none => s.runOp stop .fetch)

/-- SHALT (R172): of the schedule, or a host write of `halt` to a slot. -/
def execShalt (stop : Nat) (slot : Option Nat) (s : State) : Result :=
  .next (match slot with
    | some k => if kindOf stop = .mt then s.haltStream stop (k % 16) else s
    | none => s.runOp stop .shalt)

/-- HPOP (R173). -/
def execHpop (stop : Nat) (s : State) : Result := .next (s.runOp stop .hpop)

/-- HRET (R174). -/
def execHret (stop : Nat) (s : State) : Result := .next (s.runOp stop .hret)

/-- SENDQ (R175). -/
def execSendq (stop : Nat) (s : State) : Result := .next (s.runOp stop .sendq)

/-- SENDA (R176). -/
def execSenda (stop : Nat) (s : State) : Result := .next (s.runOp stop .senda)

/-- SENDB (R177). -/
def execSendb (stop : Nat) (s : State) : Result := .next (s.runOp stop .sendb)

/-- CVTA (R180). -/
def execCvta (stop : Nat) (s : State) : Result := .next (s.runOp stop .cvta)

/-- CVTB (R180). -/
def execCvtb (stop : Nat) (s : State) : Result := .next (s.runOp stop .cvtb)

/-- RAW (R180). -/
def execRaw (stop : Nat) (s : State) : Result := .next (s.runOp stop .raw)

/-- LDV (R180). -/
def execLdv (stop : Nat) (s : State) : Result := .next (s.runOp stop .ldv)

/-- ADD (R181). -/
def execAdd (stop : Nat) (s : State) : Result := .next (s.runOp stop .add)

/-- MUL (R181). -/
def execMul (stop : Nat) (s : State) : Result := .next (s.runOp stop .mul)

/-- MAX (R181). -/
def execMax (stop : Nat) (s : State) : Result := .next (s.runOp stop .max)

/-- TBL (R82). -/
def execTbl (stop : Nat) (s : State) : Result := .next (s.runOp stop .tbl)

/-- RUN SOFTMAX (R84). -/
def execSoftmax (stop : Nat) (s : State) : Result := .next (s.runOp stop (.run 0))

/-- RUN LNORM (R85). -/
def execLnorm (stop : Nat) (s : State) : Result := .next (s.runOp stop (.run 1))

/-- RUN GN_STAT (R85, R183). -/
def execGnStat (stop : Nat) (s : State) : Result := .next (s.runOp stop (.run 2))

/-- RUN GN_APPLY (R85). -/
def execGnApply (stop : Nat) (s : State) : Result := .next (s.runOp stop (.run 3))

/-- RUN MAXPOOL (R87). -/
def execMaxpool (stop : Nat) (s : State) : Result := .next (s.runOp stop (.run 4))

/-- RUN AVGPOOL (R87). -/
def execAvgpool (stop : Nat) (s : State) : Result := .next (s.runOp stop (.run 5))

/-- RUN RESIZE_N (R88). -/
def execResizeN (stop : Nat) (s : State) : Result := .next (s.runOp stop (.run 6))

/-- RUN RESIZE_B (R88). -/
def execResizeB (stop : Nat) (s : State) : Result := .next (s.runOp stop (.run 7))

/-- RUN TOPK (R89). -/
def execTopk (stop : Nat) (s : State) : Result := .next (s.runOp stop (.run 8))

/-- RUN DWCONV (R90). -/
def execDwconv (stop : Nat) (s : State) : Result := .next (s.runOp stop (.run 9))

/-- NSEND (R86, R185). -/
def execNsend (stop : Nat) (s : State) : Result := .next (s.runOp stop .nsend)

/-- STV (R185). -/
def execStv (stop : Nat) (s : State) : Result := .next (s.runOp stop .stv)

/-- SENDM (R185). -/
def execSendm (stop : Nat) (s : State) : Result := .next (s.runOp stop .sendm)

end Sys2Proof.Machine
end

