-- ==== Sys2Proof/Machine/MeshCommands.lean ====
section
/-! DEFINITION. The meanings of the mesh's commands: injection, hops and arrival (R210, R216, R223), landing queues (R224),
chain messages (R65 to R68), trace records (R483). -/

namespace Sys2Proof.Machine

/-- INJECTION_FIFO_ENTRY (R216, R219). -/
def execInjectionFifoEntry (stop rt : Nat) (s : State) : Result := .next (s.injEntry stop rt)

/-- INJECTION_DEPART (R216). -/
def execInjectionDepart (stop rt : Nat) (s : State) : Result := .next (if rt < 16 then s.injDepart stop rt else s)

/-- FLIT_HOP (R210, R218); `flips` are the bits that the link inverts. -/
def execFlitHop (hop : Hop) (s : State) : Result := .next (s.flitHop hop.k hop.flips)

/-- ARRIVAL_BUFFER_ENTRY (R223); `flips` are the bits that the link inverts. -/
def execArrivalBufferEntry (hop : Hop) (s : State) : Result := .next (s.arrive hop.k hop.flips)

/-- ARRIVAL_BUFFER_DEPART (R223). -/
def execArrivalBufferDepart (stop : Nat) (s : State) : Result := .next (s.arrDepart stop)

/-- The transmit half of a channel takes a flit (R318), with the abort behaviour of R225. A closed half drops it (R328). -/
def State.landTx (s : State) (stop : Nat) (f : Flit) : State :=
  let k := txKey stop f.dstQ
  if s.link.closed.contains k then s.setFlag (0x0050001C + 0x100 * (k / 32)) 4 else
  { s with txq := tput [] s.txq k (tget [] s.txq k ++ [f]) }

/-- A flit that crosses into a tile, an engine or a link stop is written into its landing queue. -/
def State.arrivingLand (s : State) (stop : Nat) : State :=
  if kindOf stop = .mt then s
  else match s.takeInto stop fun _ => true with
  | some (f, s) => if kindOf stop = .lnk then s.landTx stop f else s.land stop f
  | none => s

/-- LANDING_QUEUE_ARRIVAL (R224, R225). -/
def execLandingQueueArrival (stop : Nat) (s : State) : Result := .next (s.arrivingLand stop)

/-- The neighbour on a chain port: 1 NE, 2 NW, 3 SE, 4 SW (R72). -/
def chainNext (stop port : Nat) : Nat :=
  if port = 1 then stop + 1 - 32 else if port = 2 then stop - 1 - 32 else if port = 3 then stop + 1 + 32 else stop - 1 + 32

/-- The neighbour's port at the other end of a link (R72): NE leads to SW and NW to SE. -/
def chainFrom (port : Nat) : Nat := if port ≤ 4 then 5 - port else 1

/-- R65: the header beat of a chain message; its reserved bits are 0. -/
def chainHead (m : ChainMsg) : Nat :=
  m.mtype % 2 ^ 8 + m.firstPos % 2 ^ 7 * 2 ^ 8 + m.lastPos % 2 ^ 7 * 2 ^ 15 + m.group % 2 ^ 6 * 2 ^ 22 + m.wsGran % 2 ^ 9 * 2 ^ 28
    + m.ngran % 2 ^ 10 * 2 ^ 37 + boolNat m.sigEn * 2 ^ 47 + m.syncObj % 2 ^ 16 * 2 ^ 48 + m.syncAdd % 2 ^ 8 * 2 ^ 64
    + m.msgId % 2 ^ 16 * 2 ^ 72

/-- The bytes of word w of a list of bytes with some bits inverted. -/
def flipWord (bits : Word) (bs : List Byte) : List Byte := bs.zipIdx.map fun b => b.1 ^^^ bits.extractLsb' (8 * b.2) 8

/-- R67: a message as a tile receives it over a link that inverts bits. -/
def overLink (m : ChainMsg) (flips : List Flip) : ChainMsg :=
  let inHead := flips.filter fun f => f.word < 8
  let m := if inHead.isEmpty then m
    else
      let h := inHead.foldl (fun t f => putBytes t (4 * f.word) (flipWord f.bits (getBytes t (4 * f.word) 4))) (putBytes [] 0 (leBytes (chainHead m) 32))
      { chainHeader (getBytes h 0 32) with data := m.data }
  let inData := flips.filter fun f => 8 ≤ f.word
  { m with data := inData.foldl (fun t f => putBytes t (4 * (f.word - 8)) (flipWord f.bits (getBytes t (4 * (f.word - 8)) 4))) m.data }

/-- R67: a word whose 33 bits arrive with an odd number of them inverted has bad parity. -/
def badParity (f : Flip) : Bool := (((List.range 32).filter fun i => bitOf f.bits i).length + boolNat f.par) % 2 == 1

/-- R66, R67, R72: a chain message at a tile, which takes its beats from one port. -/
def State.chainAt (s : State) (stop : Nat) (sent : ChainMsg) (port : Nat) (flips : List Flip) : State :=
  let c := s.rd (reg stop 0x0080)
  if kindOf stop ≠ .at ∨ !bitOf c 31 ∨ bitsOf c 0 3 ≠ port then s
  else
    let m := overLink sent flips
    let p := bitsOf c 6 7
    let out := bitsOf c 3 3
    let s := if flips.any badParity then (s.setFlag (reg stop 0x0200) 4).event 6 stop m.msgId (some (s.pipeOf stop)) else s
    let known := m.mtype = 0x5C
    let mine := known ∧ m.firstPos ≤ p ∧ p ≤ m.lastPos ∧ (m.group = 63 ∨ m.group = bitsOf c 13 6)
    let s := if mine ∧ m.ngran ≠ 0 then
        let a := s.atile stop
        let bs := (List.range (1024 * m.ngran)).map fun i => tget 0 m.data i
        let s := if a.loadReads m.wsGran m.ngran then s.hazard stop 7 m.wsGran else s
        (s.setAt stop (a.wsWrite (m.wsGran * 1024) bs))
      else s
    let s := if mine then s.wrap (reg stop 0x0084) 16 16 else s
    let on := out ≠ 0 ∧ (¬ known ∨ p < m.lastPos)
    if on then { s with chain := s.chain ++ [{ stop := chainNext stop out, msg := m, port := chainFrom out }] }
    else if known then s.credit m.sigEn m.syncObj stop m.syncAdd
    else s

/-- CHAIN_MESSAGE (R66, R67). -/
def execChainMessage (k : Nat) (flips : List Flip) (s : State) : Result :=
  .next (match takeAt s.chain k with
    | some (c, rest) => State.chainAt { s with chain := rest } c.stop c.msg c.port flips
    | none => s)

/-- TRACE_RECORD_WRITE (R483, R484). -/
def execTraceRecordWrite (t : Nat) (s : State) : Result := .next (if t < 2 then s.traceWrite t else s)

end Sys2Proof.Machine
end

