-- ==== Sys2Proof/Machine/LoadChecks.lean ====
section
/-! DEFINITION. The checks of a load image (R416): bundles (R136, R139, R144, R160), descriptors (R272, R284), tiles, memory,
queues, sync objects, slot tables, cameras. Each answers the detail of the first failure. -/

namespace Sys2Proof.Machine

/-! ## Bundles -/

/-- Context registers that a composite function reads from c[cr] on (R184). -/
def runRegs (fn : Nat) : Nat := [1, 2, 2, 3, 3, 3, 5, 5, 1, 5].getD fn 0

/-- R136, R160, R165 to R184: an IN (0), OP (1) or OUT (2) slot of a tile kind that the loader refuses; `handleQ` says which
queues are handle queues in the image, `lq7` that the tile is in scale-stream mode (R163). -/
def slotBad (k : Kind) (handleQ : Nat → Bool) (lq7 : Bool) (slot w : Nat) : Bool :=
  let f (lo n : Nat) : Nat := osel w lo n
  let scale (lo : Nat) : Bool := lq7 && f lo 3 == 7
  match k, slot, w / 2 ^ 24 with
  | _, _, 0 => f 0 24 != 0
  | .at, 0, 1 => f 0 10 != 0 || (f 16 1 == 0 && f 10 6 != 0) || (f 17 1 == 1 && (f 21 3 == f 18 3 || scale 18)) || scale 21
  | .at, 1, 1 => f 0 13 != 0 || (f 13 1 == 0 && f 14 5 != 0)
  | .at, 1, 2 => f 0 21 != 0 || scale 21
  | .at, 2, 1 => f 0 3 != 0 || f 10 2 == 3
  | .mt, 0, 1 => f 0 15 != 0
  | .mt, 0, 2 => f 0 20 != 0
  | .mt, 0, 3 => f 0 20 != 0
  | .mt, 1, 1 => f 0 13 != 0 || f 13 5 == 31 || !handleQ (f 18 6)
  | .mt, 1, 2 => f 0 13 != 0 || f 13 5 == 31
  | .mt, 2, 1 => f 0 10 != 0 || f 10 2 == 3 || handleQ (f 18 6)
  | .mt, 2, 2 => f 0 8 != 0 || f 13 2 == 3
  | .mt, 2, 3 => f 0 8 != 0 || f 19 5 == 31
  | .sft, 0, 1 => f 2 11 != 0 || scale 21
  | .sft, 0, 2 => f 2 11 != 0 || scale 21
  | .sft, 0, 3 => f 0 16 != 0 || scale 21
  | .sft, 0, 4 => f 0 16 != 0
  | .sft, 1, 5 => f 2 13 != 0 || decide (10 ≤ f 20 4) || decide (31 < f 15 5 + runRegs (f 20 4))
  | .sft, 1, o => decide (5 < o) || f 0 15 != 0
  | .sft, 2, 1 => f 2 8 != 0 || f 15 2 == 3
  | .sft, 2, 2 => f 0 16 != 0
  | .sft, 2, 3 => f 0 8 != 0 || f 13 2 == 3
  | _, _, _ => true

/-- R144, R145: a CTL slot that the loader refuses; `x` is `ximm` of a format 1 bundle. -/
def ctlRefused (k : Kind) (x : Option Nat) (c : Nat) : Bool :=
  let f (lo n : Nat) : Nat := osel c lo n
  let imm (zero : Bool) : Bool := x.any fun _ => !zero
  let none0 : Bool := x.any fun v => v != 0
  match c / 2 ^ 24 with
  | 0 => f 0 24 != 0 || none0
  | 1 => imm (f 0 12 == 0) || x.any fun v => decide (2 ^ 20 ≤ v)
  | 2 => f 5 7 != 0 || none0
  | 3 => imm (f 0 8 == 0)
  | 4 => f 0 8 != 0 || none0
  | 5 => imm (f 0 8 == 0)
  | 6 => none0
  | 7 => f 2 22 != 0 || none0
  | 8 => f 16 2 != 0 || (k != .mt && decide (8 ≤ f 18 6)) || none0
  | 9 => f 0 18 != 0 || k != .mt || none0
  | 10 => imm (f 0 19 == 0)
  | 11 => f 0 24 != 0 || none0
  | _ => true

/-- R136: a bundle that the loader refuses. -/
def bundleRefused (k : Kind) (handleQ : Nat → Bool) (lq7 : Bool) (b : Bundle) : Bool :=
  let c := bCtl b
  match bFormat b with
  | 0 => (List.range 3).any (fun i => slotBad k handleQ lq7 i (bSlot b i)) || ctlRefused k none c
  | 1 => bsel b 60 58 != 0 || ctlRefused k (some (bXimm b)) c
  | 2 => bsel b 92 15 != 0 || ctlRefused k none c
  | _ => true

/-- The sync object that a bundle names. -/
def bundleObj (b : Bundle) : Option Nat :=
  let o := bCtlOp b
  if o = ctlSig ∨ o = ctlRst ∨ o = ctlWaits then some (ctlObj (bCtl b)) else if o = ctlArm then some (osel (bCtl b) 6 16) else none

/-- R139: the loops of a program, as (setup, end). -/
def loopsOf (prog : List (Nat × Bundle)) : List (Nat × Nat) :=
  prog.filterMap fun e => if bCtlOp e.2 = ctlLoop ∨ bCtlOp e.2 = ctlLoopc then some (e.1, osel (bCtl e.2) 12 12) else none

/-- R139: a loop that breaks the rule: its setup's address. -/
def badLoop (ls : List (Nat × Nat)) : Option Nat :=
  (ls.find? fun l => decide (l.2 ≤ l.1) ||
    ls.any (fun m => decide (l.1 < m.1) && decide (m.1 ≤ l.2) && decide (l.2 < m.2)) ||
    ls.any (fun m => m.1 == l.2) ||
    decide (4 < (ls.filter fun m => decide (m.1 < l.2) && decide (l.2 ≤ m.2)).length)).map (·.1)

/-! ## The image as it would stand -/

/-- R5: the bits of a register that the loader writes. -/
def loadBits (a : Nat) : Word := BitVec.ofNat 32 ((regRow a).elim 0 RegRow.rw)

/-- A register written by the loader. -/
def State.loadReg (s : State) (a : Nat) (v : Word) : State := s.wr a ((s.rd a &&& ~~~loadBits a) ||| (v &&& loadBits a))

def State.loadRegs (s : State) (img : Tjl) : State :=
  let s := img.stops.foldl (fun s t => t.regs.foldl (fun s w => s.loadReg (reg t.stop w.1) w.2) s) s
  img.globals.foldl (fun s w => s.loadReg w.1 w.2) s

/-- The registers that the image writes, over reset values: what the checks look at. -/
def imgRegs (img : Tjl) : State := ({} : State).loadRegs img

def imgTiles (img : Tjl) : List StopImage := img.stops.filter fun t => isTile t.stop
def imgIds (img : Tjl) : List Nat := img.pipes.map (·.id)

/-- Pipelines loaded now that the image would replace, and those that would stay. -/
def State.replaced (s : State) (img : Tjl) : List Nat := (imgIds img).filter fun p => s.pstate p != psUnloaded
def State.staying (s : State) (img : Tjl) : List Nat := s.loadedPipes.filter fun p => !(imgIds img).contains p

/-- Loaded images of which a pipeline stays. -/
def State.keptImgs (s : State) (img : Tjl) : List Loaded := s.gov.imgs.filter fun l => l.pipes.any fun p => !(imgIds img).contains p

/-! ## Tiles, engines, cameras (NO_TILES) -/

/-- R288: links that a camera names badly. -/
def camLinksBad (c : Nat) (cfg : Word) : Bool :=
  let n := 2 ^ bitsOf cfg 2 2
  c < 16 && (decide (8 ≤ n) || c % n != 0 || decide (8 < c % 8 + n))

/-- Cameras that stay bound, with their links' owners. -/
def State.otherCams (s : State) (img : Tjl) : List Nat := (s.staying img).flatMap fun p => (s.info p).cams

/-- R64: the chain of a tile goes on to a tile that is no array tile of the die, takes no beats from it, or is not at the next
position. -/
def chainBad (y : State) (t : Nat) : Bool :=
  let c := y.rd (reg t 0x0080)
  let out := bitsOf c 3 3
  let n := chainNext t out
  let x := t % 32
  let east := out % 2 == 1
  let off := (east && x % 16 == 15) || (!east && x % 16 == 0) || (out ≤ 2 && decide (t < 32))
  kindOf t == .at && bitOf c 31 && (decide (95 < bitsOf c 6 7) || (out != 0 && (decide (4 < out) || off || kindOf n != .at ||
    !y.flag (reg n 0x0080) 31 || y.rf (reg n 0x0080) 0 3 != chainFrom out || y.rf (reg n 0x0080) 6 7 != bitsOf c 6 7 + 1)))

/-- R9, R64, R262, R288, R486. -/
def State.noTiles (s : State) (img : Tjl) (y : State) : Option Nat :=
  let stay := s.staying img
  let stops := (imgTiles img).map (·.stop)
  let infos := stay.map s.info
  let held (t : Nat) : Bool := infos.any fun i => i.stops.contains t
  let twice (t : Nat) : Bool := decide (1 < (stops.filter fun u => u == t).length)
  let tile := stops.find? fun t => held t || twice t || s.dbg.failed.contains t
  let slots := img.jobs.map fun j => (j.stop, j.slot)
  let job := img.jobs.find? fun j => !isEngine j.stop || decide (8 ≤ j.slot) || s.dbg.failed.contains j.stop ||
    decide (1 < (slots.filter fun x => x == (j.stop, j.slot)).length) ||
    infos.any fun i => i.jobs.any fun b => b.stop == j.stop && b.slot == j.slot
  let links (c : Nat) : List Nat := if c < 16 then camLinks c (y.rd (camReg c 0)) else []
  let others := (s.otherCams img).filter fun c => !img.cams.contains c
  let used := others.flatMap fun c => if c < 16 then camLinks c (s.rd (camReg c 0)) else []
  let cam := img.cams.find? fun c => camLinksBad c (y.rd (camReg c 0)) || (links c).any fun l =>
    used.contains l || img.cams.any fun d => d != c && (links d).contains l
  ((tile.orElse fun _ => job.map (·.stop)).orElse fun _ => cam.map fun c => y.camStop c).orElse fun _ => stops.find? (chainBad y)

/-! ## On-chip memory and HBM -/

/-- R101: the regions of a memory tile, as (first, count, kind). -/
def regionsOf (y : State) (t : Nat) : List (Nat × Nat × Nat) :=
  ((List.range 8).map fun n =>
    let w := y.rd (reg t (0x40 + 8 * n))
    (bitsOf w 0 15, bitsOf w 16 15, y.rf (reg t (0x44 + 8 * n)) 0 3)).filter fun r => r.2.2 != 0

def regionsBad (rs : List (Nat × Nat × Nat)) : Bool :=
  rs.any (fun r => decide (6 ≤ r.2.2)) || decide (cellsPerTile < (rs.map fun r => r.2.1).sum) ||
    decide (1 < (rs.filter fun r => r.2.2 == 1).length) ||
    rs.zipIdx.any fun a => rs.zipIdx.any fun b => a.2 != b.2 && decide (a.1.1 < b.1.1 + b.1.2.1) &&
      decide (b.1.1 < a.1.1 + a.1.2.1)

/-- R190: an enabled writer whose ring does not lie in one line-ring region. -/
def writerRingBad (y : State) (t : Nat) : Bool :=
  (List.range 4).any fun k =>
    let a := y.rd (rwReg t k 4)
    let b := y.rd (rwReg t k 8)
    let first := bitsOf a 0 15
    let n := bitsOf b 16 12 * bitsOf b 0 13 * bitsOf a 15 7
    y.flag (rwReg t k 0) 0 && !(regionsOf y t).any fun r => r.2.2 == 3 && decide (r.1 ≤ first) && decide (first + n ≤ r.1 + r.2.1)

/-- R294: line buffers that two users name. -/
def State.buffersShared (s : State) (img : Tjl) (y : State) : Option Nat :=
  let others := (s.otherCams img).filter fun c => !img.cams.contains c
  let mine (c : Nat) : List Nat := camLinks c (y.rd (camReg c 0))
  let taken := others.flatMap fun c => camLinks c (s.rd (camReg c 0))
  (img.cams.find? fun c => (mine c).any fun l => taken.contains l || img.cams.any fun d => d != c && (mine d).contains l).map
    fun c => y.camStop c

/-- R15: a class A pipeline: none of its schedules fetches from HBM. -/
def classA (img : Tjl) (p : Nat) : Bool :=
  !(imgTiles img).any fun t => t.pipe == p && t.program.any fun b => holdsOp t.stop b.2 .fetch

/-- R64: the tiles of a chain from a tile on, at most n. -/
def chainTiles (y : State) (t : Nat) : Nat → List Nat
  | 0 => []
  | n + 1 =>
    let out := y.rf (reg t 0x0080) 3 3
    t :: (if out = 0 then [] else chainTiles y (chainNext t out) n)

/-- R65, R66: the granules that the image's weight messages write in a tile. -/
def tileGranules (img : Tjl) (y : State) (t : Nat) : Nat :=
  let c := y.rd (reg t 0x0080)
  let mine (w : Nat × ChainMsg) : Bool := decide (w.2.firstPos ≤ bitsOf c 6 7) && decide (bitsOf c 6 7 ≤ w.2.lastPos) &&
    (w.2.group == 63 || w.2.group == bitsOf c 13 6) && (chainTiles y w.1 96).contains t
  ((img.weights.filter mine).map fun w => w.2.ngran).sum

/-- R15: a tile of a class A pipeline whose weights do not fit on chip: some lie in HBM, or an array tile's weight store is too
small for them. -/
def weightsBad (img : Tjl) (y : State) (t : StopImage) : Bool :=
  classA img t.pipe && (img.regions.any (fun r => r.pipe == t.pipe && r.kind == .overflow) ||
    (kindOf t.stop == .at && decide (512 < tileGranules img y t.stop)))

/-- The job's descriptors in the image (R262). -/
def imgEngine (img : Tjl) (stop : Nat) : Engine :=
  { sram := (img.sram.filter fun x => x.1 == stop).foldl (fun t x => tput 0 t x.2.1 x.2.2) [] }

def imgDescs (img : Tjl) (j : JobBind) : List (Nat × Payload) :=
  let y : State := { eng := [(j.stop, imgEngine img j.stop)] }
  y.descList j.stop j.slot 0 j.desc 16384

/-- R262, R272, R285: what a job's descriptor takes of SRAM, as (address, bytes): itself, its parameters and tables in both copies,
its weights, its line buffer. -/
def descTakes (k : Kind) (d : Nat × Payload) : List (Nat × Nat) :=
  (64 * d.1, 64) ::
  (if k = .cz then
    let c := czDesc d.2 0
    let ps := if c.mode = 0 then [(c.pbase, 8 * c.cout), (c.pbase + 512, 8 * c.planes)] else [(c.pbase, 8 * c.cout)]
    ps ++ ps.map (fun r => (r.1 + 0x2000, r.2)) ++ (if c.mode = 0 then
        [(c.wbase, c.cout * c.planes * c.kh * c.kw), (c.lbase, c.bufBytes)]
      else [(c.wbase, c.cout * c.cinl)])
  else
    let c := sorDesc d.2 0
    if c.fn = 0 then c.ranges ++ c.ranges.map fun r => (r.1 + 0x2000, r.2) else [])

/-- R262: an engine whose descriptors, parameters, tables and line buffers exceed 1 MiB: by their places or by their sum. -/
def engineBad (img : Tjl) (stop : Nat) : Bool :=
  let rs := ((img.jobs.filter fun j => j.stop == stop).flatMap fun j => (imgDescs img j).flatMap (descTakes (kindOf stop))).eraseDups
  rs.any (fun r => decide (2 ^ 20 < r.1 + r.2)) || decide (2 ^ 20 < (rs.map (·.2)).sum)

/-- R15, R76, R101, R190, R262, R294. -/
def State.noSram (s : State) (img : Tjl) (y : State) : Option Nat :=
  let bad (t : StopImage) : Bool := weightsBad img y t ||
    (kindOf t.stop == .sft && decide (98304 < t.workBytes)) ||
      (kindOf t.stop == .mt && (regionsBad (regionsOf y t.stop) || writerRingBad y t.stop))
  (((((imgTiles img).find? bad).map (·.stop)).orElse fun _ => (img.sram.find? fun x => decide (2 ^ 20 ≤ x.2.1)).map (·.1)).orElse
    fun _ => (img.jobs.find? fun j => engineBad img j.stop).map (·.stop)).orElse fun _ => s.buffersShared img y

def stackBytes : Nat := 24 * 2 ^ 30

/-- R248: bytes of a spill reserve. -/
def reserveBytes (segs cells : Nat) : Nat := up4k (segs * (64 + 72 * cells))

/-- The bytes of regions, as (base, length), on a stack. -/
def regionBytes (stack : Nat) (rs : List (Nat × Nat)) : Nat := ((rs.filter fun r => stackOf r.1 == stack).map (·.2)).sum

/-- A camera's frame store as its registers lay it out. -/
def State.ringOf (s : State) (c : Nat) : Frame :=
  { seq := 0, cfg := s.rd (camReg c 0), frm := s.rd (camReg c 4), ring := s.rd (camReg c 8), geom := s.rd (camReg c 0xC) }

/-- R300: the rings of cameras, as (base, length). -/
def State.ringsOf (s : State) (cs : List Nat) : List (Nat × Nat) := cs.map fun c => ((s.ringOf c).base, (s.ringOf c).ringBytes)

/-- R16: what stays on a stack beside an image: the regions and rings of the pipelines that stay and the reserves of their images. -/
def State.stackKept (s : State) (img : Tjl) (stack : Nat) : Nat :=
  regionBytes stack (((s.staying img).flatMap fun p => (s.info p).regions) ++
      s.ringsOf ((s.otherCams img).eraseDups.filter fun c => !img.cams.contains c)) +
    ((s.keptImgs img).map fun l => reserveBytes (if stack = 0 then l.segA else l.segB) l.segCells).sum

/-- R15, R300: the regions of an image, with the rings of its cameras, as (base, length). -/
def imgRegions (img : Tjl) (y : State) : List (Nat × Nat) :=
  (img.regions.filter fun r => r.kind != .ring).map (fun r => (r.base, r.len)) ++ y.ringsOf img.cams

/-- R16: what an image places on a stack: its regions and its reserve, and no less than its manifest states (log 23). -/
def imgStack (img : Tjl) (y : State) (stack : Nat) : Nat :=
  max (if stack = 0 then img.hbmA else img.hbmB)
    (regionBytes stack (imgRegions img y) + reserveBytes (if stack = 0 then img.segA else img.segB) img.segCells)

/-- R11, R300: a camera of the image whose ring does not lie in the stack of its bound stop's die: that stack (log 23). -/
def ringStackBad (img : Tjl) (y : State) : Option Nat :=
  (img.cams.find? fun c =>
    let f := y.ringOf c
    let die := dieOf (y.camStop c)
    stackOf f.base != die || stackOf (f.base + f.ringBytes - 1) != die).map fun c => dieOf (y.camStop c)

/-- R11, R16, R486: a stack that does not hold its regions, a ring in the wrong stack, or a region on a failed pseudo-channel. -/
def State.noHbm (s : State) (img : Tjl) (y : State) : Option Nat :=
  let pc (n : Nat) (r : Nat × Nat) : Bool :=
    r.2 != 0 && stackOf r.1 == n / 32 && (decide (31 ≤ (r.1 + r.2 - 1) / 256 - r.1 / 256) ||
      (List.range 32).any fun i => decide (r.1 / 256 + i ≤ (r.1 + r.2 - 1) / 256) && (r.1 / 256 + i) % 32 == n % 32)
  if stackBytes < s.stackKept img 0 + imgStack img y 0 then some 0
  else if stackBytes < s.stackKept img 1 + imgStack img y 1 then some 1
  else (ringStackBad img y).orElse fun _ =>
    ((imgRegions img y).find? fun r => s.dbg.failedPc.any fun n => pc n r).map fun r => stackOf r.1

/-! ## Queues and buffers (NO_QUEUES) -/

/-- R103, R246: the cells that a tile's queues are charged. -/
def chargesOf (y : State) (t : Nat) : Nat :=
  ((List.range 64).map fun q =>
    if y.qbit t q 0 0 then (if y.qIsHandle t q then (y.qLimit t q + 7) / 8 else y.qLimit t q) else 0).sum

def queuesOf (y : State) (t : Nat) : Nat := ((List.range 64).filter fun q => y.qbit t q 0 0).length

/-- R103, R190, R246: the queues of a memory tile. -/
def queuesBad (y : State) (t : Nat) : Bool :=
  let pool := (y.poolCells t).length
  let window := if pool = 0 then 0 else 128
  let ws := ((List.range 4).filter fun k => y.flag (rwReg t k 0) 0).map fun k => y.rf (rwReg t k 0) 1 6
  decide (pool < chargesOf y t + window) || ws.any (fun q => y.qbit t q 0 0) || decide (ws.eraseDups.length ≠ ws.length)

/-- R38: lines of a camera with more than 4,096 lines that go to a tile in scale-stream mode. -/
def longLines (y : State) (c : Nat) : Option Nat :=
  if y.rf (camReg c 4) 0 15 ≤ 4096 then none
  else
    let st := y.camStop c
    let dests := ((List.range 4).filter fun d => y.flag (camReg c (0x40 + 0x10 * d)) 0 && !y.flag (camReg c (0x40 + 0x10 * d)) 1).map
      fun d => bitsOf (y.rtReg st (y.rf (camReg c (0x40 + 0x10 * d)) 2 4) 0) 0 9
    dests.find? fun t => (kindOf t == .at || kindOf t == .sft) && y.flag (reg t 0xE100) 2

/-- Memory tiles that pipelines which stay own. -/
def State.stayingMts (s : State) (img : Tjl) : List Nat :=
  ((s.staying img).flatMap fun p => (s.info p).stops).filter fun t => kindOf t == .mt

def State.noQueues (s : State) (img : Tjl) (y : State) : Option Nat :=
  let mts := ((imgTiles img).map (·.stop)).filter fun t => kindOf t == .mt
  let old := s.stayingMts img
  let queues := (mts.map (queuesOf y)).sum + (old.map (queuesOf s)).sum
  let bufs := (mts.map fun t => (y.buffers t).length).sum + (old.map fun t => (s.buffers t).length).sum
  if !img.blocksFit ∨ 8192 < queues ∨ 65536 < bufs then some 0
  else
    ((((img.skew.find? fun k => decide (y.qLimit k.stop k.q < k.minimum)).map (·.stop)).orElse fun _ =>
      mts.find? (queuesBad y)).orElse fun _ => img.cams.findSome? (longLines y)).orElse fun _ =>
        (img.jobs.find? fun j => kindOf j.stop == .cz && (imgDescs img j).any fun d =>
          let c := czDesc d.2 0
          c.mode == 0 && decide (4096 < c.outH)).map (·.stop)

/-! ## Sync objects (NO_SYNC) -/

def ownsObj (e : PipeEntry) (o : Nat) : Bool := decide (e.sync0 ≤ o) && decide (o < e.sync0 + e.syncN)

/-- R136, R416: allocations that clash, and bundles that name objects of others. -/
def State.noSync (s : State) (img : Tjl) : Option Nat :=
  let old := (s.staying img).map fun p => (s.info p).entry
  let clash (a b : PipeEntry) : Bool := decide (a.sync0 < b.sync0 + b.syncN) && decide (b.sync0 < a.sync0 + a.syncN)
  let alloc := img.pipes.find? fun e => decide (65536 < e.sync0 + e.syncN) || old.any (clash e) ||
    img.pipes.any fun f => f.id != e.id && clash e f
  (alloc.map (·.sync0)).orElse fun _ => (imgTiles img).findSome? fun t =>
    match img.pipes.find? fun e => e.id == t.pipe with
    | some e => t.program.findSome? fun b => (bundleObj b.2).filter fun o => !ownsObj e o
    | none => none

/-! ## Flows (NO_SLOTS) -/

/-- Flows in order against the entries taken so far: the first that clashes. -/
def slotClash : List Nat → List FlowDef → Option Nat
  | _, [] => none
  | taken, f :: r =>
    let mine := flowRegs f
    if mine.any taken.contains ∨ mine.eraseDups.length ≠ mine.length then some f.flow else slotClash (mine ++ taken) r

/-- R215: the route entries of a stop. -/
def routeBad (y : State) (flows : List FlowDef) (t : Nat) : Option Nat :=
  ((List.range 16).find? fun r => bitOf (y.rtReg t r 0) 31 &&
    ((y.rtReg t r 8 == 0 && y.rtReg t r 12 == 0) ||
      !flows.any fun f => f.flow == bitsOf (y.rtReg t r 4) 0 13 && f.src == t)).map fun r => bitsOf (y.rtReg t r 4) 0 13

def State.noSlots (s : State) (img : Tjl) (y : State) : Option Nat :=
  let old := s.flows.filter fun f => !(imgIds img).contains f.pipe
  let nums := img.flows.map (·.flow)
  let dup := img.flows.find? fun f => old.any (fun g => g.flow == f.flow) || decide (1 < (nums.filter fun n => n == f.flow).length) ||
    f.src == f.dst
  let taken := old.flatMap flowRegs
  let all := taken ++ img.flows.flatMap flowRegs
  let full := img.flows.find? fun f => (flowRegs f).any fun a => decide (8 ≤ (all.filter fun b => b / 32 == a / 32).length)
  let chan := (List.range 256).find? fun k => y.flag (chanReg k 4) 0 && y.rd (chanReg k 0xC) == 0 && y.rd (chanReg k 0x10) == 0
  let half (w : Nat × Word) : Option Nat :=
    if bitOf w.2 0 then (List.range 256).find? fun k => w.1 == chanReg k 0 else none
  let halves := img.globals.filterMap half
  let theirs := halves.find? fun k => decide (1 < (halves.filter fun j => linkStop (j / 32) == linkStop (k / 32) && j % 64 == k % 64).length) ||
    (s.flag (chanReg k 0) 0 && (s.loadedPipes.any fun p => p == s.rf (chanReg k 0) 2 6 && !(imgIds img).contains p))
  (((((dup.map (·.flow)).orElse fun _ => theirs.map fun k => y.rf (chanReg k 8) 0 13).orElse fun _ => slotClash taken img.flows).orElse fun _ =>
    img.stops.findSome? fun t => routeBad y (img.flows ++ old) t.stop).orElse fun _ => chan.map fun k => y.rf (chanReg k 8) 0 13).orElse
      fun _ => full.map (·.flow)

/-! ## Programs, descriptors and camera fields (PROGRAM) -/

/-- R267, R271, R272: a Crozier descriptor that the loader refuses. -/
def czRefused (p : Payload) : Bool :=
  let f := dsel p
  let d := czDesc p 0
  let first := d.mode == 0
  decide (2 ≤ d.mode) || f 0 31 1 != 0 || f 1 15 1 != 0 || f 1 31 1 != 0 || f 2 24 8 != 0 || f 5 24 8 != 0 ||
    [6, 7, 8].any (fun w => f w 20 12 != 0 || f w 0 6 != 0) || f 9 15 17 != 0 ||
    (List.range 6).any (fun i => f (10 + i) 0 32 != 0) || d.wIn == 0 || decide (16384 < d.wIn) || d.wOut == 0 ||
    decide (16384 < d.wOut) || decide (7 < d.kh) || decide (7 < d.kw) || f 0 16 2 == 3 ||
    (first && (d.rawfmt == 3 || d.h == 0 || decide (6 < d.padL) || decide (6 < d.padT) || decide (6 < d.padB) ||
      (d.bayer && (d.cin != 1 || d.wIn % 2 != 0 || d.h % 2 != 0)))) ||
    (!first && (d.kh != 1 || d.kw != 1 || d.st != 1 || decide (8 < d.cout) || decide (512 < d.cinl) || d.zpMode == 3))

/-- R274, R284: a Sorus descriptor that the loader refuses. -/
def sorRefused (p : Payload) : Bool :=
  let f := dsel p
  let d := sorDesc p 0
  let span := (d.na - 1) * d.astride
  let top := max (d.clsOff + d.ncls - 1) (d.boxOff + 4) + span
  decide (2 ≤ d.fn) || f 0 28 4 != 0 || f 1 26 6 != 0 || f 3 17 15 != 0 || f 8 20 12 != 0 || f 8 0 6 != 0 || f 9 15 17 != 0 ||
    (List.range 6).any (fun i => f (10 + i) 0 32 != 0) || f 1 13 2 == 3 || d.st == 0 || decide (64 < d.st) || d.keepMax == 0 ||
    decide (1024 < d.keepMax) || (d.fn == 0 && decide (63 < (if d.wide then 2 * top + 1 else top)))

/-- R290, R291: a camera's fields. -/
def camRefused (y : State) (c : Nat) : Bool :=
  let cfg := y.rd (camReg c 0)
  let frm := y.rd (camReg c 4)
  let fmt := bitsOf cfg 4 3
  let width := bitsOf cfg 16 15
  let lines := bitsOf frm 0 15
  let ovl := bitsOf frm 15 15
  decide (4 ≤ fmt) || width == 0 || decide (16384 < width) ||
    decide (64 * y.rf (camReg c 0xC) 16 16 < width * (if fmt = 1 ∨ fmt = 2 then 2 else 1)) ||
    lines == 0 || (if bitOf cfg 7 then decide (lines / 2 < ovl) else ovl != 0)

def badProgram (img : Tjl) (y : State) : Option Nat :=
  let prog (t : StopImage) : Option Nat :=
    let lq7 := y.flag (reg t.stop 0xE100) 2 && kindOf t.stop != .mt
    let hq (q : Nat) : Bool := y.qIsHandle t.stop q
    ((t.program.find? fun b => decide (4096 ≤ b.1) || bundleRefused (kindOf t.stop) hq lq7 b.2).map (·.1)).orElse
      fun _ => badLoop (loopsOf t.program)
  let xcfg (t : StopImage) : Option Nat :=
    if kindOf t.stop = .mt ∧ 64 < y.rf (reg t.stop 0x3080) 0 7 then some 0x3080 else none
  let desc (j : JobBind) : Option Nat :=
    ((imgDescs img j).find? fun d => if kindOf j.stop = .cz then czRefused d.2 else sorRefused d.2).map fun d => 64 * d.1
  ((((imgTiles img).findSome? prog).orElse fun _ => (imgTiles img).findSome? xcfg).orElse fun _ => img.jobs.findSome? desc).orElse
    fun _ => (img.cams.find? (camRefused y)).map fun c => camReg c 0

/-! ## The Capsule (CAPSULE_CONFLICT) -/

/-- R343. -/
def State.capsuleConflict (s : State) (img : Tjl) : Option Nat :=
  if !s.capUp then some 0
  else
    let on := paramIn s.cap.params 1 0
    let belt (e : PipeEntry) : Option Nat := (List.range 8).find? fun b => e.belts / 2 ^ b % 2 == 1 && on / 2 ^ b % 2 == 0
    (img.pipes.findSome? belt).orElse fun _ => (img.pipes.find? fun e => e.swid != 0 && e.swid != s.cap.swid).map fun _ => 0

/-! ## The first pass -/

/-- R325, R331, R415: manifest fields that disagree: the offset. -/
def State.badVersion (s : State) (img : Tjl) : Option Nat :=
  if img.format ≠ 1 then some 0x000
  else if img.part ≠ 0x9648 then some 0x004
  else if img.steps / 2 % 2 = 0 then some 0x006
  else if img.devId ≠ s.devId ∨ (!s.loadedPipes.isEmpty ∧ img.domain ≠ s.rf 0x00508000 8 4) then some 0x010
  else if img.channels ∧ img.digest ≠ BitVec.ofNat 256 (s.rdWide 0x00508020 8) then some 0x020
  else none

/-- R415: the counts of the manifest, as (offset, bytes, what the image holds). -/
def manifestCounts (img : Tjl) (y : State) : List (Nat × Nat × Nat) :=
  let tiles (k : Kind) : List Nat := ((imgTiles img).filter fun t => kindOf t.stop == k).map (·.stop)
  let jobs (k : Kind) : Nat := (img.jobs.filter fun j => kindOf j.stop == k).length
  [(0x40, 2, (tiles .at).length), (0x42, 2, (tiles .mt).length), (0x44, 2, (tiles .sft).length),
   (0x46, 2, ((tiles .mt).map (queuesOf y)).sum), (0x48, 2, img.flows.length), (0x4A, 1, jobs .cz), (0x4B, 1, jobs .sor),
   (0x50, 4, ((tiles .mt).map fun t => (y.buffers t).length).sum), (0x54, 4, (img.pipes.map (·.syncN)).sum)]

/-- R415, R416: a manifest whose counts are not those of the image's sections is malformed (log 11): its section's index. -/
def countsBad (img : Tjl) (y : State) : Option Nat :=
  if (manifestCounts img y).any fun c => numAt img.manifest c.1 c.2.1 != c.2.2 then img.dir.findIdx? fun e => numAt e 0 2 == 1 else none

/-- R416: the first check that fails: its code and detail. -/
def State.loadCheck (s : State) (len kind : Nat) (force : Bool) (obj : SignedObj) (img : Tjl) : Option (Nat × Nat) :=
  let y := imgRegs img
  let at_ (code : Nat) (d : Option Nat) : Option (Nat × Nat) := d.map fun x => (code, x)
  let loaded := (imgIds img).find? fun p => s.pstate p != psUnloaded && s.pstate p != psCrust && !force
  match s.verify obj 4 with
  | some c => some (c, 0)
  | none =>
    let form := if img.kind ≠ kind ∨ len ≠ obj.objLen then some 0
      else (img.dirErr (0x1000 + obj.bodyLen)).orElse fun _ => countsBad img y
    let lat := if img.profile = 1 ∨ img.profile = 2 then none else some 0
    [at_ 1 form, at_ 2 img.digestErr, at_ 3 (s.badVersion img), at_ 4 lat, at_ 5 loaded, at_ 6 (s.noTiles img y),
     at_ 7 (s.noSram img y), at_ 8 (s.noHbm img y), at_ 9 (s.noQueues img y), at_ 10 (s.noSync img), at_ 11 (s.noSlots img y),
     at_ 12 (badProgram img y), at_ 13 (s.capsuleConflict img)].findSome? id

end Sys2Proof.Machine
end

