-- ==== Sys2Proof/Machine/Loader.lean ====
section
/-! DEFINITION. LOAD of pipelines (R412, R416, R257, R490) and configuration updates (R253 to R257, R285). -/

namespace Sys2Proof.Machine

/-! ## Tiles (R490) -/

/-- R490: the bits of a tile's register that a load keeps: memory health, router and hazard registers. -/
def keptBits (k : Kind) (off : Nat) : Word :=
  if 0xF000 ≤ off ∨ off = 0xD018 ∨ off = 0xD01C then BitVec.allOnes 32
  else if off = 0xD008 then 3
  else if off = 0x0204 ∨ off = 0x0208 ∨ off = 0x020C then BitVec.allOnes 32
  else if off = 0x0200 then (match k with
    | .at => 0x1C
    | .mt => 7
    | _ => BitVec.allOnes 32)
  else 0

/-- R490, R155: a tile before the image's writes: registers, schedule, queues and datapath as after reset, program memory
empty; its memories keep their bytes. -/
def State.resetTile (s : State) (t : Nat) : State :=
  let k := kindOf t
  let lo := reg t 0
  let mine (a : Nat) : Bool := decide (lo ≤ a) && decide (a < lo + 0x10000)
  let regs := s.regs.filterMap fun e =>
    if mine e.1 then
      let m := keptBits k (e.1 - lo)
      let v := (regReset e.1 &&& ~~~m) ||| (e.2 &&& m)
      if v = regReset e.1 then none else some (e.1, v)
    else some e
  let s := { s with regs := regs
                    pmem := s.pmem.filter fun e => e.1 / 4096 != t
                    lq := s.lq.filter fun e => e.1 / 8 != t
                    mon := s.mon.filter fun e => e.1 / 8 != t
                    reads := s.reads.filter fun r => r.stop != t }
  let s := (s.setSch t {}).setPair t none
  match k with
  | .at =>
    let a := s.atile t
    s.setAt t { ws := a.ws, wsUe := a.wsUe, wsCe := a.wsCe }
  | .mt =>
    let m := s.mtile t
    s.setMt t { banks := m.banks, bkUe := m.bkUe, bkCe := m.bkCe, side := m.side, sideUe := m.sideUe }
  | .sft =>
    let x := s.sftile t
    s.setSft t { lm := x.lm, lmUe := x.lmUe, lmCe := x.lmCe }
  | _ => s

/-- R226, R228, R234: the paddings of a kind under a profile. -/
def paddings (k : Kind) (profile : Nat) : Word :=
  if profile ≠ 1 then 0 else match k with
  | .at => 0x2013
  | .mt => 0x12
  | .sft => 0x24012101
  | _ => 0

/-- A byte of a memory that BAR2 maps, written by the loader. -/
def State.loadByte (s : State) (a : Nat) (v : Byte) : State :=
  match bar2Word a with
  | some (m, stop, w) => s.memPut m stop w ((s.memBytes m stop w).set (a % 8) v)
  | none => s

def stopBar2 (stop : Nat) : Nat := 0xC00000000 + stop * 0x1000000

/-- R228, R415: a stop image is written: a tile first returns to its state of R490. -/
def State.loadStop (s : State) (img : Tjl) (t : StopImage) : State :=
  let tile := isTile t.stop
  let s := if tile then
      let s := (s.resetTile t.stop).wf (reg t.stop 8) 0 16 (s.pipeEpoch t.pipe).toNat
      let s := s.wf (reg t.stop 0xD404) 0 2 img.profile
      let s := if kindOf t.stop = .mt then s else s.wf (reg t.stop 0x0020) 0 8 (s.rf (epochReg t.pipe) 16 8)
      { s with pmem := tputAll 0 s.pmem (t.program.map fun b => (t.stop * 4096 + b.1 % 4096, b.2)) }
    else s
  let s := t.regs.foldl (fun s w => s.loadReg (reg t.stop w.1) w.2) s
  let s := if tile then ((s.wf (reg t.stop 4) 0 6 t.pipe).setFlag (reg t.stop 4) 31).wr (reg t.stop 0xD400) (paddings (kindOf t.stop) img.profile)
    else s
  let s := t.bar2.foldl (fun s b => s.loadByte (stopBar2 t.stop + b.1) b.2) s
  if kindOf t.stop = .mt then
    let pool := s.poolCells t.stop
    (s.modMt t.stop fun m => { m with free := pool }).fillFree t.stop |>.startFrames t.stop
  else s

/-- R262, R490: a job is bound; its slot's records go. -/
def State.bindJob (s : State) (j : JobBind) : State :=
  let s := [0, 4, 8, 0xC].foldl (fun s o => s.wr (jobReg j.stop j.slot o) 0) s
  let r := jobReg j.stop j.slot 0
  let s := ((s.setFlag r 0).wf r 1 6 j.pipe).wf r 8 14 j.desc
  let s := s.wf (jobReg j.stop j.slot 4) 0 24 ((s.rd (epochReg j.pipe)).toNat % 2 ^ 24)
  let s := s.setJob j.stop j.slot {}
  let e := s.engAt j.stop
  let s := s.setEng j.stop { e with recs := e.recs.filter fun x => x.slot != j.slot }
  if kindOf j.stop = .sor then s.showRecs j.stop else s

/-! ## Weights -/

/-- R65, R66, R67: chain messages of the load run down their chains to the end, at most n steps; the lists say what the links
of the steps invert. -/
def State.runChain (s : State) (flips : List (List Flip)) : Nat → State
  | 0 => s
  | n + 1 =>
    match s.chain with
    | [] => s
    | c :: rest => (State.chainAt { s with chain := rest } c.stop c.msg c.port (flips.headD [])).runChain flips.tail n

/-- R415, section 3, R418: the image's weight messages; their end signals arrive before the load completes (log 23). -/
def State.loadWeights (s : State) (ws : List (Nat × ChainMsg)) (flips : List (List Flip)) : State :=
  let others := s.chain
  let sent := s.mesh.uns
  let s := { s with chain := ws.map fun (w : Nat × ChainMsg) => ({ stop := w.1, msg := w.2 } : ChainFly)
                    mesh := { s.mesh with uns := [] } }
  let s := s.runChain flips (97 * ws.length)
  let new := s.mesh.uns
  let s := { s with chain := others, mesh := { s.mesh with uns := sent } }
  let s := new.foldl (fun s u => match u.msg with
    | .op m => s.syncOp m
    | _ => { s with mesh := { s.mesh with uns := s.mesh.uns ++ [u] } }) s
  let ends := (new.filter fun u => match u.msg with
    | .op _ => true
    | _ => false).length
  if ws.isEmpty then s else s.progress 1 ends (ws.filter fun w => w.2.sigEn).length

/-! ## Pipelines -/

/-- R215: the slot tables of a flow. -/
def State.bindFlow (s : State) (f : FlowDef) : State :=
  (flowRegs f).foldl (fun s a => s.wr a (BitVec.ofNat 32 (f.flow % 2 ^ 13 + 2 ^ 15))) s

/-- R16, R248: the reserve of an image on a die's stack: first segment number and base address, below those of the loaded
images (log 23). -/
def State.reserveAt (s : State) (die segs cells : Nat) : Nat × Nat :=
  let top := if die = 0 then 0x600000000 else 0xC00000000
  let first := s.gov.imgs.foldl (fun n l => max n (if die = 0 then l.firstA + l.segA else l.firstB + l.segB)) 0
  let low := s.gov.imgs.foldl (fun n l => min n (if die = 0 then l.baseA else l.baseB)) top
  (first, low - reserveBytes segs cells)

/-- R248, R415: the image is recorded and its segments are free. -/
def State.recordImage (s : State) (obj : SignedObj) (img : Tjl) : State :=
  let a := s.reserveAt 0 img.segA img.segCells
  let b := s.reserveAt 1 img.segB img.segCells
  let l : Loaded := { digest := obj.digest, profile := img.profile, pipes := imgIds img, hbmA := img.hbmA, hbmB := img.hbmB
                      segCells := img.segCells, segA := img.segA, segB := img.segB, firstA := a.1, firstB := b.1
                      baseA := a.2, baseB := b.2 }
  let add (s : State) (die first n : Nat) : State :=
    let all := tget [] s.segs die ++ (List.range n).map fun i => first + i
    { s with segs := tput [] s.segs die all }.wf 0x8010 (16 * die) 16 all.length
  add (add { s with gov := { s.gov with imgs := s.gov.imgs ++ [l] } } 0 a.1 img.segA) 1 b.1 img.segB

/-- The cameras that an image binds for a pipeline: those with a delivery to it, or every one of an image of one
pipeline. -/
def State.camsFor (s : State) (img : Tjl) (p : Nat) : List Nat :=
  if img.pipes.length = 1 then img.cams
  else img.cams.filter fun c => (List.range 4).any fun d =>
    s.flag (camReg c (0x40 + 0x10 * d)) 0 && s.rf (camReg c (0x40 + 0x10 * d)) 6 6 == p

/-- R412, R415: what the governor keeps of a pipeline. -/
def State.pipeInfo (s : State) (obj : SignedObj) (img : Tjl) (e : PipeEntry) : PipeInfo :=
  let i : PipeInfo :=
  { entry := e
    doms := []
    stops := ((imgTiles img).filter fun t => t.pipe == e.id).map (·.stop)
    jobs := img.jobs.filter fun j => j.pipe == e.id
    cams := s.camsFor img e.id
    regions := (img.regions.filter fun r => r.pipe == e.id && r.kind != .ring).map fun r => (r.base, r.len)
    syncInit := img.syncInit.filter fun x => ownsObj e x.1
    ends := img.ends
    signals := img.signals
    skew := img.skew
    channels := img.channels
    peers := (img.peers.filter fun x => x.1 == e.id).map (·.2)
    digest := obj.digest }
  { i with doms := s.unitDomains i }

/-- R291, R298, R300, R301, R307: a camera bound by the load: its frames count from 0 and its ring's header is written; with a
frame in progress, at its next frame start. -/
def State.bindCam (s : State) (c : Nat) : State :=
  if (s.cam c).frames.isEmpty then
    let s := s.rebind c
    let r (o : Nat) : Word := s.rd (camReg c o)
    let f : Frame := { seq := 0xFFFFFFFF, cfg := r 0, frm := r 4, ring := r 8, geom := r 0xC }
    s.hbmPut f.base (f.header c 0xFFFFFFFF)
  else s.modCam c fun x => { x with rebound := true }

/-- R221: a pipeline that is loaded raises the islands that stand below its minimum. -/
def State.raiseIslands (s : State) (p : Nat) : State :=
  let mine := (s.info p).stops ++ (s.info p).jobs.map (·.stop)
  let islands := mine.foldl (fun t n => tput 16 t n (max (tget 16 t n) (s.info p).entry.m)) s.pwr.islands
  { s with pwr := { s.pwr with islands := islands } }

/-- R366, R367, R412: a pipeline of the image becomes LOADED. -/
def State.enrol (s : State) (obj : SignedObj) (img : Tjl) (e : PipeEntry) : State :=
  let p := e.id
  let s := s.setPipe p { info := some (s.pipeInfo obj img e) }
  let s := s.wr (0x00700100 + 4 * p) (BitVec.ofNat 32 (e.belts % 256 + e.ring % 64 * 256))
  let s := (s.syncInit p).modPipe p fun x =>
    { x with ctr := tputAll 0 [] [(15, s.errSum p 0), (16, s.errSum p 1), (17, s.errSum p 2), (19, s.errSum p 3)] }
  ((s.showImage p img.profile obj.digest).setPstate p psLoaded).raiseIslands p

/-- R416: the second pass of an image that has passed its checks. -/
def State.writeImage (s : State) (obj : SignedObj) (img : Tjl) (flips : List (List Flip)) : State :=
  let s := if s.loadedPipes.isEmpty then s.wf 0x00508000 8 4 img.domain else s
  let s := img.stops.foldl (fun s t => s.loadStop img t) s
  let s := img.sram.foldl (fun s x => s.loadByte (stopBar2 x.1 + 0x100000 + x.2.1 % 2 ^ 20) x.2.2) s
  let s := img.jobs.foldl State.bindJob s
  let s := img.globals.foldl (fun s w => s.loadReg w.1 w.2) s
  let s := img.flows.foldl State.bindFlow { s with flows := s.flows ++ img.flows }
  let s := img.hbm.foldl (fun s x => s.hbmPut x.1 [x.2]) s
  let s := (List.range 256).foldl (fun s k =>
    if img.globals.any fun w => w.1 == chanReg k 0 || w.1 == chanReg k 4 then s.wr (chanReg k 0x18) 0 else s) s
  let s := (s.loadWeights img.weights flips).recordImage obj img
  let s := img.cams.foldl State.bindCam s
  img.pipes.foldl (fun s e => s.enrol obj img e) s

/-- R257, R412: a replaced pipeline is halted, emptied and unloaded; its frame epoch and configuration epoch have
advanced. -/
def State.replace (s : State) (p : Nat) : State :=
  let e := s.rd (epochReg p)
  let s := s.unloadPipe p
  s.wr (epochReg p) (BitVec.ofNat 32 ((bitsOf e 0 16 + 1) % 2 ^ 16 + (bitsOf e 16 8 + 1) % 2 ^ 8 * 2 ^ 16))

/-- R257: a reloaded pipeline that ran runs again. -/
def State.rerun (s : State) (p : Nat) : State :=
  ((s.goAll p).modPipe p fun x => { x with probeAt := s.time }).setPstate p psRunning

/-- R431: the domains that an image targets. -/
def imgDomains (img : Tjl) : List Nat :=
  ((img.stops.map fun t => stopDomain t.stop) ++ (img.jobs.map fun j => stopDomain j.stop) ++
    img.regions.map fun r => stackDom r.base).eraseDups

/-- R485: the image uses a domain under test. -/
def State.loadBlocked (s : State) (img : Tjl) : Bool :=
  s.flag 0x00330104 0 && (imgDomains img).any fun d => s.dbg.mask / 2 ^ d % 2 == 1

def maskOf (ps : List Nat) : Nat := (ps.eraseDups.map fun p => 2 ^ p).sum

/-- The result of a LOAD (R411). -/
def loadResult (obj : SignedObj) (img : Tjl) : List Byte := leBytes (maskOf (imgIds img)) 8 ++ leBytes obj.digest.toNat 16

/-- R251, R253, R257: the epochs of the image's pipelines before its tiles are written: those that it replaces are halted, emptied
and unloaded with their epochs advanced; those of the others are 0 after the load. -/
def State.freshEpochs (s : State) (img : Tjl) (old : List Nat) : State :=
  (imgIds img).foldl (fun s p => if old.contains p then s.replace p else s.wr (epochReg p) 0) s

/-- R431: the domains that a LOAD which is accepted waits for. -/
def State.loadDomains (s : State) (c : Cmd) (obj : SignedObj) (img : Tjl) : List Nat :=
  if c.arg 0x1C 0 2 ≠ 0 ∨ c.arg 0x10 0 6 ≠ 0 ∨ s.loadBlocked img ∨
      (s.loadCheck (c.arg 0x18 0 32) 0 (c.arg 0x1C 2 1 == 1) obj img).isSome then []
  else imgDomains img

/-- R411, R416: LOAD of pipelines. A pipeline in crust mode leaves it only through a load that succeeds (R20). -/
def State.loadPipes (s : State) (c : Cmd) (obj : SignedObj) (img : Tjl) (changed : Bool)
    (flips : List (List Flip)) : State :=
  let len := c.arg 0x18 0 32
  let n := (len + 63) / 64
  if c.arg 0x1C 0 2 ≠ 0 ∨ c.arg 0x10 0 6 ≠ 0 then s.complete c stBadarg
  else if s.loadBlocked img then s.complete c stState
  else
    let s := s.progress 0 0 (2 * n)
    match s.loadCheck len 0 (c.arg 0x1C 2 1 == 1) obj img with
    | some (code, detail) => s.complete c stRefused code detail
    | none =>
      let old := s.replaced img
      let ran := old.filter fun p => s.pstate p == psRunning
      let s := s.progress 0 n (2 * n)
      if changed then ((old.filter fun p => s.pstate p != psCrust).foldl State.replace s).complete c stAborted
      else
        let s := ran.foldl State.rerun ((s.freshEpochs img old).writeImage obj img flips)
        let s := if obj.ratchet then s.ratchet obj else s
        (s.progress 0 (2 * n) (2 * n)).complete c stOk 0 0 (loadResult obj img)

/-! ## Configuration updates -/

/-- R253, R261: the pending copy's register of an updatable one, by kind and offset. -/
def pendingReg (k : Kind) (off : Nat) : Option Nat :=
  if (k = .at ∨ k = .sft) ∧ 0x0100 ≤ off ∧ off < 0x0180 then some (off + 0x80)
  else if k = .at ∧ 0x1000 ≤ off ∧ off < 0x1800 then some (off + 0x2000)
  else if k = .at ∧ 0x2000 ≤ off ∧ off < 0x2800 then some (off + 0x1800)
  else if k = .sft ∧ 0x1000 ≤ off ∧ off < 0x1400 then some (off + 0x1000)
  else none

/-- R285: the bits of a descriptor that an update may change. -/
def updatable (k : Kind) : Payload :=
  if k = .cz then BitVec.ofNat 512 (0xFFFFFF * 2 ^ 128)
  else BitVec.ofNat 512 (0xFFFFFFFF * 2 ^ 64 + 0x3FF8000 * 2 ^ 32 + 0xFFFFFFFF * 2 ^ 128 + (2 ^ 64 - 1) * 2 ^ 192)

/-- R285: the parameters of a descriptor, as spans (address, bytes, how many of them an update may change). -/
def paramSpans (k : Kind) (p : Payload) : List (Nat × Nat × Nat) :=
  if k = .cz then
    let d := czDesc p 0
    (d.pbase, 8 * d.cout, 8 * d.cout) :: (if d.mode = 0 then [(d.pbase + 512, 8 * d.planes, 8 * d.planes)] else [])
  else
    let d := sorDesc p 0
    if d.fn = 0 then [(d.pbase, 4164, 40)] else []

/-- The 64 bytes at a place of an engine's SRAM as an image has them, over what stands there. -/
def overlay (bytes : List (Nat × Byte)) (a : Nat) (old : Payload) : Payload :=
  payloadOf ((List.range 64).map fun i => ((bytes.find? fun b => b.1 == a + i).map (·.2)).getD (byteAt old i))

/-- The image's bytes for an engine. -/
def engBytes (img : Tjl) (stop : Nat) : List (Nat × Byte) := (img.sram.filter fun x => x.1 == stop).map (·.2)

/-- R253, R285: a byte of an engine that an update would change and may not. -/
def State.engFixed (s : State) (img : Tjl) (j : JobBind) : Bool :=
  let bs := engBytes img j.stop
  let k := kindOf j.stop
  let cpy := s.jobCpy j.stop j.slot
  let e := s.engAt j.stop
  let ds := s.jobDescs j.stop j.slot cpy
  let inDesc (a : Nat) : Bool := ds.any fun d => decide (64 * d.1 ≤ a) && decide (a < 64 * d.1 + 64)
  let inSpan (a : Nat) : Bool := ds.any fun d => (paramSpans k d.2).any fun p => decide (p.1 ≤ a) && decide (a < p.1 + p.2.2)
  ds.any (fun d => (overlay bs (64 * d.1) d.2 &&& ~~~(updatable k)) != (d.2 &&& ~~~(updatable k))) ||
    bs.any fun b => !inDesc b.1 && !inSpan b.1 && tget 0 e.sram b.1 != b.2

/-- R253: what the manifest of an update would change of a pipeline, beside its tiles and jobs. -/
def State.manifestChanges (s : State) (obj : SignedObj) (img : Tjl) (e : PipeEntry) : Bool :=
  let old := s.info e.id
  { s.pipeInfo obj img e with doms := old.doms, stops := old.stops, jobs := old.jobs, digest := old.digest } != old ||
    !(s.imageOf e.id).any fun l => l.profile == img.profile && l.segCells == img.segCells && l.segA == img.segA && l.segB == img.segB &&
      l.hbmA == img.hbmA && l.hbmB == img.hbmB

/-- R253: what an update may not change and would. -/
def State.changesMore (s : State) (obj : SignedObj) (img : Tjl) : Bool :=
  let bound (p : Nat) : List Nat := (s.info p).stops
  let regBad (t : StopImage) (w : Nat × Word) : Bool :=
    (pendingReg (kindOf t.stop) w.1).isNone && (s.rd (reg t.stop w.1) &&& loadBits (reg t.stop w.1)) != (w.2 &&& loadBits (reg t.stop w.1))
  let stopBad (t : StopImage) : Bool :=
    !(isTile t.stop && (bound t.pipe).contains t.stop) || t.regs.any (regBad t) ||
      t.program.any (fun b => s.bundleAt t.stop (b.1 % 4096) != b.2) ||
      t.bar2.any fun b => match bar2Word (stopBar2 t.stop + b.1) with
        | some (m, st, w) => (s.memBytes m st w).getD (b.1 % 8) 0 != b.2
        | none => false
  let jobs := (imgIds img).flatMap fun p => (s.info p).jobs
  !img.weights.isEmpty || img.flows.any (fun f => !s.flows.contains f) || img.stops.any stopBad ||
    img.hbm.any (fun x => tget 0 s.hbm.bytes x.1 != x.2) ||
    img.globals.any (fun w => (s.rd w.1 &&& loadBits w.1) != (w.2 &&& loadBits w.1)) ||
    img.jobs.any (fun j => !jobs.contains j) || img.sram.any (fun x => !jobs.any fun j => j.stop == x.1) ||
    jobs.any (s.engFixed img) ||
    img.pipes.any (s.manifestChanges obj img)

/-- R253, R254: a tile's pending copy: the active one with the image's writes; the tile is armed. -/
def State.armTile (s : State) (img : Tjl) (t epoch frame : Nat) : State :=
  let k := kindOf t
  if k ≠ .at ∧ k ≠ .sft then s
  else
    let copy (s : State) (first n : Nat) : State :=
      (List.range n).foldl (fun s i => match pendingReg k (first + 4 * i) with
        | some o => s.wr (reg t o) (s.rd (reg t (first + 4 * i)))
        | none => s) s
    let s := copy s 0x0100 32
    let s := if k = .at then copy (copy s 0x1000 512) 0x2000 512 else copy s 0x1000 256
    let ws := (img.stops.filter fun x => x.stop == t).flatMap (·.regs)
    let s := ws.foldl (fun s w => match pendingReg k w.1 with
      | some o => s.loadReg (reg t o) w.2
      | none => s) s
    let c := reg t 0x0020
    ((s.wf c 8 8 epoch).wf c 16 4 frame).setFlag c 20

/-- R253, R254, R285: a job's pending copy; the job is armed. -/
def State.armJob (s : State) (img : Tjl) (j : JobBind) (epoch frame : Nat) : State :=
  let bs := engBytes img j.stop
  let cpy := s.jobCpy j.stop j.slot
  let ds := s.jobDescs j.stop j.slot cpy
  let e := s.engAt j.stop
  let fresh := ds.map fun d => (d.1, overlay bs (64 * d.1) d.2)
  let params (t : Tbl Byte) (p : Nat × Nat × Nat) : Tbl Byte :=
    let now := (List.range p.2.1).map fun i =>
      ((bs.find? fun b => b.1 == p.1 + i).map (·.2)).getD (tget 0 e.sram (p.1 + 0x2000 * cpy + i))
    putBytes t (p.1 + 0x2000 * (1 - cpy)) now
  let sram := (ds.flatMap fun d => paramSpans (kindOf j.stop) d.2).foldl params e.sram
  let sram := if cpy = 1 then fresh.foldl (fun t d => putBytes t (64 * d.1) (payloadBytes d.2)) sram else sram
  let s := s.setEng j.stop { e with sram := sram }
  let x := s.jobAt j.stop j.slot
  let keep := ds.map fun d => (d.1, d.2)
  s.setJob j.stop j.slot { x with armed := some (frame, epoch), alt := if cpy = 0 then fresh else keep }

/-- R254: the frame that a pipeline's source delivers, modulo 16, if it has a source. -/
def State.sourceFrame (s : State) (p : Nat) : Option Nat :=
  ((s.info p).cams.head?).map fun c => (s.rd (camReg c 0x20)).toNat % 16

/-- R254: every stage of a pipeline is armed with F and the new epoch; the source comes last. -/
def State.armPipe (s : State) (c : Cmd) (obj : SignedObj) (img : Tjl) (p : Nat) : State :=
  let f := ((s.sourceFrame p).getD 0 + 2) % 16
  let epoch := (s.rf (epochReg p) 16 8 + 1) % 256
  let i := s.info p
  let s := i.stops.foldl (fun s t => s.armTile img t epoch f) s
  let s := i.jobs.foldl (fun s j => s.armJob img j epoch f) s
  s.modPipe p fun x => { x with update := some { frame := f, epoch := epoch, start := s.time, cmd := c, mask := maskOf (imgIds img), digest := obj.digest } }

/-- R253, R284: a descriptor that an update would leave outside the limits of R272 or R284: its place. -/
def State.updateProgram (s : State) (img : Tjl) : Option Nat :=
  (((imgIds img).flatMap fun p => (s.info p).jobs).flatMap fun j =>
    (s.jobDescs j.stop j.slot (s.jobCpy j.stop j.slot)).map fun d => (j.stop, d.1, overlay (engBytes img j.stop) (64 * d.1) d.2)).findSome?
      fun x => if (if kindOf x.1 = .cz then czRefused x.2.2 else sorRefused x.2.2) then some (64 * x.2.1) else none

/-- R253, R254: the check of an update: the first that fails. -/
def State.updateCheck (s : State) (len : Nat) (obj : SignedObj) (img : Tjl) : Option (Nat × Nat) :=
  match s.verify obj 4 with
  | some c => some (c, 0)
  | none =>
    if img.kind ≠ 2 ∨ len ≠ obj.objLen then some (1, 0)
    else match img.dirErr (0x1000 + obj.bodyLen), img.digestErr, s.badVersion img with
      | some d, _, _ => some (1, d)
      | none, some d, _ => some (2, d)
      | none, none, some d => some (3, d)
      | none, none, none =>
        if s.changesMore obj img then some (3, 0)
        else if (img.profile ≠ 1 ∧ img.profile ≠ 2) ∨ (imgIds img).any fun p => decide (4000000 < (s.info p).entry.rate) then some (4, 0)
        else (s.updateProgram img).map fun d => (12, d)

/-- R253, R254: LOAD of kind 2: pending copies are written and every stage is armed. -/
def State.updateCmd (s : State) (c : Cmd) (obj : SignedObj) (img : Tjl) : State :=
  let len := c.arg 0x18 0 32
  let n := (len + 63) / 64
  let busy (p : Nat) : Bool := s.pstate p != psRunning || (s.pipeAt p).update.isSome
  if c.arg 0x10 0 6 ≠ 0 then s.complete c stBadarg
  else if s.loadBlocked img ∨ (imgIds img).isEmpty ∨ (imgIds img).any busy then s.complete c stState
  else
    let s := s.progress 0 0 (2 * n)
    match s.updateCheck len obj img with
    | some (code, detail) => s.complete c stRefused code detail
    | none =>
      let s := if obj.ratchet then s.ratchet obj else s
      (imgIds img).foldl (fun s p => s.armPipe c obj img p) (s.progress 0 n (2 * n))

/-- An update of a pipeline is over; the command completes with the last one of its image. -/
def State.updateDone (s : State) (p : Nat) (u : Update) : State :=
  let s := s.modPipe p fun x => { x with update := none, info := x.info.map fun i => { i with digest := u.digest } }
  let s := s.wf (pipeReg p) 16 16 (u.digest.toNat % 65536)
  let s := { s with gov := { s.gov with
    imgs := s.gov.imgs.map fun l => if l.pipes.contains p then { l with digest := u.digest } else l } }
  if s.gov.pipes.any fun x => x.2.update.any fun v => v.cmd == u.cmd then s
  else
    let n := (u.cmd.arg 0x18 0 32 + 63) / 64
    (s.progress 0 (2 * n) (2 * n)).complete u.cmd stOk 0 0 (leBytes u.mask 8 ++ leBytes u.digest.toNat 16)

/-- R256, R257: a stage that has not switched does so now. -/
def State.switchNow (s : State) (p : Nat) : State :=
  let i := s.info p
  let s := i.stops.foldl (fun s t => if (kindOf t = .at ∨ kindOf t = .sft) ∧ s.flag (reg t 0x0020) 20 then s.cfgSwitch t else s) s
  i.jobs.foldl (fun s j =>
    let x := s.jobAt j.stop j.slot
    match x.armed with
    | some (_, ep) =>
      ((s.setJob j.stop j.slot { x with armed := none }).wf (jobReg j.stop j.slot 0) 7 1 (1 - s.jobCpy j.stop j.slot)).wf
        (jobReg j.stop j.slot 4) 16 8 ep
    | none => s) s

/-- R257: a forced reload of a running pipeline with its updated configuration: halted, emptied with the frame epoch
advanced, switched, started again. -/
def State.reloadUpdated (s : State) (p : Nat) (u : Update) : State :=
  let i := s.info p
  let s := (s.haltAll p).purge p
  let s := s.advanceEpoch p
  let s := i.stops.foldl State.tileEpoch s
  let s := i.jobs.foldl (fun s j => s.jobEpoch j.stop j.slot) s
  let s := i.stops.foldl (fun s t => (s.setSch t { s.sch t with reqs := [], cancels := [] }).setSchState t schStopped) s
  let s := ((s.emptyAll p).switchNow p).clrFlag (epochReg p) 28
  let s := s.wf (epochReg p) 16 8 u.epoch
  ((s.syncInit p).goAll p).updateDone p u

/-- R256: frame f of the source, modulo 16, is F or comes after it: arming began two frames before F. -/
def pastFrame (f F : Nat) : Bool := (f + 16 - F % 16) % 16 < 14

/-- R254, R256: every acknowledgement is there in time: the source is armed, unless it has begun frame F. -/
def State.sourceArmed (s : State) (p : Nat) : State :=
  match (s.pipeAt p).update with
  | none => s
  | some u =>
    if u.start + 250000 ≤ s.time then s.reloadUpdated p u
    else match s.sourceFrame p with
    | none => (s.wf (epochReg p) 16 8 u.epoch).updateDone p u
    | some f =>
      if pastFrame f u.frame then s.reloadUpdated p u
      else ((s.wf (epochReg p) 24 4 u.frame).setFlag (epochReg p) 28).updateDone p u

/-- R256: an acknowledgement is missing 250 µs after the start. -/
def State.armTimeout (s : State) (p : Nat) : State :=
  match (s.pipeAt p).update with
  | none => s
  | some u => if s.time < u.start + 250000 then s else s.reloadUpdated p u

end Sys2Proof.Machine
end

