-- ==== Sys2Proof/Machine/LoadCommands.lean ====
section
/-! DEFINITION. The meanings of LOAD (R416) and of the commands of a configuration update (R254, R256). A command whose
condition does not hold changes nothing (log 2). -/

namespace Sys2Proof.Machine

/-- LOAD (R416). -/
def execLoad (k : Nat) (obj : SignedObj) (img : Tjl) (run : LoadRun) (s : State) : Result :=
  .next (match s.host.cmds[k]? with
    | some c => if c.arg 0x1C 0 2 = 0 ∨ c.arg 0x1C 0 2 = 3 then s.commandIn k 1 (s.loadDomains c obj img) fun s c =>
        s.loadPipes c obj img run.changed run.flips
      else s
    | none => s)

/-- CONFIGURATION_UPDATE (R254). -/
def execConfigurationUpdate (k : Nat) (obj : SignedObj) (img : Tjl) (s : State) : Result :=
  .next (match s.host.cmds[k]? with
    | some c => if c.arg 0x1C 0 2 = 2 then s.command k 1 fun s c => s.updateCmd c obj img else s
    | none => s)

/-- UPDATE_ARMED (R254). -/
def execUpdateArmed (p : Nat) (s : State) : Result := .next (s.sourceArmed p)

/-- UPDATE_ARM_TIMEOUT (R256). -/
def execUpdateArmTimeout (p : Nat) (s : State) : Result := .next (s.armTimeout p)

end Sys2Proof.Machine
end

