-- ==== Sys2Proof/Machine/MemoryCommands.lean ====
section
/-! DEFINITION. The meanings of the commands of memory tiles and streams: pushes (R104 to R107), the host's handle return
(R115), fetch engine and HBM ports (R119 to R124), ring writers (R191, R193), spill and restore (R244, R245). -/

namespace Sys2Proof.Machine

/-- A push of a given type that crosses into a memory tile, for a queue and not for a ring writer. It waits at the mesh-in port
for a tile cycle in which R194 grants it MI (R223). -/
def State.arrivingPush (s : State) (stop op : Nat) : State :=
  if kindOf stop ≠ .mt ∨ !s.miFree stop 4 then s
  else match s.takeInto stop fun f => f.op == op && (s.writerOf stop f.dstQ).isNone with
  | some (f, s) => s.pushAny stop f.dstQ false op f.tag f.epoch f.payload
  | none => s

/-- PUSH (R107). -/
def execPush (stop : Nat) (s : State) : Result := .next (s.arrivingPush stop 0)

/-- PUSH_EOP (R105, R107). -/
def execPushEop (stop : Nat) (s : State) : Result := .next (s.arrivingPush stop 1)

/-- PUSH_ABORT (R106, R107). -/
def execPushAbort (stop : Nat) (s : State) : Result := .next (s.arrivingPush stop 2)

/-- R115: the host's return of a handle: a push into the free list of the entry that it names, under R114 alone. It waits
for a tile cycle in which the host has MI (R194). -/
def State.hostReturn (s : State) (stop : Nat) (h : Word) : State :=
  if kindOf stop ≠ .mt ∨ 1023 < hBuf h ∨ !s.hostMi stop then s
  else
    let q := s.rf (bufHi stop (hBuf h)) 0 6
    if s.bufCells stop (hBuf h) = 0 ∨ !s.qbit stop q 0 2 then (s.setFlag (qReg stop q 0x18) 4).qDrop stop q
    else s.pushHandle stop q false false 1 0 none h

/-- HOST_HANDLE_RETURN (R115). -/
def execHostHandleReturn (stop : Nat) (h : Word) (s : State) : Result := .next (s.hostReturn stop h)

/-- FETCH_RESERVE (R121). -/
def execFetchReserve (stop slot : Nat) (s : State) : Result :=
  .next (if kindOf stop = .mt then s.reserve stop (slot % 16) else s)

/-- FETCH_READ_ISSUE (R122). -/
def execFetchReadIssue (stop : Nat) (s : State) : Result := .next (if kindOf stop = .mt then s.issueRead stop else s)

/-- HBM_READ_ADMIT (R123). -/
def execHbmReadAdmit (port : Nat) (s : State) : Result := .next (if port < 16 then s.portAdmit port else s)

/-- REGULATOR_TICK (R124). -/
def execRegulatorTick (s : State) : Result := .next s.regulator

/-- FETCH_READ_RETURN (R119, R126). -/
def execFetchReadReturn (k : Nat) (s : State) : Result := .next (s.readReturn k)

/-- A flit that crosses into a memory tile for a ring writer (R193). -/
def State.arrivingRow (s : State) (stop : Nat) : State :=
  match s.takeInto stop fun f => (s.writerOf stop f.dstQ).isSome with
  | some (f, t) => match s.writerOf stop f.dstQ with
    | some k => t.writerFlit stop k f
    | none => s
  | none => s

/-- RING_WRITER_FLIT (R193). -/
def execRingWriterFlit (stop : Nat) (s : State) : Result := .next (s.arrivingRow stop)

/-- RING_WRITER_CELL_WRITE (R191, R192). -/
def execRingWriterCellWrite (stop w : Nat) (s : State) : Result :=
  .next (if kindOf stop = .mt ∧ w < 4 then s.writeRing stop w else s)

/-- SPILL_WRITE_ACK (R244). -/
def execSpillWriteAck (stop q : Nat) (s : State) : Result := .next (s.spillAck stop q)

/-- RESTORE_RETURN (R245). -/
def execRestoreReturn (stop q : Nat) (s : State) : Result := .next (s.restore stop q)

end Sys2Proof.Machine
end

