-- ==== Sys2Proof/Machine/PowerCommands.lean ====
section
/-! DEFINITION. The meanings of the commands of the power controller (R428 to R442), of the clock monitor (R470) and of the
thermal protection (R475, R476). -/

namespace Sys2Proof.Machine

/-- DOMAIN_ENTRY (R428). -/
def execDomainEntry (d : Nat) (s : State) : Result := .next (s.domainEntry d)

/-- QUIESCE_DRAINED (R430). -/
def execQuiesceDrained (d : Nat) (s : State) : Result := .next (s.drainedStep d)

/-- QUIESCE_TIMEOUT (R430). -/
def execQuiesceTimeout (d : Nat) (s : State) : Result := .next (s.quiesceLate d)

/-- ENTRY_STEP_COMPLETE (R430). -/
def execEntryStepComplete (d : Nat) (s : State) : Result := .next (s.entryStep d)

/-- DOMAIN_EXIT (R433). -/
def execDomainExit (d : Nat) (s : State) : Result := .next (s.domainExit d)

/-- EXIT_COMPLETE (R433). -/
def execExitComplete (d : Nat) (s : State) : Result := .next (s.exitDone d)

/-- R486: a self-test of the domain ends with ABORTED when it fails. -/
def State.failDomain (s : State) (d : Nat) : State :=
  let hit := s.flag 0x00330104 0 && s.dbg.mask / 2 ^ d % 2 == 1 && (s.phase d == phRun || s.phase d == phEntry)
  let s := s.supplyFail d
  if hit then
    ({ s with dbg := { s.dbg with bist := [], bistBad := false, mask := 0 } }.wf 0x00330104 1 3 4).clrFlag 0x00330104 0
  else s

/-- SUPPLY_FAILURE (R434). -/
def execSupplyFailure (d : Nat) (s : State) : Result := .next (s.failDomain d)

/-- FAULT_CLEAR (R434). -/
def execFaultClear (d : Nat) (s : State) : Result :=
  .next (if d < 11 then s.writeEffect (domReg d + 0x1C) fun s => s.faultClear d else s)

/-- PAD_RELEASE (R435). -/
def execPadRelease (d : Nat) (s : State) : Result :=
  .next (if d < 11 then s.writeEffect (domReg d + 8) fun s => s.padRelease d else s)

/-- WAKE_PORT_WRITE (R439). -/
def execWakePortWrite (addr : Nat) (bytes : List Byte) (s : State) : Result := .next (s.wakePortWrite addr bytes)

/-- WAKE_PORT_READ (R439). -/
def execWakePortRead (addr : Nat) (s : State) : Result := .next (s.wakePortRead addr)

/-- RHIZOID_WAKE_PIN (R438). -/
def execRhizoidWakePin (pin : Nat) (rising : Bool) (s : State) : Result := .next (s.wakePin pin rising)

/-- RIHAM_WAKE (R438). -/
def execRihamWake (p : Nat) (s : State) : Result := .next (if p < 8 ∧ s.phase dLnk = phStop then s.fire 2 else s)

/-- CAPSULE_WAKE (R438). -/
def execCapsuleWake (s : State) : Result := .next (s.fire 3)

/-- CAPSULE_WITHDRAW_REQUEST (R427). -/
def execCapsuleWithdrawRequest (s : State) : Result := .next (s.unvote dHost 2)

/-- PCIE_WAKE (R438, R479). -/
def execPcieWake (s : State) : Result := .next (if s.pwr.wakeL ∨ s.pinsHeld then s else s.fire 4)

/-- PCIE_L2_ENTRY (R428). -/
def execPcieL2Entry (s : State) : Result := .next (s.modPwr fun p => { p with l2 := true })

/-- OPERATING_POINT_CHANGE (R441). -/
def execOperatingPointChange (point : Nat) (s : State) : Result := .next (s.changePoint point)

/-- VOK_CONFIRM (R442). -/
def execVokConfirm (s : State) : Result := .next s.vokConfirm

/-- VOK_TIMEOUT (R442). -/
def execVokTimeout (s : State) : Result := .next s.vokTimeout

/-- THROTTLE (R221). -/
def execThrottle (island m : Nat) (s : State) : Result := .next (s.throttle island m)

/-! ## Clocks -/

/-- R470, R306: every CoaXPress link goes down, and frames in progress carry `line_gap`. -/
def State.cxpDown (s : State) : State :=
  (List.range 16).foldl (fun s l => s.linkUp l false) s

/-- R470, R330: the time base is marked unsynchronised. -/
def State.markUnsync (s : State) : State :=
  let rising := !s.flag 0x0050800C 0
  let s := (s.setFlag 0x0050800C 0).setFlag 0x00508018 2
  let s := { s with link := { s.link with good := 0 } }
  if rising then s.forward 13 0xFFFF 0 else s

/-- R470: a reference clock is lost: 0 PCIe, 1 Ethernet and Riham, 2 CoaXPress, 3 system, 4 always-on. -/
def State.clockLost (s : State) (c : Nat) : State :=
  if 4 < c ∨ s.clockGone c then s
  else
    let s := s.modPwr fun p => { p with gone := c :: p.gone }
    let s := ((s.setFlag 0x00200800 (8 + c)).clrFlag 0x00200800 c).count 0x00200804 0 32
    if c = 1 then (List.range 8).foldl State.lockLost s
    else if c = 2 then s.cxpDown
    else if c = 3 then
      ((List.range 9).foldl (fun s i => s.failDomain (9 - i)) (s.setFlag 0x00200800 16)).markUnsync
    else s

/-- R470: a clock that returns is taken up again. -/
def State.clockReturn (s : State) (c : Nat) : State :=
  if 4 < c then s
  else
    let s := (s.modPwr fun p => { p with gone := p.gone.filter fun x => x != c }).setFlag 0x00200800 c
    if c = 3 then s.clrFlag 0x00200800 16 else s

/-- CLOCK_LOST (R470). -/
def execClockLost (c : Nat) (s : State) : Result := .next (s.clockLost c)

/-- CLOCK_RETURN (R470). -/
def execClockReturn (c : Nat) (s : State) : Result := .next (s.clockReturn c)

/-! ## Thermal protection -/

/-- THERMAL_TRIP (R475): die A, die B, stack A, stack B. -/
def execThermalTrip (site : Nat) (s : State) : Result :=
  .next (if 4 ≤ site then s
    else (((s.setFlag 0x00200914 site).setFlag 0x00200914 4).count 0x00200914 16 16).failDomain (1 + site))

/-- THERMAL_TRIP_RELEASE (R475). -/
def execThermalTripRelease (s : State) : Result := .next (s.clrFlag 0x00200914 4)

/-- THM_PEAK_READ (R476). -/
def execThmPeakRead (s : State) : Result := .next (s.readEffect 0x00200910 fun s => s.wf 0x00200910 0 12 0)

end Sys2Proof.Machine
end

