-- ==== Sys2Proof/Machine/Dispatch.lean ====
section
/-! DEFINITION. The meaning of each command: one arm per constructor of Instr. -/

namespace Sys2Proof.Machine

/-- A command's effect on everything but the queue. -/
def exec (i : Instr) (s : State) : Host.Outcome State Fault Refusal :=
  match i with
  | .load k obj img run => Sys2Proof.Machine.execLoad k obj img run s
  | .loadRhizoidImage k obj img => Sys2Proof.Machine.execLoadRhizoidImage k obj img s
  | .configurationUpdate k obj img => Sys2Proof.Machine.execConfigurationUpdate k obj img s
  | .start k => Sys2Proof.Machine.execStart k s
  | .stop k => Sys2Proof.Machine.execStop k s
  | .stopComplete p => Sys2Proof.Machine.execStopComplete p s
  | .cancel k => Sys2Proof.Machine.execCancel k s
  | .cancelHalted p => Sys2Proof.Machine.execCancelHalted p s
  | .cancelDrained p => Sys2Proof.Machine.execCancelDrained p s
  | .cancelRestart p => Sys2Proof.Machine.execCancelRestart p s
  | .inject k lines => Sys2Proof.Machine.execInject k lines s
  | .readCounters k => Sys2Proof.Machine.execReadCounters k s
  | .vote k => Sys2Proof.Machine.execVote k s
  | .join k => Sys2Proof.Machine.execJoin k s
  | .capture k => Sys2Proof.Machine.execCapture k s
  | .updateArmed p => Sys2Proof.Machine.execUpdateArmed p s
  | .updateArmTimeout p => Sys2Proof.Machine.execUpdateArmTimeout p s
  | .sqTailWrite n v => Sys2Proof.Machine.execSqTailWrite n v s
  | .commandFetch n entry => Sys2Proof.Machine.execCommandFetch n entry s
  | .forwardedCommand origin ring entry => Sys2Proof.Machine.execForwardedCommand origin ring entry s
  | .completionWrite n ok => Sys2Proof.Machine.execCompletionWrite n ok s
  | .cqHeadWrite n v => Sys2Proof.Machine.execCqHeadWrite n v s
  | .rrHeadWrite n v => Sys2Proof.Machine.execRrHeadWrite n v s
  | .recordWrite n ok => Sys2Proof.Machine.execRecordWrite n ok s
  | .ringEnable kind n v => Sys2Proof.Machine.execRingEnable kind n v s
  | .ringDisable kind n v => Sys2Proof.Machine.execRingDisable kind n v s
  | .interruptCoalesceTimeout kind n => Sys2Proof.Machine.execInterruptCoalesceTimeout kind n s
  | .functionLevelReset => Sys2Proof.Machine.execFunctionLevelReset s
  | .pciePerst => Sys2Proof.Machine.execPciePerst s
  | .registerWrite addr v size => Sys2Proof.Machine.execRegisterWrite addr v size s
  | .bar2Read addr len => Sys2Proof.Machine.execBar2Read addr len s
  | .bar2Write addr data => Sys2Proof.Machine.execBar2Write addr data s
  | .get tid => Sys2Proof.Machine.execGet tid s
  | .set tid => Sys2Proof.Machine.execSet tid s
  | .probe => Sys2Proof.Machine.execProbe s
  | .governorEvent k => Sys2Proof.Machine.execGovernorEvent k s
  | .voteW1c d v => Sys2Proof.Machine.execVoteW1c d v s
  | .hostHandleReturn stop h => Sys2Proof.Machine.execHostHandleReturn stop h s
  | .go stop => Sys2Proof.Machine.execGo stop s
  | .halt stop => Sys2Proof.Machine.execHalt stop s
  | .cancelAcknowledged stop => Sys2Proof.Machine.execCancelAcknowledged stop s
  | .nop stop => Sys2Proof.Machine.execNop stop s
  | .literal stop => Sys2Proof.Machine.execLiteral stop s
  | .loop stop => Sys2Proof.Machine.execLoop stop s
  | .loopc stop => Sys2Proof.Machine.execLoopc stop s
  | .sig stop => Sys2Proof.Machine.execSig stop s
  | .rst stop => Sys2Proof.Machine.execRst stop s
  | .waits stop => Sys2Proof.Machine.execWaits stop s
  | .arm stop => Sys2Proof.Machine.execArm stop s
  | .waita stop => Sys2Proof.Machine.execWaita stop s
  | .waitq stop => Sys2Proof.Machine.execWaitq stop s
  | .waith stop => Sys2Proof.Machine.execWaith stop s
  | .cadd stop => Sys2Proof.Machine.execCadd stop s
  | .endSchedule stop => Sys2Proof.Machine.execEndSchedule stop s
  | .waitSatisfied stop => Sys2Proof.Machine.execWaitSatisfied stop s
  | .syncReply k => Sys2Proof.Machine.execSyncReply k s
  | .waitWatchdog stop => Sys2Proof.Machine.execWaitWatchdog stop s
  | .vec stop => Sys2Proof.Machine.execVec stop s
  | .loadw stop => Sys2Proof.Machine.execLoadw stop s
  | .drop stop => Sys2Proof.Machine.execDrop stop s
  | .sendv stop => Sys2Proof.Machine.execSendv stop s
  | .expand stop => Sys2Proof.Machine.execExpand stop s
  | .expanderFlush stop => Sys2Proof.Machine.execExpanderFlush stop s
  | .fetch stop slot => Sys2Proof.Machine.execFetch stop slot s
  | .shalt stop slot => Sys2Proof.Machine.execShalt stop slot s
  | .hpop stop => Sys2Proof.Machine.execHpop stop s
  | .hret stop => Sys2Proof.Machine.execHret stop s
  | .sendq stop => Sys2Proof.Machine.execSendq stop s
  | .senda stop => Sys2Proof.Machine.execSenda stop s
  | .sendb stop => Sys2Proof.Machine.execSendb stop s
  | .cvta stop => Sys2Proof.Machine.execCvta stop s
  | .cvtb stop => Sys2Proof.Machine.execCvtb stop s
  | .raw stop => Sys2Proof.Machine.execRaw stop s
  | .ldv stop => Sys2Proof.Machine.execLdv stop s
  | .add stop => Sys2Proof.Machine.execAdd stop s
  | .mul stop => Sys2Proof.Machine.execMul stop s
  | .max stop => Sys2Proof.Machine.execMax stop s
  | .tbl stop => Sys2Proof.Machine.execTbl stop s
  | .softmax stop => Sys2Proof.Machine.execSoftmax stop s
  | .lnorm stop => Sys2Proof.Machine.execLnorm stop s
  | .gnStat stop => Sys2Proof.Machine.execGnStat stop s
  | .gnApply stop => Sys2Proof.Machine.execGnApply stop s
  | .maxpool stop => Sys2Proof.Machine.execMaxpool stop s
  | .avgpool stop => Sys2Proof.Machine.execAvgpool stop s
  | .resizeN stop => Sys2Proof.Machine.execResizeN stop s
  | .resizeB stop => Sys2Proof.Machine.execResizeB stop s
  | .topk stop => Sys2Proof.Machine.execTopk stop s
  | .dwconv stop => Sys2Proof.Machine.execDwconv stop s
  | .nsend stop => Sys2Proof.Machine.execNsend stop s
  | .stv stop => Sys2Proof.Machine.execStv stop s
  | .sendm stop => Sys2Proof.Machine.execSendm stop s
  | .cmonTagRead stop slot => Sys2Proof.Machine.execCmonTagRead stop slot s
  | .cmonLostRead stop slot => Sys2Proof.Machine.execCmonLostRead stop slot s
  | .push stop => Sys2Proof.Machine.execPush stop s
  | .pushEop stop => Sys2Proof.Machine.execPushEop stop s
  | .pushAbort stop => Sys2Proof.Machine.execPushAbort stop s
  | .fetchReserve stop slot => Sys2Proof.Machine.execFetchReserve stop slot s
  | .fetchReadIssue stop => Sys2Proof.Machine.execFetchReadIssue stop s
  | .hbmReadAdmit port => Sys2Proof.Machine.execHbmReadAdmit port s
  | .regulatorTick => Sys2Proof.Machine.execRegulatorTick s
  | .fetchReadReturn k => Sys2Proof.Machine.execFetchReadReturn k s
  | .ringWriterFlit stop => Sys2Proof.Machine.execRingWriterFlit stop s
  | .ringWriterCellWrite stop w => Sys2Proof.Machine.execRingWriterCellWrite stop w s
  | .landingQueueArrival stop => Sys2Proof.Machine.execLandingQueueArrival stop s
  | .epochChange stop slot => Sys2Proof.Machine.execEpochChange stop slot s
  | .chainMessage k flips => Sys2Proof.Machine.execChainMessage k flips s
  | .probePeriodExpiry p => Sys2Proof.Machine.execProbePeriodExpiry p s
  | .quiescenceProbe p => Sys2Proof.Machine.execQuiescenceProbe p s
  | .probeSecondWave p => Sys2Proof.Machine.execProbeSecondWave p s
  | .agingWindowExpiry => Sys2Proof.Machine.execAgingWindowExpiry s
  | .spillWriteAck stop q => Sys2Proof.Machine.execSpillWriteAck stop q s
  | .restoreReturn stop q => Sys2Proof.Machine.execRestoreReturn stop q s
  | .injectionFifoEntry stop rt => Sys2Proof.Machine.execInjectionFifoEntry stop rt s
  | .injectionDepart stop rt => Sys2Proof.Machine.execInjectionDepart stop rt s
  | .flitHop hop => Sys2Proof.Machine.execFlitHop hop s
  | .arrivalBufferEntry hop => Sys2Proof.Machine.execArrivalBufferEntry hop s
  | .arrivalBufferDepart stop => Sys2Proof.Machine.execArrivalBufferDepart stop s
  | .traceRecordWrite t => Sys2Proof.Machine.execTraceRecordWrite t s
  | .syncSignal k => Sys2Proof.Machine.execSyncSignal k s
  | .syncReset k => Sys2Proof.Machine.execSyncReset k s
  | .syuValWrite n v => Sys2Proof.Machine.execSyuValWrite n v s
  | .syuAddWrite n v => Sys2Proof.Machine.execSyuAddWrite n v s
  | .waitRequest k => Sys2Proof.Machine.execWaitRequest k s
  | .waitCancel k => Sys2Proof.Machine.execWaitCancel k s
  | .notice k => Sys2Proof.Machine.execNotice k s
  | .crozierFirst stop slot => Sys2Proof.Machine.execCrozierFirst stop slot s
  | .crozierLast stop slot => Sys2Proof.Machine.execCrozierLast stop slot s
  | .sorusDetect stop slot => Sys2Proof.Machine.execSorusDetect stop slot s
  | .sorusPass stop slot => Sys2Proof.Machine.execSorusPass stop slot s
  | .regionClose stop slot => Sys2Proof.Machine.execRegionClose stop slot s
  | .regionRecords stop slot => Sys2Proof.Machine.execRegionRecords stop slot s
  | .lineStart cam => Sys2Proof.Machine.execLineStart cam s
  | .lineComplete cam data flags => Sys2Proof.Machine.execLineComplete cam data flags s
  | .frameStoreWriteAck cam => Sys2Proof.Machine.execFrameStoreWriteAck cam s
  | .triggerEdge cam rising => Sys2Proof.Machine.execTriggerEdge cam rising s
  | .triggerPacketSent cam => Sys2Proof.Machine.execTriggerPacketSent cam s
  | .gvspPacket port f => Sys2Proof.Machine.execGvspPacket port f s
  | .cxpControlPacket link words => Sys2Proof.Machine.execCxpControlPacket link words s
  | .ctlTxWrite link w => Sys2Proof.Machine.execCtlTxWrite link w s
  | .ctlRxRead link => Sys2Proof.Machine.execCtlRxRead link s
  | .fabricStop => Sys2Proof.Machine.execFabricStop s
  | .fabricVerify => Sys2Proof.Machine.execFabricVerify s
  | .run => Sys2Proof.Machine.execRun s
  | .fabricRelease => Sys2Proof.Machine.execFabricRelease s
  | .gatewayRegisterWrite n v => Sys2Proof.Machine.execGatewayRegisterWrite n v s
  | .fabricQueuePush n w => Sys2Proof.Machine.execFabricQueuePush n w s
  | .fabricQueuePop n => Sys2Proof.Machine.execFabricQueuePop n s
  | .hostQueuePop n => Sys2Proof.Machine.execHostQueuePop n s
  | .hostQueuePush n w => Sys2Proof.Machine.execHostQueuePush n w s
  | .quadratureTransition n a b => Sys2Proof.Machine.execQuadratureTransition n a b s
  | .zEdge n => Sys2Proof.Machine.execZEdge n s
  | .timestampCapture n rising => Sys2Proof.Machine.execTimestampCapture n rising s
  | .tscEventRead n => Sys2Proof.Machine.execTscEventRead n s
  | .pinHoldWrite n v => Sys2Proof.Machine.execPinHoldWrite n v s
  | .snapshot => Sys2Proof.Machine.execSnapshot s
  | .capFree => Sys2Proof.Machine.execCapFree s
  | .capsuleStart => Sys2Proof.Machine.execCapsuleStart s
  | .capsuleStop => Sys2Proof.Machine.execCapsuleStop s
  | .readRecord => Sys2Proof.Machine.execReadRecord s
  | .readLog => Sys2Proof.Machine.execReadLog s
  | .readSwid => Sys2Proof.Machine.execReadSwid s
  | .readEventCounter => Sys2Proof.Machine.execReadEventCounter s
  | .cgwCommandRefused opc => Sys2Proof.Machine.execCgwCommandRefused opc s
  | .paramRead id idx => Sys2Proof.Machine.execParamRead id idx s
  | .paramWrite id idx v => Sys2Proof.Machine.execParamWrite id idx v s
  | .imageBegin size => Sys2Proof.Machine.execImageBegin size s
  | .imageData off data => Sys2Proof.Machine.execImageData off data s
  | .imageEnd verdict version memNeed factory => Sys2Proof.Machine.execImageEnd verdict version memNeed factory s
  | .status => Sys2Proof.Machine.execStatus s
  | .badServiceFrame crcOk cmd => Sys2Proof.Machine.execBadServiceFrame crcOk cmd s
  | .norOperationComplete => Sys2Proof.Machine.execNorOperationComplete s
  | .profilePacket f lead => Sys2Proof.Machine.execProfilePacket f lead s
  | .capsuleEncoderTransition n a b => Sys2Proof.Machine.execCapsuleEncoderTransition n a b s
  | .parcelWindowOpen belt => Sys2Proof.Machine.execParcelWindowOpen belt s
  | .parcelWindowClose belt facts => Sys2Proof.Machine.execParcelWindowClose belt facts s
  | .recordForward => Sys2Proof.Machine.execRecordForward s
  | .timeMapSample => Sys2Proof.Machine.execTimeMapSample s
  | .sealSample pinHigh => Sys2Proof.Machine.execSealSample pinHigh s
  | .capsuleReset => Sys2Proof.Machine.execCapsuleReset s
  | .capsuleBoot pinHigh memSize sfdp => Sys2Proof.Machine.execCapsuleBoot pinHigh memSize sfdp s
  | .signalDetect p => Sys2Proof.Machine.execSignalDetect p s
  | .trainingLock p => Sys2Proof.Machine.execTrainingLock p s
  | .trainingTimeout p => Sys2Proof.Machine.execTrainingTimeout p s
  | .trainRetry p => Sys2Proof.Machine.execTrainRetry p s
  | .lockLost p => Sys2Proof.Machine.execLockLost p s
  | .joinExchange p peer stamps => Sys2Proof.Machine.execJoinExchange p peer stamps s
  | .codewordReceive p data parity flits => Sys2Proof.Machine.execCodewordReceive p data parity flits s
  | .nak p n => Sys2Proof.Machine.execNak p n s
  | .goBackTimeout p => Sys2Proof.Machine.execGoBackTimeout p s
  | .leaveNotice w => Sys2Proof.Machine.execLeaveNotice w s
  | .heartbeatSend stamps => Sys2Proof.Machine.execHeartbeatSend stamps s
  | .heartbeatReceive p origin serial hb hops parent => Sys2Proof.Machine.execHeartbeatReceive p origin serial hb hops parent s
  | .peerLost origin => Sys2Proof.Machine.execPeerLost origin s
  | .channelTransmit p c => Sys2Proof.Machine.execChannelTransmit p c s
  | .linkCredit p c => Sys2Proof.Machine.execLinkCredit p c s
  | .channelReceiveDepart p c => Sys2Proof.Machine.execChannelReceiveDepart p c s
  | .creditObjectReread p c => Sys2Proof.Machine.execCreditObjectReread p c s
  | .domainEntry d => Sys2Proof.Machine.execDomainEntry d s
  | .quiesceDrained d => Sys2Proof.Machine.execQuiesceDrained d s
  | .quiesceTimeout d => Sys2Proof.Machine.execQuiesceTimeout d s
  | .entryStepComplete d => Sys2Proof.Machine.execEntryStepComplete d s
  | .domainExit d => Sys2Proof.Machine.execDomainExit d s
  | .exitComplete d => Sys2Proof.Machine.execExitComplete d s
  | .supplyFailure d => Sys2Proof.Machine.execSupplyFailure d s
  | .faultClear d => Sys2Proof.Machine.execFaultClear d s
  | .padRelease d => Sys2Proof.Machine.execPadRelease d s
  | .wakePortWrite addr bytes => Sys2Proof.Machine.execWakePortWrite addr bytes s
  | .wakePortRead addr => Sys2Proof.Machine.execWakePortRead addr s
  | .rhizoidWakePin pin rising => Sys2Proof.Machine.execRhizoidWakePin pin rising s
  | .rihamWake p => Sys2Proof.Machine.execRihamWake p s
  | .capsuleWake => Sys2Proof.Machine.execCapsuleWake s
  | .pcieWake => Sys2Proof.Machine.execPcieWake s
  | .operatingPointChange point => Sys2Proof.Machine.execOperatingPointChange point s
  | .vokConfirm => Sys2Proof.Machine.execVokConfirm s
  | .vokTimeout => Sys2Proof.Machine.execVokTimeout s
  | .throttle island m => Sys2Proof.Machine.execThrottle island m s
  | .clockLost c => Sys2Proof.Machine.execClockLost c s
  | .clockReturn c => Sys2Proof.Machine.execClockReturn c s
  | .thermalTrip site => Sys2Proof.Machine.execThermalTrip site s
  | .thermalTripRelease => Sys2Proof.Machine.execThermalTripRelease s
  | .thmPeakRead => Sys2Proof.Machine.execThmPeakRead s
  | .aonReset straps => Sys2Proof.Machine.execAonReset straps s
  | .aonBrownout straps => Sys2Proof.Machine.execAonBrownout straps s
  | .firmwareStartupComplete => Sys2Proof.Machine.execFirmwareStartupComplete s
  | .stageFirmware obj => Sys2Proof.Machine.execStageFirmware obj s
  | .stageRhizoidImage obj img => Sys2Proof.Machine.execStageRhizoidImage obj img s
  | .stageOwnerRecord obj body => Sys2Proof.Machine.execStageOwnerRecord obj body s
  | .attestation => Sys2Proof.Machine.execAttestation s
  | .tokenVerify obj body => Sys2Proof.Machine.execTokenVerify obj body s
  | .lock => Sys2Proof.Machine.execLock s
  | .bist => Sys2Proof.Machine.execBist s
  | .bistStep failed => Sys2Proof.Machine.execBistStep failed s
  | .hzLostRead stop => Sys2Proof.Machine.execHzLostRead stop s
  | .extest bits => Sys2Proof.Machine.execExtest bits s
  | .idcode => Sys2Proof.Machine.execIdcode s
  | .samplePreload pins bits => Sys2Proof.Machine.execSamplePreload pins bits s
  | .highz => Sys2Proof.Machine.execHighz s
  | .clamp => Sys2Proof.Machine.execClamp s
  | .bypass opc => Sys2Proof.Machine.execBypass opc s
  | .testLogicReset => Sys2Proof.Machine.execTestLogicReset s
  | .capsuleCommandComplete => Sys2Proof.Machine.execCapsuleCommandComplete s
  | .mailboxComplete => Sys2Proof.Machine.execMailboxComplete s
  | .stagingComplete flashOk unchanged => Sys2Proof.Machine.execStagingComplete flashOk unchanged s
  | .attestationComplete => Sys2Proof.Machine.execAttestationComplete s
  | .tokenVerifyComplete => Sys2Proof.Machine.execTokenVerifyComplete s
  | .joinCommandTimeout => Sys2Proof.Machine.execJoinCommandTimeout s
  | .capsuleWithdrawRequest => Sys2Proof.Machine.execCapsuleWithdrawRequest s
  | .pcieL2Entry => Sys2Proof.Machine.execPcieL2Entry s
  | .fabricActiveClockEdge clk rising near => Sys2Proof.Machine.execFabricActiveClockEdge clk rising near s
  | .rhzPinInputEdge pin v => Sys2Proof.Machine.execRhzPinInputEdge pin v s
  | .pllLockChange n v => Sys2Proof.Machine.execPllLockChange n v s
  | .cxpLinkUpChange link up => Sys2Proof.Machine.execCxpLinkUpChange link up s

end Sys2Proof.Machine
end

