-- ==== Sys2Proof/Machine/Tick.lean ====
section
/-! DEFINITION. What time does to the part when no command waits (log 1): the time base, its steering (R330) and the count of
CK_MESH cycles advance, a frozen tile counts the cycle, a tile that issues nothing lets what it has issued run on, the trace
rings move one record, each engine moves one record on its way to HST, tri-state overlaps age, filtered pins of the Rhizoid gateway settle, the Capsule's clock runs. -/

namespace Sys2Proof.Machine

/-- R330: the time base is steered by at most 100 ppm: one nanosecond in 10,000 ticks, towards offset zero. -/
def State.steer (s : State) : State :=
  let l := s.link
  if l.slew = 0 then s
  else if l.slewAt + 1 < 10000 then { s with link := { l with slewAt := l.slewAt + 1 } }
  else if 0 < l.slew then { s with time := (s.time + 1) % 2 ^ 64, link := { l with slewAt := 0, slew := l.slew - 1 } }
  else { s with time := (s.time + 2 ^ 64 - 1) % 2 ^ 64, link := { l with slewAt := 0, slew := l.slew + 1 } }

/-- R417: records of engines move to HST. -/
def State.recTick (s : State) : State :=
  if s.answers dHost then (s.eng.map (·.1)).foldl (fun s n => if s.inRun (stopDomain n) then s.recMove n else s) s else s

/-- R211: a CK_MESH cycle ends while the mesh's routers, which stand in D_HOST, are clocked. -/
def State.ckTick (s : State) : State := if s.answers dHost then { s.chanTick.meshCycle with ck := s.ck + 1 } else s

/-- One tick: 1 ns of the time base and one CK_MESH cycle. -/
def State.tick (s : State) : State :=
  let s := s.ckTick
  let s := { s with time := (s.time + 1) % 2 ^ 64 }.steer
  let stops := (s.sched.map (·.1) ++ s.at_.map (·.1) ++ s.mt.map (·.1) ++ s.sft.map (·.1)).eraseDups.filter isTile
  let s := stops.foldl State.tileTick s
  let s := (s.recTick.ripen false).inputTick.loadTick.capRun.ctlTick.relayTick
  (s.traceTick 0).traceTick 1

end Sys2Proof.Machine
end

