-- ==== Sys2Proof/WellFormed.lean ====
section
/-! DEFINITION. Well-formed commands: every operand that numbers a thing of the part lies in that thing's range, and a
command of a kind of stop names a stop of that kind. -/

namespace Sys2Proof

open Sys2Proof.Machine

/-- A mesh stop of a kind (R7). -/
def atKind (stop : Nat) (k : Kind) : Bool := decide (stop < 448) && kindOf stop == k

/-- The parts of a fabric design have numbers that the fabric has (R368, R372, R375, R376, R378, R379). -/
def designFits (d : RhzDesign) : Bool :=
  d.blocks.all (fun b => decide (b.1 < 128) && decide (b.2.inputs.length ≤ 40) && decide (b.2.local4 < 40) && decide (b.2.local5 < 40)) &&
  d.cells.all (fun c => decide (c.1 < 2048) && decide (c.2.terms.length ≤ 4) && c.2.terms.all fun t => t.all fun l => decide (l.input < 40)) &&
  d.hops.all (fun h => decide (h.1 < 4096) && decide (h.2.clk < 4)) && d.rams.all (fun r => decide (r.1 < 32)) &&
  d.tris.all (fun t => decide (t.cell < 2048) && decide (t.line < 16)) && d.pins.all fun p => decide (p.pin < 96)

/-- The operands of a command lie in their ranges. -/
def wellFormed (i : Instr) : Bool :=
  match i with
  | .load _ _ _ _ => true
  | .loadRhizoidImage _ _ img => designFits img
  | .configurationUpdate _ _ _ => true
  | .start _ => true
  | .stop _ => true
  | .stopComplete p => decide (p < 64)
  | .cancel _ => true
  | .cancelHalted p => decide (p < 64)
  | .cancelDrained p => decide (p < 64)
  | .cancelRestart p => decide (p < 64)
  | .inject _ lines => lines.all fun l => decide (l.length ≤ 2 ^ 16)
  | .readCounters _ => true
  | .vote _ => true
  | .join _ => true
  | .capture _ => true
  | .updateArmed p => decide (p < 64)
  | .updateArmTimeout p => decide (p < 64)
  | .sqTailWrite n _ => decide (n < 64)
  | .commandFetch n _ => decide (n < 64)
  | .forwardedCommand origin ring _ => decide (origin < 16) && decide (ring < 64)
  | .completionWrite n _ => decide (n < 64)
  | .cqHeadWrite n _ => decide (n < 64)
  | .rrHeadWrite n _ => decide (n < 64)
  | .recordWrite n _ => decide (n < 64)
  | .ringEnable kind n _ => decide (kind < 3) && decide (n < 64)
  | .ringDisable kind n _ => decide (kind < 3) && decide (n < 64)
  | .interruptCoalesceTimeout kind n => decide (kind < 3) && decide (n < 64)
  | .functionLevelReset => true
  | .pciePerst => true
  | .registerWrite addr _ size => decide (addr < 2 ^ 26) && (decide (size = 4) || decide (size = 8)) && decide (addr % size = 0)
  | .bar2Read addr len => decide (addr + len ≤ 2 ^ 36)
  | .bar2Write addr data => decide (addr + data.length ≤ 2 ^ 36)
  | .get tid => decide (tid < 2 ^ 16)
  | .set tid => decide (tid < 2 ^ 16)
  | .probe => true
  | .governorEvent _ => true
  | .voteW1c d _ => decide (d < 11)
  | .hostHandleReturn stop _ => atKind stop .mt
  | .go stop => isTile stop
  | .halt stop => isTile stop
  | .cancelAcknowledged stop => isTile stop
  | .nop stop => isTile stop
  | .literal stop => isTile stop
  | .loop stop => isTile stop
  | .loopc stop => isTile stop
  | .sig stop => isTile stop
  | .rst stop => isTile stop
  | .waits stop => isTile stop
  | .arm stop => isTile stop
  | .waita stop => isTile stop
  | .waitq stop => isTile stop
  | .waith stop => isTile stop
  | .cadd stop => isTile stop
  | .endSchedule stop => isTile stop
  | .waitSatisfied stop => isTile stop
  | .syncReply _ => true
  | .waitWatchdog stop => isTile stop
  | .vec stop => atKind stop .at
  | .loadw stop => atKind stop .at
  | .drop stop => atKind stop .at
  | .sendv stop => atKind stop .at
  | .expand stop => atKind stop .mt
  | .expanderFlush stop => atKind stop .mt
  | .fetch stop slot => atKind stop .mt && slot.all fun k => decide (k < 16)
  | .shalt stop slot => atKind stop .mt && slot.all fun k => decide (k < 16)
  | .hpop stop => atKind stop .mt
  | .hret stop => atKind stop .mt
  | .sendq stop => atKind stop .mt
  | .senda stop => atKind stop .mt
  | .sendb stop => atKind stop .mt
  | .cvta stop => atKind stop .sft
  | .cvtb stop => atKind stop .sft
  | .raw stop => atKind stop .sft
  | .ldv stop => atKind stop .sft
  | .add stop => atKind stop .sft
  | .mul stop => atKind stop .sft
  | .max stop => atKind stop .sft
  | .tbl stop => atKind stop .sft
  | .softmax stop => atKind stop .sft
  | .lnorm stop => atKind stop .sft
  | .gnStat stop => atKind stop .sft
  | .gnApply stop => atKind stop .sft
  | .maxpool stop => atKind stop .sft
  | .avgpool stop => atKind stop .sft
  | .resizeN stop => atKind stop .sft
  | .resizeB stop => atKind stop .sft
  | .topk stop => atKind stop .sft
  | .dwconv stop => atKind stop .sft
  | .nsend stop => atKind stop .sft
  | .stv stop => atKind stop .sft
  | .sendm stop => atKind stop .sft
  | .cmonTagRead stop slot => decide (stop < 448) && decide (slot < 8)
  | .cmonLostRead stop slot => decide (stop < 448) && decide (slot < 8)
  | .push stop => atKind stop .mt
  | .pushEop stop => atKind stop .mt
  | .pushAbort stop => atKind stop .mt
  | .fetchReserve stop slot => atKind stop .mt && decide (slot < 16)
  | .fetchReadIssue stop => atKind stop .mt
  | .hbmReadAdmit port => decide (port < 16)
  | .regulatorTick => true
  | .fetchReadReturn _ => true
  | .ringWriterFlit stop => atKind stop .mt
  | .ringWriterCellWrite stop w => atKind stop .mt && decide (w < 4)
  | .landingQueueArrival stop => isTile stop || isEngine stop
  | .epochChange stop slot => isTile stop || (isEngine stop && decide (slot < 8))
  | .chainMessage _ _ => true
  | .probePeriodExpiry p => decide (p < 64)
  | .quiescenceProbe p => decide (p < 64)
  | .probeSecondWave p => decide (p < 64)
  | .agingWindowExpiry => true
  | .spillWriteAck stop q => atKind stop .mt && decide (q < 64)
  | .restoreReturn stop q => atKind stop .mt && decide (q < 64)
  | .injectionFifoEntry stop rt => decide (stop < 448) && decide (rt < 16)
  | .injectionDepart stop rt => decide (stop < 448) && decide (rt < 16)
  | .flitHop hop => hop.flips.all fun b => decide (b < 608)
  | .arrivalBufferEntry hop => hop.flips.all fun b => decide (b < 608)
  | .arrivalBufferDepart stop => decide (stop < 448)
  | .traceRecordWrite t => decide (t < 2)
  | .syncSignal _ => true
  | .syncReset _ => true
  | .syuValWrite n _ => decide (n < 65536)
  | .syuAddWrite n _ => decide (n < 65536)
  | .waitRequest _ => true
  | .waitCancel _ => true
  | .notice _ => true
  | .crozierFirst stop slot => atKind stop .cz && decide (slot < 8)
  | .crozierLast stop slot => atKind stop .cz && decide (slot < 8)
  | .sorusDetect stop slot => atKind stop .sor && decide (slot < 8)
  | .sorusPass stop slot => atKind stop .sor && decide (slot < 8)
  | .regionClose stop slot => atKind stop .sor && decide (slot < 8)
  | .regionRecords stop slot => atKind stop .sor && decide (slot < 8)
  | .lineStart cam => decide (cam < 32)
  | .lineComplete cam data flags =>
    decide (cam < 32) && decide (flags < 512) && data.crcs.all (fun l => decide (l < 16)) && data.bad.all fun w => decide (w < 32768)
  | .frameStoreWriteAck cam => decide (cam < 32)
  | .triggerEdge cam _ => decide (cam < 16)
  | .triggerPacketSent cam => decide (cam < 16)
  | .gvspPacket port f => decide (port < 2) && decide (f.mac < 2 ^ 48) && decide (f.udp < 2 ^ 16) && decide (f.part < 3)
  | .cxpControlPacket link _ => decide (link < 16)
  | .ctlTxWrite link _ => decide (link < 16)
  | .ctlRxRead link => decide (link < 16)
  | .fabricStop => true
  | .fabricVerify => true
  | .run => true
  | .fabricRelease => true
  | .gatewayRegisterWrite n _ => decide (n < 16)
  | .fabricQueuePush n _ => decide (n < 2)
  | .fabricQueuePop n => decide (n = 2) || decide (n = 3)
  | .hostQueuePop n => decide (n < 2)
  | .hostQueuePush n _ => decide (n = 2) || decide (n = 3)
  | .quadratureTransition n _ _ => decide (n < 8)
  | .zEdge n => decide (n < 8)
  | .timestampCapture n _ => decide (n < 8)
  | .tscEventRead n => decide (n < 8)
  | .pinHoldWrite n _ => decide (n < 96)
  | .snapshot => true
  | .capFree => true
  | .capsuleStart => true
  | .capsuleStop => true
  | .readRecord => true
  | .readLog => true
  | .readSwid => true
  | .readEventCounter => true
  | .cgwCommandRefused opc => decide (opc < 2 ^ 32)
  | .paramRead _ _ => true
  | .paramWrite _ _ _ => true
  | .imageBegin _ => true
  | .imageData _ data => decide (data.length ≤ 4092)
  | .imageEnd _ _ _ _ => true
  | .status => true
  | .badServiceFrame _ cmd => decide (cmd < 256)
  | .norOperationComplete => true
  | .profilePacket f _ =>
    decide (f.port < 2) && decide (f.frame.mac < 2 ^ 48) && decide (f.frame.udp < 2 ^ 16) && decide (f.frame.part < 3)
  | .capsuleEncoderTransition n _ _ => decide (n < 16)
  | .parcelWindowOpen belt => decide (belt < 8)
  | .parcelWindowClose belt _ => decide (belt < 8)
  | .recordForward => true
  | .timeMapSample => true
  | .sealSample _ => true
  | .capsuleReset => true
  | .capsuleBoot _ _ _ => true
  | .signalDetect p => decide (p < 8)
  | .trainingLock p => decide (p < 8)
  | .trainingTimeout p => decide (p < 8)
  | .trainRetry p => decide (p < 8)
  | .lockLost p => decide (p < 8)
  | .joinExchange p o stamps => decide (p < 8) && decide (o.devId < 16) && stamps.length == 4
  | .codewordReceive p data parity flits =>
    decide (p < 8) && decide (data ≤ 512) && decide (parity ≤ 32) && decide (flits.length ≤ 8)
  | .nak p _ => decide (p < 8)
  | .goBackTimeout p => decide (p < 8)
  | .leaveNotice w => decide (w.port < 8) && decide (w.origin < 16)
  | .heartbeatSend _ => true
  | .heartbeatReceive p origin _ _ _ _ => decide (p < 8) && decide (origin < 16)
  | .peerLost origin => decide (origin < 16)
  | .channelTransmit p c => decide (p < 8) && decide (c < 32)
  | .linkCredit p c => decide (p < 8) && decide (c < 32)
  | .channelReceiveDepart p c => decide (p < 8) && decide (c < 32)
  | .creditObjectReread p c => decide (p < 8) && decide (c < 32)
  | .domainEntry d => decide (d < 11)
  | .quiesceDrained d => decide (d < 11)
  | .quiesceTimeout d => decide (d < 11)
  | .entryStepComplete d => decide (d < 11)
  | .domainExit d => decide (d < 11)
  | .exitComplete d => decide (d < 11)
  | .supplyFailure d => decide (d < 11)
  | .faultClear d => decide (d < 11)
  | .padRelease d => decide (d < 11)
  | .wakePortWrite addr _ => decide (addr < 128)
  | .wakePortRead addr => decide (addr < 128)
  | .rhizoidWakePin pin _ => decide (pin < 96)
  | .rihamWake p => decide (p < 8)
  | .capsuleWake => true
  | .pcieWake => true
  | .operatingPointChange point => decide (point < 4)
  | .vokConfirm => true
  | .vokTimeout => true
  | .throttle island m => decide (island < 448) && decide (1 ≤ m) && decide (m ≤ 16)
  | .clockLost c => decide (c < 5)
  | .clockReturn c => decide (c < 5)
  | .thermalTrip site => decide (site < 4)
  | .thermalTripRelease => true
  | .thmPeakRead => true
  | .aonReset _ => true
  | .aonBrownout _ => true
  | .firmwareStartupComplete => true
  | .stageFirmware _ => true
  | .stageRhizoidImage _ _ => true
  | .stageOwnerRecord _ _ => true
  | .attestation => true
  | .tokenVerify _ _ => true
  | .lock => true
  | .bist => true
  | .bistStep _ => true
  | .hzLostRead stop => decide (stop < 448)
  | .extest _ => true
  | .idcode => true
  | .samplePreload _ _ => true
  | .highz => true
  | .clamp => true
  | .bypass opc => decide (opc < 256) && !([0, 1, 2, 4, 5] : List Nat).contains opc
  | .testLogicReset => true
  | .capsuleCommandComplete => true
  | .mailboxComplete => true
  | .stagingComplete _ _ => true
  | .attestationComplete => true
  | .tokenVerifyComplete => true
  | .joinCommandTimeout => true
  | .capsuleWithdrawRequest => true
  | .pcieL2Entry => true
  | .fabricActiveClockEdge clk _ _ => decide (clk < 4)
  | .rhzPinInputEdge pin _ => decide (pin < 96)
  | .pllLockChange n _ => decide (n < 4)
  | .cxpLinkUpChange link _ => decide (link < 16)

end Sys2Proof
end

