-- ==== Sys2Proof/Certificates/Slice0/Obligations.lean ====
section
/-! DEFINITION. The statements about the model, for the provers. Before them stand the notions that several of them share: the
canonical form of the state's tables, and what it is for a tile to issue a bundle. -/

namespace Sys2Proof.Claims

open Sys2Proof.Machine

/-- The canonical form of the register file and of the tables of the state: keys strictly rising, nothing listed that reads
the same unlisted. A read after a write means what it says only in states of this form. -/
structure Form (s : State) : Prop where
  regs : regWf s.regs = true
  hbm : Memory.wf s.hbm.bytes = true
  hostMem : Memory.wf s.hostMem = true
  pmem : twf 0 s.pmem = true
  sched : twf {} s.sched = true
  lq : twf {} s.lq = true
  mon : twf {} s.mon = true
  pair : twf none s.pair = true
  at_ : twf {} s.at_ = true
  mt : twf {} s.mt = true
  sft : twf {} s.sft = true
  eng : twf {} s.eng = true
  pipes : twf {} s.gov.pipes = true

/-- Every register outside a list reads as before. -/
def Kept (s t : State) (as : List Nat) : Prop := ∀ a, a ∉ as → t.rd a = s.rd a

/-- An unreserved flit that waits at its sender (R212, R218). -/
def unreserved (src dst typ : Nat) (vc : Bool) (m : UMsg) : UFlit :=
  { flit := { dst := dst, src := src, rsv := false, vc := vc, typ := typ, dstQ := 0, op := 0, tag := 0, epoch := 0, flow := 0, payload := 0,
              hdrErr := 0, par := 0, entered := 0 }
    msg := m, stop := src }

/-- A sync operation on its way to its unit (R151). -/
def opFlit (m : SyncMsg) : UFlit := unreserved m.src (syuStop (syuOf m.obj)) 1 false (.op m)

/-- A reply or an acknowledgement of a sync unit on its way to the stop that asked (R151). -/
def replyFlit (r : Reply) : UFlit := unreserved (syuStop (syuOf r.obj)) r.stop 2 true (.reply r)

/-- An event on its way to the governor. -/
def eventFlit (e : Event) : UFlit := unreserved e.stop govStop 6 false (.event e)

/-- The notices that a stop sends: one to each Sorus engine with jobs of the pipeline (R281). -/
def noticeFlits (s : State) (stop : Nat) (k : NoticeKind) (pipe : Nat) (tag : Option Tag) : List UFlit :=
  (s.noticeStops pipe).map fun d => unreserved stop d 5 false (.notice { kind := k, pipe := pipe, tag := tag, dst := d })

/-- What a tile reports of an uncorrectable memory word: its error notices and event 7 (R58, R77, R100, R420). -/
def memFlits (s : State) (stop : Nat) (tag : Option Tag) : List UFlit :=
  noticeFlits s stop .error (s.pipeOf stop) tag ++
    [eventFlit { code := 7, stop := stop, value := tag.elim 0 (·.toNat), pipe := some (s.pipeOf stop) }]

/-- What has changed in the mesh is that these unreserved flits have joined those under way, in this order. -/
def Sends (s t : State) (fs : List UFlit) : Prop := t.mesh = { s.mesh with uns := s.mesh.uns ++ fs }

/-- The sync operations under way, in the order in which they were sent. -/
def opsOf (s : State) : List UFlit := s.mesh.uns.filter fun u => u.flit.typ == 1

/-- The sync operations sent are these, in this order; flits of other types may have been sent besides. -/
def SendsOps (s t : State) (ms : List SyncMsg) : Prop := opsOf t = opsOf s ++ ms.map opFlit

/-- In a memory tile no fetch stream is active and no queue spills; other tiles have neither. -/
def Still (s : State) (stop : Nat) : Prop :=
  kindOf stop = .mt → (∀ k < 16, s.flag (sstat stop k) 0 = false) ∧ ∀ e ∈ (s.mtile stop).qx, e.2.spill = none

/-- A tile whose schedule runs, with nothing under way in its datapath and no ECC error in its program memory. -/
structure Running (s : State) (stop : Nat) : Prop where
  form : Form s
  tile : isTile stop = true
  run : s.schState stop = 1
  quiet : s.inFlight stop = false
  still : Still s stop
  ue : (s.sch stop).pmUe = []
  ce : (s.sch stop).pmCe = []

/-- The bundle at a tile's pc has nothing in its IN, OP and OUT slots. -/
def NoSlots (s : State) (stop : Nat) : Prop := ∀ i < 3, slotOp stop (s.nextBundle stop) i = none

/-- The issue that a tile makes next is the last of its bundle (R137). -/
def LastIssue (s : State) (stop : Nat) : Prop := (s.sch stop).rep = bRepeat (s.nextBundle stop)

/-- The registers that an issue changes beside those that its bundle names: SCH_STATUS, SCH_ERR, SCH_ISSUE, the loop stack, and
the `busy` bit and counts of the tile's status register. -/
def issueRegs (stop : Nat) : List Nat :=
  [reg stop 0xD004, reg stop 0xD008, reg stop 0xD014, reg stop 0x10, reg stop 0xD200, reg stop 0xD204, reg stop 0xD208,
   reg stop 0xD20C, reg stop 0xD210, reg stop 0xD214, reg stop 0xD218, reg stop 0xD21C]

/-- Beside the registers of an issue and of a list, only the tile's own schedule, the flits in the mesh and the counter of free
values have changed: datapaths, memories, queues and every other unit are as before. -/
def IssueFrame (s t : State) (stop : Nat) (as : List Nat) : Prop :=
  Kept s t (issueRegs stop ++ as) ∧ (∀ n, n ≠ stop → t.sch n = s.sch n) ∧
    t = { s with regs := t.regs, sched := t.sched, mesh := t.mesh, free := t.free }

/-- The pc goes on to the next bundle where no loop is active (R138). -/
def GoesOn (s t : State) (stop : Nat) : Prop :=
  s.depth stop = 0 → s.pcOf stop < 4095 → t.pcOf stop = s.pcOf stop + 1 ∧ t.schState stop = 1 ∧ t.depth stop = 0

/-- One issue is counted in SCH_ISSUE (R157). -/
def Issued (s t : State) (stop : Nat) : Prop := t.rd (reg stop 0xD014) = s.rd (reg stop 0xD014) + 1

/-- The sync state of `s` with the operations left given, after object o has taken the value v: the waits that v satisfies leave
the table and are answered, in the order of their arrival (R152). -/
def Released (s t : State) (msgs : List SyncMsg) (o : Nat) (v : Word) : Prop :=
  t.sync = { s.sync with msgs := msgs, waits := s.sync.waits.filter fun w => !(w.obj == o && waitHolds v w.thr) } ∧
    Sends s t ((s.sync.waits.filter fun w => w.obj == o && waitHolds v w.thr).map fun w =>
      replyFlit { stop := w.src, slot := w.slot, obj := o, ack := false })

/-- A tile that issues a bundle next of which one slot holds the operation `o` with operand word `w`, while the other two slots
and the CTL slot hold none; no ECC error stands in its program memory. Repeats and the place among them are free. -/
structure Lone (s : State) (stop i : Nat) (o : TileOp) (w : Nat) : Prop where
  form : Form s
  tile : isTile stop = true
  run : s.schState stop = 1
  ue : (s.sch stop).pmUe = []
  ce : (s.sch stop).pmCe = []
  op : slotOp stop (s.nextBundle stop) i = some o
  word : bSlot (s.nextBundle stop) i = w
  others : ∀ j < 3, j ≠ i → slotOp stop (s.nextBundle stop) j = none
  ctl : bCtlOp (s.nextBundle stop) = 0

/-- Landing queue q of a tile has a flit `f` at its head that belongs to the block in progress and to the tile's epoch, and is no
abort mark (R164, R225). -/
def HeadFlit (s : State) (stop q : Nat) (f : LFlit) (rest : List LFlit) : Prop :=
  (s.lqAt stop q).q = f :: rest ∧ f.op ≠ 2 ∧ f.epoch = s.epochOf stop ∧ s.inBlock stop = true ∧ f.tag = s.blockTag stop

/-- The flit has left the landing queue, and its credit is on its way where credits are enabled (R224). -/
def Popped (s t : State) (stop q : Nat) (f : LFlit) (rest : List LFlit) : Prop :=
  t.lqAt stop q = { q := rest, last := f, pops := (s.lqAt stop q).pops + 1 } ∧
    SendsOps s t (if s.flag (reg stop (0x0400 + 16 * q)) 0 then [.signal (s.rf (reg stop (0x0400 + 16 * q)) 16 16) 1 stop] else [])

/-- A flit that a tile sends on route `rt` (R162, R212): what it carries, and when it may leave. -/
def Sent (s : State) (stop rt op : Nat) (tag : Tag) (p : Payload) (ready : Nat) : Xing :=
  { stop := stop, rt := rt, ready := ready,
    flit := { dst := bitsOf (s.rtReg stop rt 0) 0 9, src := stop, rsv := true, vc := false, typ := 0,
              dstQ := bitsOf (s.rtReg stop rt 0) 9 6, op := op, tag := tag, epoch := s.epochOf stop,
              flow := bitsOf (s.rtReg stop rt 4) 0 13, payload := p, hdrErr := 0, par := 0, entered := 0 } }

/-- R41: the push type of a flit while `block_ok` is false. -/
def SentOp (s : State) (stop ptype : Nat) : Nat := if ptype = 1 ∧ s.blockOk stop = false then 2 else ptype

/-- A memory-tile queue that is enabled, has not failed and holds something (R107, R110). -/
structure Holds (s : State) (stop q : Nat) : Prop where
  on : s.qbit stop q 0 0 = true
  good : s.qbit stop q 0x18 5 = false
  some : s.qLevel stop q ≠ 0
  side : (s.mtile stop).sideUe = []
  spill : (s.qx stop q).spill = none

/-- A data queue of a memory tile takes a push of a tag: enabled for the mesh port, healthy, not discarding, in the tile's epoch,
the packet open in it of the same tag and short of 4,096 cells, within its limit and with a free cell in the pool (R105 to
R107). -/
structure Takes (s : State) (stop q : Nat) (tag epoch : Tag) : Prop where
  on : s.qbit stop q 0 0 = true
  data : s.qbit stop q 0 1 = false
  port : s.qbit stop q 0 3 = false
  good : s.qbit stop q 0x18 5 = false
  keep : s.qbit stop q 0xC 30 = false
  epoch : epoch = s.epochOf stop
  same : s.qOpen stop q = true → tag = (s.qx stop q).openTag ∧ s.qOpenLen stop q < 4096
  room : s.qOver stop q = false
  spill : (s.qx stop q).spill = none

/-- MI writes a cell of a memory tile in the tile cycle under way (R97): both its halves, whole. -/
def CellWrite (s t : State) (stop cell : Nat) (p : Payload) : Prop :=
  (t.mtile stop).cy.mi = true ∧ (t.mtile stop).banks = (s.mtile stop).banks ∧
    (t.mtile stop).cy.wr = (s.mtile stop).cy.wr ++
      [{ bank := evenBank cell, word := cellWord cell, data := p.extractLsb' 0 256, fe := false },
       { bank := evenBank cell + 1, word := cellWord cell, data := p.extractLsb' 256 256, fe := false }]

/-- The oldest flit that crosses into a memory tile is a push for a queue, no ring writer takes it, and R194 grants it MI. -/
def Arriving (s : State) (stop op : Nat) (f : Flit) : Prop :=
  kindOf stop = .mt ∧ (s.mesh.into.find? fun x => x.1 == stop) = some (stop, f) ∧ f.op = op ∧ s.writerOf stop f.dstQ = none ∧ f.dstQ < 64 ∧
    s.miFree stop 4 = true

/-- No command waits, and nothing is under way on the main side that a tick would move. -/
structure Quiet (s : State) : Prop where
  pending : s.pending = []
  sched : s.sched = []
  at_ : s.at_ = []
  mt : s.mt = []
  sft : s.sft = []
  eng : s.eng = []
  inj : s.mesh.inj = []
  flying : s.mesh.flying = []
  rx : s.link.rx = []
  relay : s.host.relay = []
  ctlTx : s.ingest.ctlTx = []
  overlaps : s.rhz.overlaps = []
  wait : s.rhz.wait = []
  tscEdges : s.rhz.tscEdges = []
  load : s.rhz.load = none
  trace : s.trace = []
  slew : s.link.slew = 0

end Sys2Proof.Claims

open Sys2Proof Sys2Proof.Machine Sys2Proof.Claims

/-! ## The machine as a whole -/

/-- A step takes the command at the front of the queue and runs it on the state with the queue's rest, and every command, whatever the
state and its operands, completes: the block takes it and goes on (log 2 says what a command does whose conditions are not met). -/
def Obligations.StepRunsTheFrontCommand : Prop :=
  (∀ (c : Instr) (s : State), step { s with pending := c :: s.pending } = exec c s) ∧
    (∀ (c : Instr) (s : State), ∃ t, exec c s = .next t)

/-- On an empty queue a step is a tick (log 1): the time base advances, and the count of CK_MESH cycles with it while D_HOST, in which
the mesh's routers stand, is clocked (R211, R424). A part in which nothing is under way has nothing else changed. -/
def Obligations.EmptyQueueTicks : Prop :=
  ∀ s : State, Quiet s → s.cstate = 0 →
    step s = .next { s with time := (s.time + 1) % 2 ^ 64, ck := if s.answers dHost then s.ck + 1 else s.ck }

/-- After reset the state is in canonical form, every domain but the Capsule's is in Run, no command waits, no pipeline is loaded, and
every tile is idle. Registers without a reset value are 0 (log 5). -/
def Obligations.ResetHasCanonicalForm : Prop :=
  Form State.reset ∧ State.reset.pending = [] ∧ (∀ d < 10, State.reset.phase d = 0) ∧ State.reset.phase 10 = 2 ∧
    (∀ p < 64, State.reset.pstate p = 0) ∧ ∀ n < 448, isTile n = true → State.reset.schState n = 0

/-- No step breaks the canonical form of the register file and of the tables: whatever stands in the queue, a step from any
state in that form answers a next state in it. -/
def Obligations.StepKeepsCanonicalForm : Prop := ∀ s t : State, Form s → step s = .next t → Form t

/-! ## Schedules -/

/-- GO starts a schedule that is idle, done or stopped at `entry`, with the loop stack, the arm slots and the two counters
cleared, and is ignored in every other state; requests that a schedule in DONE left behind are cancelled (log 24). HALT of a waiting schedule abandons the wait, sends a cancel for each
outstanding request and stops, at once where nothing is outstanding; HALT of a running one lets the issue under way
complete and keeps the pc. The acknowledgement of the last cancel stops a schedule that is stopping. -/
def Obligations.SchedulesStartAndStop : Prop :=
  (∀ (s : State) (stop : Nat), Form s → isTile stop = true → (s.schState stop = 0 ∨ s.schState stop = 3 ∨ s.schState stop = 5) →
    ∃ t, exec (.go stop) s = .next t ∧ t.schState stop = 1 ∧ t.pcOf stop = s.rf (reg stop 0xD000) 16 12 ∧ t.depth stop = 0 ∧
      (∀ k < 4, t.rd (reg stop (0xD200 + 8 * k)) = 0 ∧ t.rd (reg stop (0xD204 + 8 * k)) = 0 ∧ t.rd (reg stop (0xD240 + 4 * k)) = 0) ∧
      t.rd (reg stop 0xD010) = 0 ∧ t.rd (reg stop 0xD014) = 0 ∧ (t.sch stop).reqs = [] ∧
      (t.sch stop).cancels = (s.sch stop).cancels ++ (s.sch stop).reqs.map (fun k => (k, s.reqObj stop k)) ∧
      Sends s t ((s.sch stop).reqs.map fun k => opFlit (.cancel (s.reqObj stop k) stop k)) ∧
      Kept s t (issueRegs stop ++ [reg stop 0xD010, reg stop 0xD240, reg stop 0xD244, reg stop 0xD248, reg stop 0xD24C, reg stop 0x3084]) ∧
      t = { s with regs := t.regs, sched := t.sched, mt := t.mt, mesh := t.mesh }) ∧
  (∀ (s : State) (stop : Nat), s.schState stop ≠ 0 → s.schState stop ≠ 3 → s.schState stop ≠ 5 → exec (.go stop) s = .next s) ∧
  (∀ (s : State) (stop : Nat), Form s → isTile stop = true → s.schState stop = 2 →
    ∃ t, exec (.halt stop) s = .next t ∧
      t.schState stop = (if (s.sch stop).reqs = [] ∧ (s.sch stop).cancels = [] then 5 else 4) ∧ t.pcOf stop = s.pcOf stop ∧
      Sends s t ((s.sch stop).reqs.map fun k => opFlit (.cancel (s.reqObj stop k) stop k)) ∧ (t.sch stop).reqs = [] ∧
      (t.sch stop).cancels = (s.sch stop).cancels ++ (s.sch stop).reqs.map (fun k => (k, s.reqObj stop k)) ∧
      Kept s t [reg stop 0xD004] ∧ t = { s with regs := t.regs, sched := t.sched, mesh := t.mesh, at_ := t.at_ }) ∧
  (∀ (s : State) (stop : Nat), Running s stop → NoSlots s stop → literalWrites (s.nextBundle stop) = [] →
      isWaitOp (bCtlOp (s.nextBundle stop)) = false →
    ∃ t, exec (.halt stop) s = .next t ∧
      t.schState stop = (if (s.sch stop).reqs = [] ∧ (s.sch stop).cancels = [] then 5 else 4) ∧ t.pcOf stop = s.pcOf stop ∧
      t.depth stop = s.depth stop ∧ Issued s t stop ∧
      Sends s t ((s.sch stop).reqs.map fun k => opFlit (.cancel (s.reqObj stop k) stop k))) ∧
  (∀ (s : State) (stop : Nat), s.schState stop ≠ 1 → s.schState stop ≠ 2 → exec (.halt stop) s = .next s) ∧
  (∀ (s : State) (stop k : Nat) (r : Reply), Form s → s.sync.replies[k]? = some r → r.stop = stop → r.ack = true → s.replyReady k = true →
      (∀ j < k, ∀ x, s.sync.replies[j]? = some x → x.stop = stop → x.ack = true → s.replyReady j = false) →
    ∃ t, exec (.cancelAcknowledged stop) s = .next t ∧ t.sync = { s.sync with replies := s.sync.replies.eraseIdx k } ∧
      (t.sch stop).cancels = (s.sch stop).cancels.erase (r.slot, r.obj) ∧
      t.schState stop = (if s.schState stop = 4 ∧ (s.sch stop).cancels.erase (r.slot, r.obj) = [] then 5 else s.schState stop) ∧
      Kept s t [reg stop 0xD004] ∧ (∀ n, n ≠ stop → t.sch n = s.sch n) ∧
      t = { s with regs := t.regs, sched := t.sched, sync := t.sync })

/-- The operations that neither wait nor loop, at the last issue of their bundle: NOP only goes on, a literal bundle writes its
context registers at every issue, SIG and RST send their operation to the sync unit of the object, CADD adds to its context
register. An issue that is not the last leaves the pc and counts on. -/
def Obligations.PlainControlOperations : Prop :=
  (∀ (s : State) (stop : Nat), Running s stop → NoSlots s stop → bFormat (s.nextBundle stop) ≠ 2 → bCtlOp (s.nextBundle stop) = 0 →
    ∃ t, exec (.nop stop) s = .next t ∧ Issued s t stop ∧ IssueFrame s t stop [] ∧ t.mesh = s.mesh ∧
      (LastIssue s stop → GoesOn s t stop ∧ (t.sch stop).rep = 0) ∧
      ((s.sch stop).rep < bRepeat (s.nextBundle stop) → t.pcOf stop = s.pcOf stop ∧ (t.sch stop).rep = (s.sch stop).rep + 1)) ∧
  (∀ (s : State) (stop : Nat), Running s stop → bFormat (s.nextBundle stop) = 2 → bCtlOp (s.nextBundle stop) = 0 →
    ∃ t, exec (.literal stop) s = .next t ∧ Issued s t stop ∧ t.mesh = s.mesh ∧
      IssueFrame s t stop ((literalWrites (s.nextBundle stop)).map fun w => reg stop (0xD100 + 4 * w.1)) ∧
      (bsel (s.nextBundle stop) 107 1 = 1 → t.ctx stop (bsel (s.nextBundle stop) 108 5) = (s.nextBundle stop).extractLsb' 28 32) ∧
      (bsel (s.nextBundle stop) 107 1 = 0 ∨ bsel (s.nextBundle stop) 108 5 ≠ bsel (s.nextBundle stop) 113 5 →
        t.ctx stop (bsel (s.nextBundle stop) 113 5) = (s.nextBundle stop).extractLsb' 60 32) ∧
      (LastIssue s stop → GoesOn s t stop)) ∧
  (∀ (s : State) (stop : Nat), Running s stop → NoSlots s stop → LastIssue s stop → bCtlOp (s.nextBundle stop) = 3 →
    ∃ t, exec (.sig stop) s = .next t ∧ Issued s t stop ∧ GoesOn s t stop ∧
      Sends s t [opFlit (.signal (osel (bCtl (s.nextBundle stop)) 8 16)
        (BitVec.ofNat 32 (if bFormat (s.nextBundle stop) = 1 then bXimm (s.nextBundle stop) else osel (bCtl (s.nextBundle stop)) 0 8)) stop)] ∧
      IssueFrame s t stop ((literalWrites (s.nextBundle stop)).map fun w => reg stop (0xD100 + 4 * w.1))) ∧
  (∀ (s : State) (stop : Nat), Running s stop → NoSlots s stop → LastIssue s stop → bCtlOp (s.nextBundle stop) = 4 →
    ∃ t, exec (.rst stop) s = .next t ∧ Issued s t stop ∧ GoesOn s t stop ∧
      Sends s t [opFlit (.reset (osel (bCtl (s.nextBundle stop)) 8 16) stop)] ∧
      IssueFrame s t stop ((literalWrites (s.nextBundle stop)).map fun w => reg stop (0xD100 + 4 * w.1))) ∧
  (∀ (s : State) (stop : Nat), Running s stop → NoSlots s stop → LastIssue s stop → bCtlOp (s.nextBundle stop) = 10 →
      (∀ w ∈ literalWrites (s.nextBundle stop), w.1 ≠ osel (bCtl (s.nextBundle stop)) 19 5) →
    ∃ t, exec (.cadd stop) s = .next t ∧ Issued s t stop ∧ GoesOn s t stop ∧ t.mesh = s.mesh ∧
      t.ctx stop (osel (bCtl (s.nextBundle stop)) 19 5) = s.ctx stop (osel (bCtl (s.nextBundle stop)) 19 5) +
        (if bFormat (s.nextBundle stop) = 1 then BitVec.ofNat 32 (bXimm (s.nextBundle stop))
         else (BitVec.ofNat 19 (osel (bCtl (s.nextBundle stop)) 0 19)).signExtend 32) ∧
      IssueFrame s t stop (reg stop (0xD100 + 4 * osel (bCtl (s.nextBundle stop)) 19 5) ::
        (literalWrites (s.nextBundle stop)).map fun w => reg stop (0xD100 + 4 * w.1)))

/-- Loops: LOOP and LOOPC push a stack entry and go on to the body; LOOPC with a count of 0 skips the body; the bundle at the end
of the innermost loop goes back to the start while iterations remain, and closes the loop after the last; END stops the
schedule. -/
def Obligations.Loops : Prop :=
  (∀ (s : State) (stop n : Nat), Running s stop → NoSlots s stop → LastIssue s stop → bCtlOp (s.nextBundle stop) = 1 →
      s.depth stop < 4 → s.pcOf stop < 4095 → s.loopCount stop (s.nextBundle stop) = n →
    ∃ t, exec (.loop stop) s = .next t ∧ Issued s t stop ∧ t.depth stop = s.depth stop + 1 ∧ t.pcOf stop = s.pcOf stop + 1 ∧
      t.rf (reg stop (0xD200 + 8 * s.depth stop)) 0 20 = n ∧ t.flag (reg stop (0xD200 + 8 * s.depth stop)) 30 = decide (n = 0) ∧
      t.flag (reg stop (0xD200 + 8 * s.depth stop)) 31 = true ∧
      t.rf (reg stop (0xD204 + 8 * s.depth stop)) 0 12 = s.pcOf stop + 1 ∧
      t.rf (reg stop (0xD204 + 8 * s.depth stop)) 16 12 = osel (bCtl (s.nextBundle stop)) 12 12 ∧ t.mesh = s.mesh) ∧
  (∀ (s : State) (stop n : Nat), Running s stop → NoSlots s stop → LastIssue s stop → bCtlOp (s.nextBundle stop) = 2 →
      s.depth stop < 4 → s.pcOf stop < 4095 → s.rf (reg stop (0xD100 + 4 * osel (bCtl (s.nextBundle stop)) 0 5)) 0 20 = n →
    ∃ t, exec (.loopc stop) s = .next t ∧ Issued s t stop ∧ t.mesh = s.mesh ∧
      (n ≠ 0 → t.depth stop = s.depth stop + 1 ∧ t.pcOf stop = s.pcOf stop + 1 ∧
        t.rf (reg stop (0xD200 + 8 * s.depth stop)) 0 20 = n ∧ t.flag (reg stop (0xD200 + 8 * s.depth stop)) 30 = false) ∧
      (n = 0 → osel (bCtl (s.nextBundle stop)) 12 12 < 4095 →
        t.depth stop = s.depth stop ∧ t.pcOf stop = osel (bCtl (s.nextBundle stop)) 12 12 + 1)) ∧
  (∀ (s : State) (stop d n : Nat), Running s stop → NoSlots s stop → LastIssue s stop → bFormat (s.nextBundle stop) ≠ 2 →
      bCtlOp (s.nextBundle stop) = 0 → s.depth stop = d + 1 → d < 4 → s.rf (reg stop (0xD204 + 8 * d)) 16 12 = s.pcOf stop →
      s.rf (reg stop (0xD200 + 8 * d)) 0 20 = n →
    ∃ t, exec (.nop stop) s = .next t ∧
      (s.flag (reg stop (0xD200 + 8 * d)) 30 = true → t.pcOf stop = s.rf (reg stop (0xD204 + 8 * d)) 0 12 ∧ t.depth stop = d + 1) ∧
      (s.flag (reg stop (0xD200 + 8 * d)) 30 = false → 1 < n →
        t.pcOf stop = s.rf (reg stop (0xD204 + 8 * d)) 0 12 ∧ t.depth stop = d + 1 ∧ t.rf (reg stop (0xD200 + 8 * d)) 0 20 = n - 1) ∧
      (s.flag (reg stop (0xD200 + 8 * d)) 30 = false → n ≤ 1 → d = 0 → s.pcOf stop < 4095 →
        t.pcOf stop = s.pcOf stop + 1 ∧ t.depth stop = 0 ∧ t.flag (reg stop 0xD200) 31 = false)) ∧
  (∀ (s : State) (stop : Nat), Running s stop → NoSlots s stop → LastIssue s stop → bFormat (s.nextBundle stop) ≠ 2 →
      bCtlOp (s.nextBundle stop) = 11 →
    ∃ t, exec (.endSchedule stop) s = .next t ∧ Issued s t stop ∧ t.schState stop = 3 ∧ t.mesh = s.mesh ∧
      Kept s t (issueRegs stop) ∧ t = { s with regs := t.regs, sched := t.sched, free := t.free, at_ := t.at_ })

/-- A wait that does not hold freezes the tile in state WAIT with its pc kept, WAITS having sent its request; a wait that holds
costs nothing. WAITA does not see a reply that has crossed in the cycle before it (R147). ARM sends the request of an idle slot and advances its context register, and misuse sets `arm_err`. -/
def Obligations.WaitsFreezeOrPass : Prop :=
  (∀ (s : State) (stop : Nat), Running s stop → (s.sch stop).rep = 0 → bCtlOp (s.nextBundle stop) = 5 → (s.sch stop).hid ≠ 2 →
    ∃ t, exec (.waits stop) s = .next t ∧ t.schState stop = 2 ∧ t.pcOf stop = s.pcOf stop ∧ t.rf (reg stop 0xD004) 16 4 = 5 ∧
      Sends s t [opFlit (.wait (osel (bCtl (s.nextBundle stop)) 8 16)
        (if bFormat (s.nextBundle stop) = 1 then BitVec.ofNat 32 (bXimm (s.nextBundle stop))
         else s.ctx stop (osel (bCtl (s.nextBundle stop)) 3 5)) stop 4)] ∧
      (t.sch stop).hid = 1 ∧ (t.sch stop).reqs = (s.sch stop).reqs ++ [4] ∧
      Kept s t [reg stop 0xD004, reg stop 0xD010] ∧ t = { s with regs := t.regs, sched := t.sched, mesh := t.mesh }) ∧
  (∀ (s : State) (stop k : Nat), Running s stop → NoSlots s stop → LastIssue s stop → (s.sch stop).rep = 0 →
      bCtlOp (s.nextBundle stop) = 7 → osel (bCtl (s.nextBundle stop)) 0 2 = k → s.rf (reg stop (0xD240 + 4 * k)) 16 2 ≠ 1 →
      k ∉ (s.sch stop).fresh →
    ∃ t, exec (.waita stop) s = .next t ∧ Issued s t stop ∧ GoesOn s t stop ∧ t.mesh = s.mesh ∧
      (s.rf (reg stop (0xD240 + 4 * k)) 16 2 = 2 → t.rf (reg stop (0xD240 + 4 * k)) 16 2 = 0 ∧ t.rd (reg stop 0xD008) = s.rd (reg stop 0xD008)) ∧
      (s.rf (reg stop (0xD240 + 4 * k)) 16 2 ≠ 2 →
        t.rd (reg stop (0xD240 + 4 * k)) = s.rd (reg stop (0xD240 + 4 * k)) ∧ t.flag (reg stop 0xD008) 4 = true)) ∧
  (∀ (s : State) (stop k : Nat), Running s stop → (s.sch stop).rep = 0 → bCtlOp (s.nextBundle stop) = 7 →
      osel (bCtl (s.nextBundle stop)) 0 2 = k → (s.rf (reg stop (0xD240 + 4 * k)) 16 2 = 1 ∨ k ∈ (s.sch stop).fresh) →
    ∃ t, exec (.waita stop) s = .next t ∧ t.schState stop = 2 ∧ t.pcOf stop = s.pcOf stop ∧ t.rf (reg stop 0xD004) 16 4 = 7 ∧
      t.mesh = s.mesh) ∧
  (∀ (s : State) (stop : Nat), Running s stop → NoSlots s stop → LastIssue s stop → (s.sch stop).rep = 0 →
      bCtlOp (s.nextBundle stop) = 8 →
    ∃ t, exec (.waitq stop) s = .next t ∧
      (osel (bCtl (s.nextBundle stop)) 0 16 ≤ s.waitLevel stop (osel (bCtl (s.nextBundle stop)) 18 6) → Issued s t stop ∧ GoesOn s t stop) ∧
      (s.waitLevel stop (osel (bCtl (s.nextBundle stop)) 18 6) < osel (bCtl (s.nextBundle stop)) 0 16 →
        t.schState stop = 2 ∧ t.pcOf stop = s.pcOf stop ∧ t.rf (reg stop 0xD004) 16 4 = 8)) ∧
  (∀ (s : State) (stop : Nat), Running s stop → NoSlots s stop → LastIssue s stop → (s.sch stop).rep = 0 →
      bCtlOp (s.nextBundle stop) = 9 → kindOf stop = .mt →
    ∃ t, exec (.waith stop) s = .next t ∧
      (1 ≤ s.rf (reg stop (0x1010 + 0x20 * osel (bCtl (s.nextBundle stop)) 18 6)) 0 16 → Issued s t stop ∧ GoesOn s t stop) ∧
      (s.rf (reg stop (0x1010 + 0x20 * osel (bCtl (s.nextBundle stop)) 18 6)) 0 16 = 0 → t.schState stop = 2 ∧ t.pcOf stop = s.pcOf stop)) ∧
  (∀ (s : State) (stop k cr : Nat), Running s stop → NoSlots s stop → LastIssue s stop → literalWrites (s.nextBundle stop) = [] →
      bCtlOp (s.nextBundle stop) = 6 → osel (bCtl (s.nextBundle stop)) 22 2 = k → 24 + osel (bCtl (s.nextBundle stop)) 3 3 = cr →
    ∃ t, exec (.arm stop) s = .next t ∧ Issued s t stop ∧ GoesOn s t stop ∧
      (s.rf (reg stop (0xD240 + 4 * k)) 16 2 = 0 →
        t.rf (reg stop (0xD240 + 4 * k)) 16 2 = 1 ∧ t.rf (reg stop (0xD240 + 4 * k)) 0 16 = osel (bCtl (s.nextBundle stop)) 6 16 ∧
        Sends s t [opFlit (.wait (osel (bCtl (s.nextBundle stop)) 6 16) (s.ctx stop cr) stop k)] ∧ (t.sch stop).reqs = (s.sch stop).reqs ++ [k] ∧
        t.ctx stop cr = s.ctx stop cr + BitVec.ofNat 32 (incOf (osel (bCtl (s.nextBundle stop)) 0 3))) ∧
      (s.rf (reg stop (0xD240 + 4 * k)) 16 2 ≠ 0 → t.flag (reg stop 0xD008) 4 = true ∧ t.mesh = s.mesh ∧ t.ctx stop cr = s.ctx stop cr))

/-- What ends or outlasts a wait: the reply sets the arm slot or the hidden slot that asked, and one that has crossed its request's cancel is discarded; a waiting bundle whose condition
holds issues; a wait longer than a non-zero SCH_WDOG sets `wait_wd` once and sends an event, and the tile goes on waiting. -/
def Obligations.WaitsEnd : Prop :=
  (∀ (s : State) (k : Nat) (r : Reply), Form s → s.sync.replies[k]? = some r → r.ack = false → s.replyReady k = true →
      isTile r.stop = true → (r.slot, r.obj) ∉ (s.sch r.stop).cancels → r.slot < 4 →
      s.schState r.stop ≤ 3 → s.rf (reg r.stop (0xD240 + 4 * r.slot)) 16 2 = 1 →
    ∃ t, exec (.syncReply k) s = .next t ∧ t.rf (reg r.stop (0xD240 + 4 * r.slot)) 16 2 = 2 ∧
      t.sync = { s.sync with replies := s.sync.replies.eraseIdx k } ∧ (t.sch r.stop).reqs = (s.sch r.stop).reqs.erase r.slot ∧
      r.slot ∈ (t.sch r.stop).fresh ∧ Kept s t [reg r.stop (0xD240 + 4 * r.slot)] ∧ t = { s with regs := t.regs, sched := t.sched, sync := t.sync }) ∧
  (∀ (s : State) (k : Nat) (r : Reply), Form s → s.sync.replies[k]? = some r → r.ack = false → s.replyReady k = true →
      isTile r.stop = true → (r.slot, r.obj) ∉ (s.sch r.stop).cancels → r.slot = 4 →
      s.schState r.stop ≤ 3 → (s.sch r.stop).hid = 1 →
    ∃ t, exec (.syncReply k) s = .next t ∧ (t.sch r.stop).hid = 2 ∧ (t.sch r.stop).reqs = (s.sch r.stop).reqs.erase 4 ∧
      t = { s with sched := t.sched, sync := { s.sync with replies := s.sync.replies.eraseIdx k } }) ∧
  (∀ (s : State) (k : Nat) (r : Reply), Form s → s.sync.replies[k]? = some r → r.ack = false → s.replyReady k = true →
      isTile r.stop = true → (r.slot, r.obj) ∈ (s.sch r.stop).cancels ∨ (4 ≤ s.schState r.stop ∧ s.schState r.stop ≤ 6) →
    exec (.syncReply k) s = .next { s with sync := { s.sync with replies := s.sync.replies.eraseIdx k } }) ∧
  (∀ (s : State) (stop : Nat), Form s → isTile stop = true → Still s stop → s.inFlight stop = false → s.schState stop = 2 → (s.sch stop).rep = 0 →
      bRepeat (s.nextBundle stop) = 0 → NoSlots s stop → bFormat (s.nextBundle stop) = 0 → bCtlOp (s.nextBundle stop) = 5 →
      (s.sch stop).hid = 2 →
    ∃ t, exec (.waitSatisfied stop) s = .next t ∧ Issued s t stop ∧ GoesOn s t stop ∧ (t.sch stop).hid = 0 ∧ t.mesh = s.mesh ∧
      t.ctx stop (osel (bCtl (s.nextBundle stop)) 3 5) =
        s.ctx stop (osel (bCtl (s.nextBundle stop)) 3 5) + BitVec.ofNat 32 (incOf (osel (bCtl (s.nextBundle stop)) 0 3))) ∧
  (∀ (s : State) (stop : Nat), Form s → isTile stop = true → s.schState stop = 2 → s.rd (reg stop 0xD00C) ≠ 0 →
      (s.rd (reg stop 0xD00C)).toNat < (s.sch stop).waitLen → (s.sch stop).wdDone = false →
    ∃ t, exec (.waitWatchdog stop) s = .next t ∧ t.flag (reg stop 0xD008) 3 = true ∧ t.schState stop = 2 ∧
      Sends s t [eventFlit { code := 0, stop := stop, value := s.pcOf stop, pipe := some (s.pipeOf stop) }] ∧
      (t.sch stop).wdDone = true ∧ Kept s t [reg stop 0xD008] ∧ t = { s with regs := t.regs, sched := t.sched, mesh := t.mesh })

/-- The sync units: a signal adds, a reset sets 0, a host write sets, a host addition adds, each operation is counted, the oldest
of a source's operations first; a wait that holds is answered at once, one that does not stands in the table, and a cancel
takes it out and is acknowledged. -/
def Obligations.SyncUnitOperations : Prop :=
  (∀ (s : State) (k o src : Nat) (n : Word), Form s → o < 65536 → s.sync.msgs[k]? = some (.signal o n src) → s.syncReady k = true →
    ∃ t, exec (.syncSignal k) s = .next t ∧ t.rd (0x00800000 + 4 * o) = s.rd (0x00800000 + 4 * o) + n ∧
      Released s t (s.sync.msgs.eraseIdx k) o (s.rd (0x00800000 + 4 * o) + n) ∧
      t.rf (0x00880004 + 16 * (o / 16384)) 0 32 = holdAt (2 ^ 32 - 1) (s.rf (0x00880004 + 16 * (o / 16384)) 0 32 + 1) ∧
      Kept s t [0x00800000 + 4 * o, 0x00880000 + 16 * (o / 16384), 0x00880004 + 16 * (o / 16384)] ∧
      t = { s with regs := t.regs, sync := t.sync, mesh := t.mesh }) ∧
  (∀ (s : State) (k o src : Nat), Form s → o < 65536 → s.sync.msgs[k]? = some (.reset o src) → s.syncReady k = true →
      s.debugPerm 0 = false →
    ∃ t, exec (.syncReset k) s = .next t ∧ t.rd (0x00800000 + 4 * o) = 0 ∧
      Released s t (s.sync.msgs.eraseIdx k) o 0 ∧
      Kept s t [0x00800000 + 4 * o, 0x00880000 + 16 * (o / 16384), 0x00880004 + 16 * (o / 16384)] ∧
      t = { s with regs := t.regs, sync := t.sync, mesh := t.mesh }) ∧
  (∀ (s : State) (k o src slot : Nat) (thr : Word), Form s → o < 65536 → s.sync.msgs[k]? = some (.wait o thr src slot) →
      s.syncReady k = true → s.debugPerm 0 = false →
    ∃ t, exec (.waitRequest k) s = .next t ∧ t.rd (0x00800000 + 4 * o) = s.rd (0x00800000 + 4 * o) ∧
      (0 ≤ (s.rd (0x00800000 + 4 * o) - thr).toInt →
        t.sync = { s.sync with msgs := s.sync.msgs.eraseIdx k } ∧
          Sends s t [replyFlit { stop := src, slot := slot, obj := o, ack := false }]) ∧
      ((s.rd (0x00800000 + 4 * o) - thr).toInt < 0 →
        t.sync = { s.sync with msgs := s.sync.msgs.eraseIdx k, waits := s.sync.waits ++ [{ obj := o, thr := thr, src := src, slot := slot }] } ∧
          t.mesh = s.mesh) ∧
      Kept s t [0x00880000 + 16 * (o / 16384), 0x00880004 + 16 * (o / 16384)] ∧ t = { s with regs := t.regs, sync := t.sync, mesh := t.mesh }) ∧
  (∀ (s : State) (k o src slot : Nat), Form s → o < 65536 → s.sync.msgs[k]? = some (.cancel o src slot) → s.syncReady k = true →
    ∃ t, exec (.waitCancel k) s = .next t ∧ t.sync = { s.sync with
        msgs := s.sync.msgs.eraseIdx k
        waits := s.sync.waits.filter fun w => !(w.obj == o && w.src == src && w.slot == slot) } ∧
      Sends s t [replyFlit { stop := src, slot := slot, obj := o, ack := true }] ∧
      Kept s t [0x00880000 + 16 * (o / 16384), 0x00880004 + 16 * (o / 16384)] ∧ t = { s with regs := t.regs, sync := t.sync, mesh := t.mesh }) ∧
  (∀ (s : State) (o : Nat) (v : Word), Form s → o < 65536 → s.regThere (0x00800000 + 4 * o) = true →
      s.answers (addrDomain (0x00800000 + 4 * o)) = true →
    ∃ t, exec (.syuValWrite o v) s = .next t ∧ t.rd (0x00800000 + 4 * o) = v ∧ Released s t s.sync.msgs o v ∧
      Kept s t [0x00800000 + 4 * o, 0x00880000 + 16 * (o / 16384), 0x00880004 + 16 * (o / 16384)] ∧
      t = { s with regs := t.regs, sync := t.sync, mesh := t.mesh }) ∧
  (∀ (s : State) (o : Nat) (v : Word), Form s → o < 65536 → s.regThere (0x00840000 + 4 * o) = true →
      s.answers (addrDomain (0x00840000 + 4 * o)) = true →
    ∃ t, exec (.syuAddWrite o v) s = .next t ∧ t.rd (0x00800000 + 4 * o) = s.rd (0x00800000 + 4 * o) + v ∧
      Released s t s.sync.msgs o (s.rd (0x00800000 + 4 * o) + v) ∧
      Kept s t [0x00800000 + 4 * o, 0x00880000 + 16 * (o / 16384), 0x00880004 + 16 * (o / 16384)] ∧
      t = { s with regs := t.regs, sync := t.sync, mesh := t.mesh })

/-- R151, the rule of release: whatever operation a sync unit applies, afterwards no wait stands in its table on that object
that the object's value satisfies, if none stood there before. -/
def Obligations.NoSatisfiedWaitStays : Prop :=
  ∀ (s : State) (m : SyncMsg) (o : Nat), Form s → o < 65536 →
    (∀ w ∈ s.sync.waits, w.obj < 65536) → (match m with | .signal x _ _ => x | .reset x _ => x | .wait x _ _ _ => x | .cancel x _ _ => x) < 65536 →
    (∀ w ∈ s.sync.waits, w.obj = o → waitHolds (s.rd (0x00800000 + 4 * o)) w.thr = false) →
    ∀ w ∈ (s.syncOp m).sync.waits, w.obj = o → waitHolds ((s.syncOp m).rd (0x00800000 + 4 * o)) w.thr = false

/-! ## Array tiles -/

/-- The operations of an array tile, each in a bundle of its own. VEC pops a vector from its landing queue, opens a pass where
`first` is set, and puts the vector into the array; DROP pops only; LOADW starts a transfer and sets `loadw_busy`; SENDV sends
the 64 low codes that the output register presents in this tile cycle on its route. -/
def Obligations.ArrayTileOperations : Prop :=
  (∀ (s : State) (stop w : Nat) (f : LFlit) (rest : List LFlit), Lone s stop 0 .vec w → s.inFlight stop = false →
      HeadFlit s stop (osel w 21 3) f rest → osel w 17 1 = 0 → osel w 16 1 = 1 → (s.atile stop).held = 0 →
    ∃ t g, exec (.vec stop) s = .next t ∧ Issued s t stop ∧ Popped s t stop (osel w 21 3) f rest ∧
      (t.atile stop).fl = [g] ∧ g.t = s.cycOf stop + 1 ∧ g.v = 0 ∧ g.codes = payloadBytes f.payload ∧ g.tag = s.blockTag stop ∧
      (t.atile stop).pass = some { next := 1, accFirst := osel w 15 1 == 1, accLast := osel w 14 1 == 1, pbank := osel w 11 1 } ∧
      t.rf (reg stop 0x0010) 0 2 = osel w 12 2 ∧ t.rf (reg stop 0x0010) 2 1 = osel w 11 1) ∧
  (∀ (s : State) (stop w : Nat) (f : LFlit) (rest : List LFlit) (p : Pass), Lone s stop 0 .vec w → s.inFlight stop = false →
      HeadFlit s stop (osel w 21 3) f rest → osel w 17 1 = 0 → osel w 16 1 = 0 → (s.atile stop).held = 0 →
      (s.atile stop).pass = some p → p.next < 256 →
    ∃ t g, exec (.vec stop) s = .next t ∧ Popped s t stop (osel w 21 3) f rest ∧ (t.atile stop).fl = [g] ∧ g.v = p.next ∧
      g.codes = payloadBytes f.payload ∧ g.first = p.accFirst ∧ g.last = p.accLast ∧
      (t.atile stop).pass = some { p with next := p.next + 1 }) ∧
  (∀ (s : State) (stop w : Nat) (f : LFlit) (rest : List LFlit), Lone s stop 1 .drop w → s.inFlight stop = false →
      HeadFlit s stop (osel w 21 3) f rest →
    ∃ t, exec (.drop stop) s = .next t ∧ Issued s t stop ∧ Popped s t stop (osel w 21 3) f rest ∧
      (t.atile stop).fl = [] ∧ (t.atile stop).pass = (s.atile stop).pass) ∧
  (∀ (s : State) (stop w : Nat), Lone s stop 1 .loadw w → s.inFlight stop = false → osel w 13 1 = 0 →
    ∃ t, exec (.loadw stop) s = .next t ∧ Issued s t stop ∧ t.flag (reg stop 0x0010) 3 = true ∧
      (t.atile stop).ld = some { l := s.cycOf stop + 1 + s.rf (reg stop 0xD400) 8 4, w := s.afAddr stop (osel w 19 5) % 512,
                                 k := none, s := none, p := none }) ∧
  (∀ (s : State) (stop w : Nat) (f : Flight), Lone s stop 2 .sendv w → (s.atile stop).fl = [f] → (s.atile stop).swaps = [] →
      (s.atile stop).ld = none → s.pairAt stop = none → f.last = true → f.t + s.outLatency stop = s.cycOf stop + 1 →
      (s.atile stop).out.taken = true → osel w 9 1 = 0 → osel w 8 1 = 0 → bitOf (s.rtReg stop (osel w 20 4) 0) 31 = true →
    ∃ t, exec (.sendv stop) s = .next t ∧ Issued s t stop ∧ (t.atile stop).out.taken = true ∧
      (t.atile stop).out.at_ = some (s.cycOf stop + 1) ∧ t.flag (reg stop 0x0210) 3 = s.flag (reg stop 0x0210) 3 ∧
      t.mesh.cross = s.mesh.cross ++ [Sent s stop (osel w 20 4) (SentOp s stop (osel w 10 2)) ((s.ctx stop (osel w 3 5)).setWidth 16)
        (payloadOf ((List.range 64).map fun i => byteOf (tget 0 f.res i))) (s.cycOf stop + 1 + 2 + s.rf (reg stop 0xD400) 4 4)])

/-! ## Special-function tiles -/

/-- The IN slot of a special-function tile: CVTA and CVTB convert the 64 codes of a flit to FP32 lanes, RAW stores a flit's bytes
in work memory, LDV loads a vector register from it; each write shows after the operation's latency. -/
def Obligations.SftInputOperations : Prop :=
  (∀ (c : Nat → Instr) (o : TileOp) (b : Bool) (s : State) (stop w : Nat) (f : LFlit) (rest : List LFlit),
      (c, o, b) ∈ [(Instr.cvta, TileOp.cvta, false), (Instr.cvtb, TileOp.cvtb, true)] → Lone s stop 0 o w → s.inFlight stop = false →
      HeadFlit s stop (osel w 21 3) f rest →
    ∃ t, exec (c stop) s = .next t ∧ Issued s t stop ∧ Popped s t stop (osel w 21 3) f rest ∧
      t.rf (reg stop 0x0010) 0 2 = osel w 0 2 ∧
      (t.sftile stop).wr = [.mk (s.cycOf stop + 1 + s.sftLat stop 4 0) (.vreg (osel w 18 3)
        (((payloadBytes f.payload).zipIdx).map fun x =>
          s.convLane stop (osel w 0 2) b x.1 (bitsOf (s.ctx stop (osel w 13 5)) 0 16 + x.2)))]) ∧
  (∀ (s : State) (stop w : Nat) (f : LFlit) (rest : List LFlit), Lone s stop 0 .raw w → s.inFlight stop = false →
      HeadFlit s stop (osel w 21 3) f rest → s.afAddr stop (osel w 16 5) < 1536 →
    ∃ t, exec (.raw stop) s = .next t ∧ Issued s t stop ∧ Popped s t stop (osel w 21 3) f rest ∧
      (t.sftile stop).wr = [{ at_ := s.cycOf stop + 1 + s.sftLat stop 3 1,
                              target := .bytes (s.afAddr stop (osel w 16 5) * 64) (payloadBytes f.payload) }] ∧
      (t.sftile stop).lm = (s.sftile stop).lm) ∧
  (∀ (s : State) (stop w : Nat), Lone s stop 0 .ldv w → s.inFlight stop = false → (s.sftile stop).lmUe = [] →
      (s.sftile stop).lmCe = [] → s.afAddr stop (osel w 16 5) + 4 ≤ 1536 →
    ∃ t lanes, exec (.ldv stop) s = .next t ∧ Issued s t stop ∧
      (t.sftile stop).wr = [{ at_ := s.cycOf stop + 1 + s.sftLat stop 3 1, target := .vreg (osel w 21 3) lanes }] ∧
      lanes.length = 64 ∧
      ∀ l < 64, lanes.getD l 0 = (s.sftile stop).wmWord (s.afAddr stop (osel w 16 5) * 64 + 4 * l))

/-- The lane operations of a special-function tile while no RUN is in progress: ADD, MUL and MAX apply the FP32 operation lane by
lane, TBL evaluates its table on each lane; the result register is written after the operation's latency. While a RUN is in
progress they are dropped and `run_busy` is set. -/
def Obligations.SftLaneOperations : Prop :=
  (∀ (c : Nat → Instr) (o : TileOp) (g : Word → Word → Word) (s : State) (stop w : Nat),
      (c, o, g) ∈ [(Instr.add, TileOp.add, fadd), (Instr.mul, TileOp.mul, fmul), (Instr.max, TileOp.max, fmax)] →
      Lone s stop 1 o w → s.inFlight stop = false →
    ∃ t, exec (c stop) s = .next t ∧ Issued s t stop ∧
      (t.sftile stop).wr = [.mk (s.cycOf stop + 1 + s.sftLat stop 4 2) (.vreg (osel w 21 3)
        ((List.range 64).map fun l => g ((s.sftile stop).lane (osel w 18 3) l) ((s.sftile stop).lane (osel w 15 3) l)))] ∧
      (t.sftile stop).v = (s.sftile stop).v ∧ (t.sftile stop).lm = (s.sftile stop).lm ∧ t.mesh = s.mesh) ∧
  (∀ (s : State) (stop w : Nat), Lone s stop 1 .tbl w → s.inFlight stop = false → (s.sftile stop).lmUe = [] →
      (s.sftile stop).lmCe = [] →
    ∃ t, exec (.tbl stop) s = .next t ∧ Issued s t stop ∧
      (t.sftile stop).wr = [.mk (s.cycOf stop + 1 + s.sftLat stop 6 3) (.vreg (osel w 21 3)
        (((s.sftile stop).vec (osel w 18 3)).map (tblEval ((s.sftile stop).tblRd (osel w 15 3)))))] ∧
      (t.sftile stop).v = (s.sftile stop).v ∧ (t.sftile stop).lm = (s.sftile stop).lm ∧ t.mesh = s.mesh) ∧
  (∀ (c : Nat → Instr) (o : TileOp) (s : State) (stop w : Nat) (r : Run),
      (c, o) ∈ [(Instr.add, TileOp.add), (Instr.mul, TileOp.mul), (Instr.max, TileOp.max), (Instr.tbl, TileOp.tbl)] →
      Lone s stop 1 o w → (s.sftile stop).run = some r → s.cycOf stop + 1 < r.last → (s.sftile stop).wr = [] → s.pairAt stop = none →
    ∃ t, exec (c stop) s = .next t ∧ t.flag (reg stop 0x0210) 4 = true ∧ (t.sftile stop).wr = [] ∧
      (t.sftile stop).run = some r)

/-- RUN of each of the ten functions, with parameters within the limits and no RUN in progress: the function that R84 to R91 and
R183 give is computed from work memory as it stands, its results are held until the function's last tile cycle, and the layer
context named is in use. With parameters that break a limit nothing is started, `run_param` is set and an event goes out. -/
def Obligations.SftRunFunctions : Prop :=
  (∀ (c : Nat → Instr) (fn : Nat) (s : State) (stop w : Nat) (p : RunPlan),
      (c, fn) ∈ [(Instr.softmax, 0), (Instr.lnorm, 1), (Instr.gnStat, 2), (Instr.gnApply, 3), (Instr.maxpool, 4), (Instr.avgpool, 5),
        (Instr.resizeN, 6), (Instr.resizeB, 7), (Instr.topk, 8), (Instr.dwconv, 9)] →
      Lone s stop 1 (.run fn) w → s.inFlight stop = false → (s.sftile stop).lmUe = [] → (s.sftile stop).lmCe = [] →
      s.runPlan stop fn (osel w 15 5) (osel w 0 2) = some p →
    ∃ t r, exec (c stop) s = .next t ∧ Issued s t stop ∧ (t.sftile stop).run = some r ∧ r.results = p.results ∧ r.touched = false ∧
      r.last = s.cycOf stop + 1 + s.sftLat stop p.cycles 6 ∧ t.rf (reg stop 0x0010) 0 2 = osel w 0 2 ∧
      (t.sftile stop).v = (s.sftile stop).v ∧ (t.sftile stop).lm = (s.sftile stop).lm ∧ (s.debugPerm 0 = false → t.mesh = s.mesh)) ∧
  (∀ (c : Nat → Instr) (fn : Nat) (s : State) (stop w : Nat),
      (c, fn) ∈ [(Instr.softmax, 0), (Instr.lnorm, 1), (Instr.gnStat, 2), (Instr.gnApply, 3), (Instr.maxpool, 4), (Instr.avgpool, 5),
        (Instr.resizeN, 6), (Instr.resizeB, 7), (Instr.topk, 8), (Instr.dwconv, 9)] →
      Lone s stop 1 (.run fn) w → s.inFlight stop = false → s.runPlan stop fn (osel w 15 5) (osel w 0 2) = none →
    ∃ t, exec (c stop) s = .next t ∧ Issued s t stop ∧ t.flag (reg stop 0x0210) 5 = true ∧ (t.sftile stop).run = none ∧
      Sends s t [eventFlit { code := 11, stop := stop, value := fn, pipe := some (s.pipeOf stop) }] ∧
      (t.sftile stop).lm = (s.sftile stop).lm)

/-- The OUT slot of a special-function tile: NSEND narrows each lane under R37 (through its table where `tbl_en` is set) and sends
the 64 codes, STV stores a vector register's bytes unchanged after its latency, SENDM sends 64 bytes of work memory. While
`block_ok` is false a PUSH_EOP leaves as PUSH_ABORT. -/
def Obligations.SftOutputOperations : Prop :=
  (∀ (s : State) (stop w : Nat), Lone s stop 2 .nsend w → s.inFlight stop = false → (s.sftile stop).lmUe = [] →
      (s.sftile stop).lmCe = [] → bitOf (s.rtReg stop (osel w 17 4) 0) 31 = true →
    ∃ t, exec (.nsend stop) s = .next t ∧ Issued s t stop ∧
      t.mesh.cross = s.mesh.cross ++ [Sent s stop (osel w 17 4) (SentOp s stop (osel w 15 2)) ((s.ctx stop (osel w 10 5)).setWidth 16)
        (payloadOf ((if bitOf (s.sctx stop (osel w 0 2) 4) 3 then
            ((s.sftile stop).vec (osel w 21 3)).map (tblEval ((s.sftile stop).tblRd (bitsOf (s.sctx stop (osel w 0 2) 4) 0 3)))
          else (s.sftile stop).vec (osel w 21 3)).map fun v => byteOf (narrowFp v (s.outCtx stop (osel w 0 2)).scale
            (s.outCtx stop (osel w 0 2)).zp (s.outCtx stop (osel w 0 2)).lo (s.outCtx stop (osel w 0 2)).hi).y))
        (s.cycOf stop + 1 + s.sftLat stop 5 4)]) ∧
  (∀ (s : State) (stop w : Nat), Lone s stop 2 .stv w → s.inFlight stop = false → s.afAddr stop (osel w 16 5) + 4 ≤ 1536 →
    ∃ t, exec (.stv stop) s = .next t ∧ Issued s t stop ∧
      (t.sftile stop).wr = [.mk (s.cycOf stop + 1 + s.sftLat stop 3 5)
        (.bytes (s.afAddr stop (osel w 16 5) * 64) (laneBytes ((s.sftile stop).vec (osel w 21 3))))] ∧
      t.mesh = s.mesh) ∧
  (∀ (s : State) (stop w : Nat), Lone s stop 2 .sendm w → s.inFlight stop = false → (s.sftile stop).lmUe = [] →
      (s.sftile stop).lmCe = [] → s.afAddr stop (osel w 19 5) < 1536 → bitOf (s.rtReg stop (osel w 15 4) 0) 31 = true →
    ∃ t, exec (.sendm stop) s = .next t ∧ Issued s t stop ∧
      t.mesh.cross = s.mesh.cross ++ [Sent s stop (osel w 15 4) (SentOp s stop (osel w 13 2)) ((s.ctx stop (osel w 8 5)).setWidth 16)
        (payloadOf ((s.sftile stop).wmBytes (s.afAddr stop (osel w 19 5) * 64) 64)) (s.cycOf stop + 1 + s.sftLat stop 3 5)])

/-- R29, narrowing. `rne_shift`: p ÷ 2^s to the nearest integer, ties to even. `narrow`: the sum of accumulator and bias saturated to 32
bits, scaled and rounded, with the zero point added; below `q_lo` it is `q_lo`, tested first, above `q_hi` it is `q_hi`. What the monitor
counts: a value in range with the square of its error in units of 2^-8, truncated toward 0; a value below; a value above; and, beside these,
a value whose accumulator had overflowed or whose sum with the bias saturates. -/
def Obligations.NarrowingRoundsToNearestEven : Prop :=
  (∀ (p : Int) (s : Nat), 2 * (p - rneShift p s * 2 ^ s) ≤ 2 ^ s ∧ -(2 ^ s : Int) ≤ 2 * (p - rneShift p s * 2 ^ s) ∧
    ((2 * (p - rneShift p s * 2 ^ s) = 2 ^ s ∨ -(2 ^ s : Int) = 2 * (p - rneShift p s * 2 ^ s)) → 0 < s → rneShift p s % 2 = 0)) ∧
  (∀ (acc bias zp lo hi v p u rem e8 : Int) (o : Bool) (m s : Nat), v = max (-2147483648) (min 2147483647 (acc + bias)) → p = v * m →
      u = zp + rneShift p s → rem = p - rneShift p s * 2 ^ s → e8 = (rem * 256).tdiv (2 ^ s) →
    (u < lo → (narrowAcc acc o bias m s zp lo hi).y = lo ∧ (narrowAcc acc o bias m s zp lo hi).cas = .low) ∧
    (lo ≤ u → hi < u → (narrowAcc acc o bias m s zp lo hi).y = hi ∧ (narrowAcc acc o bias m s zp lo hi).cas = .high) ∧
    (lo ≤ u → u ≤ hi → (narrowAcc acc o bias m s zp lo hi).y = u ∧ (narrowAcc acc o bias m s zp lo hi).cas = .inRange (e8 * e8).natAbs) ∧
    ((narrowAcc acc o bias m s zp lo hi).ovf = true ↔ o = true ∨ v ≠ acc + bias)) ∧
  (∀ (c : MonSet) (r : Narrowed), c.count < top32 → c.satLo < top32 → c.satHi < top32 → c.ovf < top32 → c.sse < 2 ^ 47 →
      (∀ sq, r.cas = .inRange sq → sq < 2 ^ 46) →
    (c.add r).count = c.count + (if r.cas = .low ∨ r.cas = .high ∨ r.cas = .nan then 0 else 1) ∧
    (∀ sq, r.cas = .inRange sq → (c.add r).sse = c.sse + sq) ∧ (c.add r).satLo = c.satLo + (if r.cas = .low then 1 else 0) ∧
    (c.add r).satHi = c.satHi + (if r.cas = .high then 1 else 0) ∧ (c.add r).ovf = c.ovf + (if r.ovf = true then 1 else 0))

/-! ## Memory tiles -/

/-- The queue and send operations of a memory tile's schedule. SENDQ takes the head cell of a data queue, lowers the level and
reads the cell through MO for a flit on its route; SENDA reads the cell of its address form, SENDB a cell of the buffer that a
valid handle names; HPOP takes the head handle for a pair of context registers; HRET holds its push for its latency. -/
def Obligations.MemoryTileSends : Prop :=
  (∀ (s : State) (stop w : Nat), Lone s stop 2 .sendq w → s.inFlight stop = false → Still s stop → osel w 10 1 = 0 → osel w 11 1 = 0 →
      Holds s stop (osel w 18 6) →
    ∃ t op, exec (.sendq stop) s = .next t ∧ Issued s t stop ∧ t.qLevel stop (osel w 18 6) = s.qLevel stop (osel w 18 6) - 1 ∧
      (op = osel w 12 2 ∨ osel w 12 2 = 3) ∧
      (t.mtile stop).cy.mo = [MoRead.mk (s.qHead stop (osel w 18 6)) true true (BitVec.ofNat 16 (s.qf stop (osel w 18 6) 0x14 16 16))
        (.send (s.cycOf stop + 1 + s.mtLat stop 3 1) (osel w 14 4) op (BitVec.ofNat 16 (s.qf stop (osel w 18 6) 0x14 16 16))
          (s.epochOf stop) (some (osel w 18 6)))]) ∧
  (∀ (s : State) (stop w : Nat), Lone s stop 2 .senda w → s.inFlight stop = false → Still s stop →
    ∃ t, exec (.senda stop) s = .next t ∧ Issued s t stop ∧
      (t.mtile stop).cy.mo = [MoRead.mk (s.afAddr stop (osel w 19 5) % 24576) true true ((s.ctx stop (osel w 8 5)).setWidth 16)
        (.send (s.cycOf stop + 1 + s.mtLat stop 3 1) (osel w 15 4) (osel w 13 2) ((s.ctx stop (osel w 8 5)).setWidth 16)
          (s.epochOf stop) none)] ∧
      (t.mtile stop).banks = (s.mtile stop).banks ∧ (t.mtile stop).qx = (s.mtile stop).qx ∧ t.mesh = s.mesh) ∧
  (∀ (s : State) (stop w o : Nat), Lone s stop 2 .sendb w → s.inFlight stop = false → s.afAddr stop (osel w 14 5) = o →
      s.handleOk stop (s.ctx stop (osel w 19 5)) = true → o < s.bufCells stop (hBuf (s.ctx stop (osel w 19 5))) →
    ∃ t op, exec (.sendb stop) s = .next t ∧ Issued s t stop ∧
      (op = if osel w 8 2 = 3 then (if o + 1 = s.bufCells stop (hBuf (s.ctx stop (osel w 19 5))) then 1 else 0) else osel w 8 2) ∧
      (t.mtile stop).cy.mo = [MoRead.mk ((s.rf (bufLo stop (hBuf (s.ctx stop (osel w 19 5)))) 0 15 + o) % 24576) true true ((s.ctx stop ((osel w 19 5 + 1) % 32)).setWidth 16)
        (.send (s.cycOf stop + 1 + s.mtLat stop 3 1) (osel w 10 4) op ((s.ctx stop ((osel w 19 5 + 1) % 32)).setWidth 16)
          (s.epochOf stop) none)]) ∧
  (∀ (s : State) (stop w l : Nat) (rest : List Nat), Lone s stop 1 .hpop w → s.inFlight stop = false → Still s stop → Holds s stop (osel w 18 6) →
      (s.qx stop (osel w 18 6)).slots = l :: rest →
    ∃ t tag, exec (.hpop stop) s = .next t ∧ Issued s t stop ∧ t.qLevel stop (osel w 18 6) = s.qLevel stop (osel w 18 6) - 1 ∧
      (t.qx stop (osel w 18 6)).slots = rest ∧ tag = (s.qx stop (osel w 18 6)).tags.headD 0 ∧
      (t.mtile stop).cy.mo = [MoRead.mk (l / 8) true false (tag)
        (.handle (s.cycOf stop + 1 + s.mtLat stop 3 2) (osel w 13 5) (32 * (l % 8)) tag (osel w 18 6))]) ∧
  (∀ (s : State) (stop w : Nat), Lone s stop 1 .hret w → s.inFlight stop = false → Still s stop →
    ∃ t, exec (.hret stop) s = .next t ∧ Issued s t stop ∧
      (t.mtile stop).hrets = [(s.cycOf stop + 1 + s.mtLat stop 2 3, osel w 18 6, s.ctx stop (osel w 13 5),
        (s.ctx stop ((osel w 13 5 + 1) % 32)).setWidth 16)] ∧
      (t.mtile stop).qx = (s.mtile stop).qx ∧ (t.mtile stop).banks = (s.mtile stop).banks ∧ t.mesh = s.mesh)

/-- The expander and the stream slots. EXPAND with a sound descriptor reads its window and moves the pointers on; the flush of a
completed block writes the cells that are left of its 64 and advances the slot, and its buffer reads as zeros; FETCH, of a schedule or of the host, starts an idle slot whose
descriptor passes the checks, is refused on a busy one, and SHALT ends a slot with no read in flight. -/
def Obligations.ExpanderAndStreamSlots : Prop :=
  (∀ (s : State) (stop w : Nat), Lone s stop 0 .expand w → s.inFlight stop = false → (s.xdesc stop (osel w 20 4)).ok = true →
    ∃ t e, exec (.expand stop) s = .next t ∧ Issued s t stop ∧ (t.mtile stop).cy.ex = some e ∧
      e.land = s.cycOf stop + 1 + s.mtLat stop 4 0 ∧ e.row = s.rf (reg stop 0x3084) 0 6 ∧ e.col = s.rf (reg stop 0x3084) 8 6 ∧
      e.pos.length = (s.xdesc stop (osel w 20 4)).npos ∧
      t.rf (reg stop 0x3084) 0 6 = (nextPos (s.nrows stop) (s.xdesc stop (osel w 20 4)).npos (s.rf (reg stop 0x3084) 0 6)
        (s.rf (reg stop 0x3084) 8 6)).1 % 64 ∧
      t.rf (reg stop 0x3084) 8 6 = (nextPos (s.nrows stop) (s.xdesc stop (osel w 20 4)).npos (s.rf (reg stop 0x3084) 0 6)
        (s.rf (reg stop 0x3084) 8 6)).2.1 % 64) ∧
  (∀ (s : State) (stop : Nat) (f : Flush), Form s → stop < 448 → kindOf stop = .mt → (s.mtile stop).flushes = [f] → s.schState stop ≠ 2 →
      f.start ≤ s.cycOf stop + 1 → f.keep = true →
    ∃ t, exec (.expanderFlush stop) s = .next t ∧
      t.rf (reg stop 0x3084) 16 4 = (if f.slot = s.rf (reg stop 0x3080) 24 4 then 0 else f.slot + 1) % 16 ∧ (t.mtile stop).flushes = [] ∧
      (∀ v < 64, s.cycOf stop < f.start + v →
        (t.mtile stop).word (evenBank (s.flushTo stop f v)) (cellWord (s.flushTo stop f v)) = ((s.mtile stop).flushData f v).extractLsb' 0 256 ∧
        (t.mtile stop).word (evenBank (s.flushTo stop f v) + 1) (cellWord (s.flushTo stop f v)) =
          ((s.mtile stop).flushData f v).extractLsb' 256 256) ∧
      (∀ i < 4096, tget 0 (t.mtile stop).xb (4096 * f.buf + i) = 0) ∧
      Kept s t [reg stop 0x3084, reg stop 0x0200] ∧ t = { s with regs := t.regs, mt := t.mt }) ∧
  (∀ (s : State) (stop k : Nat), Form s → stop < 448 → kindOf stop = .mt → k < 16 → s.flag (reg stop (0x2404 + 16 * k)) 0 = false →
      (s.sdesc stop k).epoch = s.epochOf stop → (s.sdesc stop k).check = 0 →
    ∃ t, exec (.fetch stop (some k)) s = .next t ∧ t.flag (reg stop (0x2404 + 16 * k)) 0 = true ∧
      t.mtile stop = { s.mtile stop with strm := tput {} (s.mtile stop).strm k { crop := s.cropStart (s.sdesc stop k).base } } ∧ Kept s t [reg stop (0x2404 + 16 * k)] ∧ t = { s with regs := t.regs, mt := t.mt }) ∧
  (∀ (s : State) (stop k : Nat), Form s → stop < 448 → kindOf stop = .mt → k < 16 → s.flag (reg stop (0x2404 + 16 * k)) 0 = true →
    ∃ t, exec (.fetch stop (some k)) s = .next t ∧ t.flag (reg stop 0x0224) 0 = true ∧
      Kept s t [reg stop 0x0224] ∧ t = { s with regs := t.regs }) ∧
  (∀ (s : State) (stop w : Nat), Lone s stop 0 .fetch w → s.inFlight stop = false →
      s.flag (reg stop (0x2404 + 16 * osel w 20 4)) 0 = false → (s.sdesc stop (osel w 20 4)).epoch = s.epochOf stop →
      (s.sdesc stop (osel w 20 4)).check = 0 →
    ∃ t, exec (.fetch stop none) s = .next t ∧ Issued s t stop ∧ t.flag (reg stop (0x2404 + 16 * osel w 20 4)) 0 = true) ∧
  (∀ (s : State) (stop k : Nat), Form s → stop < 448 → kindOf stop = .mt → k < 16 → s.flag (reg stop (0x2404 + 16 * k)) 0 = true →
      s.rf (reg stop (0x2404 + 16 * k)) 8 8 = 0 → s.strm stop k = {} → (s.sdesc stop k).check = 0 →
      (∀ j < 16, j ≠ k → s.flag (sstat stop j) 0 = false) →
    ∃ t, exec (.shalt stop (some k)) s = .next t ∧ t.flag (reg stop (0x2404 + 16 * k)) 0 = false ∧
      Kept s t [reg stop (0x2404 + 16 * k)] ∧ t = { s with regs := t.regs, mt := t.mt }) ∧
  (∀ (s : State) (stop w : Nat), Lone s stop 0 .shalt w → s.inFlight stop = false →
      s.flag (reg stop (0x2404 + 16 * osel w 20 4)) 0 = true → s.rf (reg stop (0x2404 + 16 * osel w 20 4)) 8 8 = 0 →
      s.strm stop (osel w 20 4) = {} → (s.sdesc stop (osel w 20 4)).check = 0 →
      (∀ j < 16, j ≠ osel w 20 4 → s.flag (sstat stop j) 0 = false) →
    ∃ t, exec (.shalt stop none) s = .next t ∧ Issued s t stop ∧ t.flag (reg stop (0x2404 + 16 * osel w 20 4)) 0 = false)

/-- Pushes into a memory tile's data queue. A PUSH that the queue takes lengthens the open packet by a cell from the pool and
leaves the committed level; a PUSH_EOP commits the packet, so that the level rises by its length; a PUSH_ABORT gives the
packet's cells back. Each consumes the flit that crosses in and counts one push. The host's return of a held buffer's handle
joins its free list, with the buffer FREE and its generation one higher. -/
def Obligations.PushesIntoQueues : Prop :=
  (∀ (s : State) (stop : Nat) (f : Flit), Form s → Arriving s stop 0 f → Takes s stop f.dstQ f.tag f.epoch →
      (s.qOpen stop f.dstQ = false → s.qOpenLen stop f.dstQ = 0) →
    ∃ t, exec (.push stop) s = .next t ∧ t.mesh.into = s.mesh.into.erase (stop, f) ∧ t.qOpen stop f.dstQ = true ∧
      t.qOpenLen stop f.dstQ = s.qOpenLen stop f.dstQ + 1 ∧ t.qLevel stop f.dstQ = s.qLevel stop f.dstQ ∧
      (t.qx stop f.dstQ).pushes = (s.qx stop f.dstQ).pushes + 1 ∧ (s.qOpen stop f.dstQ = false → (t.qx stop f.dstQ).openTag = f.tag)) ∧
  (∀ (s : State) (stop : Nat) (f : Flit), Form s → Arriving s stop 1 f → Takes s stop f.dstQ f.tag f.epoch →
      (s.qOpen stop f.dstQ = false → s.qOpenLen stop f.dstQ = 0) → s.qLevel stop f.dstQ + s.qOpenLen stop f.dstQ < 65535 →
    ∃ t, exec (.pushEop stop) s = .next t ∧ t.mesh.into = s.mesh.into.erase (stop, f) ∧ t.qOpen stop f.dstQ = false ∧
      t.qOpenLen stop f.dstQ = 0 ∧ t.qLevel stop f.dstQ = s.qLevel stop f.dstQ + s.qOpenLen stop f.dstQ + 1) ∧
  (∀ (s : State) (stop : Nat) (f : Flit), Form s → Arriving s stop 2 f → Takes s stop f.dstQ f.tag f.epoch →
      s.qOpen stop f.dstQ = true →
    ∃ t, exec (.pushAbort stop) s = .next t ∧ t.mesh.into = s.mesh.into.erase (stop, f) ∧ t.qOpen stop f.dstQ = false ∧
      t.qOpenLen stop f.dstQ = 0 ∧ t.qLevel stop f.dstQ = s.qLevel stop f.dstQ ∧
      (t.mtile stop).banks = (s.mtile stop).banks) ∧
  (∀ (s : State) (stop q : Nat) (h : Word), Form s → stop < 448 → kindOf stop = .mt → hBuf h ≤ 1023 → hMt h = mtIndex stop →
      s.rf (bufHi stop (hBuf h)) 0 6 = q → s.bufCells stop (hBuf h) ≠ 0 → hGen h = s.bufGen stop (hBuf h) →
      s.bufState stop (hBuf h) = 1 → s.qbit stop q 0 0 = true → s.qbit stop q 0 2 = true → s.qbit stop q 0x18 5 = false →
      s.handleOver stop q = false → s.hostMi stop = true → s.qLevel stop q < 65535 → (s.qx stop q).spill = none → nextSlot (s.qx stop q) (s.qLimit stop q) = none →
      (s.mtile stop).poolFree ≠ 0 →
    ∃ t, exec (.hostHandleReturn stop h) s = .next t ∧ t.bufState stop (hBuf h) = 0 ∧
      t.bufGen stop (hBuf h) = (s.bufGen stop (hBuf h) + 1) % 256 ∧ t.qLevel stop q = s.qLevel stop q + 1)

/-! ## Streams, HBM ports, ring writers, spills -/

/-- The fetch engine and the HBM ports. A slot reserves its next packet in its queue when that has room, and one that fills buffers
pops a handle through MO in a tile cycle that leaves MO idle (log 24); the engine issues one
read for the elements that share a 64-byte block; padded elements next in turn need none and are at hand with either; a port
admits its candidate when the tokens suffice and takes one token of its stack's bucket and one of the global bucket; a regulator
tick adds the rates to the accumulators and their whole parts to the tokens, up to the depths; an admitted read's return gives its
slot the bytes of its elements. -/
def Obligations.StreamsAndHbmPorts : Prop :=
  (∀ (s : State) (stop k p : Nat) (d : Desc) (x : Strm) (data : Tbl (List Byte)), Form s → stop < 448 → kindOf stop = .mt → k < 16 →
      s.flag (reg stop (0x2404 + 16 * k)) 0 = true → s.sdesc stop k = d → s.strm stop k = x → d.padRun x.next d.perPacket = p →
      tputAll [] x.data ((List.range p).map fun i => (x.next + i, List.replicate d.esize d.padValue)) = data →
      (p = 0 ∨ (x.pkt * d.perPacket < d.total ∧ d.cellBytes data x.pkt x.cell = none ∧ ∀ j < 16, j ≠ k → s.feNext stop j = .idle)) →
      d.epoch = s.epochOf stop → x.stopping = 0 → x.popping = false → x.resvEnd ≤ x.next → x.next < d.total → d.toBuf = false →
      s.qLevel stop d.dstQ + (s.qx stop d.dstQ).behind false + s.qOpenLen stop d.dstQ +
        s.qResv stop d.dstQ + d.pktCells ≤ s.qLimit stop d.dstQ →
    ∃ t, exec (.fetchReserve stop k) s = .next t ∧
      t.qResv stop d.dstQ = s.qResv stop d.dstQ + d.pktCells ∧
      t.strm stop k = { x with next := x.next + p, resvEnd := x.next + d.perPacket, resv := x.resv + d.pktCells, data := data } ∧
      Kept s t [qReg stop d.dstQ 0x10] ∧ t = { s with regs := t.regs, mt := t.mt }) ∧
  (∀ (s : State) (stop k l : Nat) (rest : List Nat) (d : Desc) (x : Strm), Form s → stop < 448 → kindOf stop = .mt → k < 16 →
      s.flag (reg stop (0x2404 + 16 * k)) 0 = true → s.sdesc stop k = d → s.strm stop k = x → d.epoch = s.epochOf stop →
      x.stopping = 0 → x.popping = false → x.resvEnd ≤ x.next → x.next < d.total → d.toBuf = true → (s.mtile stop).cy.mo = [] →
      Holds s stop d.freeQ → (s.qx stop d.freeQ).slots = l :: rest →
    ∃ t, exec (.fetchReserve stop k) s = .next t ∧ t.qLevel stop d.freeQ = s.qLevel stop d.freeQ - 1 ∧ (t.qx stop d.freeQ).slots = rest ∧
      t.strm stop k = { x with popping := true } ∧
      (t.mtile stop).cy.mo = [{ cell := l / 8, lo := true, hi := false, tag := (s.qx stop d.freeQ).tags.headD 0,
                                use := .engine k (32 * (l % 8)) ((s.qx stop d.freeQ).tags.headD 0) d.freeQ }]) ∧
  (∀ (s : State) (stop k n p : Nat) (a : Int) (d : Desc) (x : Strm) (data : Tbl (List Byte)), Form s → stop < 448 → kindOf stop = .mt →
      ((List.range 16).map fun j => s.rf (reg stop (0x2404 + 16 * j)) 8 8).sum < 128 → s.chooseSlot stop = some k →
      s.sdesc stop k = d → s.strm stop k = x → d.addr x.next = some a → 0 ≤ a → a < 0xC00000000 →
      d.blockRun (a / 64) x.next (x.resvEnd - x.next) = n → d.padRun (x.next + n) (x.resvEnd - (x.next + n)) = p →
      tputAll [] x.data ((List.range p).map fun i => (x.next + n + i, List.replicate d.esize d.padValue)) = data →
      (p = 0 ∨ (x.pkt * d.perPacket < d.total ∧ d.cellBytes data x.pkt x.cell = none ∧ ∀ j < 16, j ≠ k → s.feNext stop j = .idle)) →
    ∃ t, exec (.fetchReadIssue stop) s = .next t ∧
      t.reads = s.reads ++ [{ stop := stop, slot := k, el := x.next, n := n, addr := (a / 64).toNat * 64, key := s.slotKey stop k,
                              admitted := false }] ∧
      t.strm stop k = { x with next := x.next + n + p, data := data } ∧
      t.rf (reg stop (0x2404 + 16 * k)) 8 8 = s.rf (reg stop (0x2404 + 16 * k)) 8 8 + 1 ∧
      t.rf (reg stop (0x2408 + 16 * k)) 0 24 = s.slotKey stop k ∧
      Kept s t [reg stop (0x2404 + 16 * k), reg stop (0x2408 + 16 * k)] ∧ t = { s with regs := t.regs, mt := t.mt, reads := t.reads }) ∧
  (∀ (s : State) (port : Nat) (r : FRead), Form s → port < 16 → s.candidate port = some r →
      (grantReads (((List.range 16).filterMap s.candidate).foldl (fun l r => insertRead r l) []) (s.rf 0x0300F00C 0 16)
        (s.rf 0x0300F00C 16 16) (s.rf 0x0300F010 0 16)).contains r = true →
    ∃ t, exec (.hbmReadAdmit port) s = .next t ∧
      t.rf 0x0300F00C 0 16 = s.rf 0x0300F00C 0 16 - (if stackOf r.addr = 0 then 1 else 0) ∧
      t.rf 0x0300F00C 16 16 = s.rf 0x0300F00C 16 16 - (if stackOf r.addr = 0 then 0 else 1) ∧
      t.rf 0x0300F010 0 16 = s.rf 0x0300F010 0 16 - 1 ∧
      t.reads = s.reads.map (fun x => if x = r then { x with admitted := true } else x) ∧
      Kept s t [0x0300F00C, 0x0300F010] ∧ t = { s with regs := t.regs, reads := t.reads, hbpCk := t.hbpCk }) ∧
  (∀ s : State, Form s →
    ∃ t, exec .regulatorTick s = .next t ∧
      t.rf 0x0300F00C 0 16 = (if s.rf 0x0300F00C 0 16 < s.rf 0x0300F000 16 16 then
        min (s.rf 0x0300F000 16 16) (s.rf 0x0300F00C 0 16 + (s.bucket.accA + s.rf 0x0300F000 0 12) / 256) else s.rf 0x0300F00C 0 16) ∧
      t.rf 0x0300F00C 16 16 = (if s.rf 0x0300F00C 16 16 < s.rf 0x0300F004 16 16 then
        min (s.rf 0x0300F004 16 16) (s.rf 0x0300F00C 16 16 + (s.bucket.accB + s.rf 0x0300F004 0 12) / 256) else s.rf 0x0300F00C 16 16) ∧
      t.rf 0x0300F010 0 16 = (if s.rf 0x0300F010 0 16 < s.rf 0x0300F008 16 16 then
        min (s.rf 0x0300F008 16 16) (s.rf 0x0300F010 0 16 + (s.bucket.accG + s.rf 0x0300F008 0 13) / 256) else s.rf 0x0300F010 0 16) ∧
      t.bucket.accA = (s.bucket.accA + s.rf 0x0300F000 0 12) % 256 ∧ t.bucket.accB = (s.bucket.accB + s.rf 0x0300F004 0 12) % 256 ∧
      t.bucket.accG = (s.bucket.accG + s.rf 0x0300F008 0 13) % 256 ∧
      Kept s t [0x0300F00C, 0x0300F010] ∧ t = { s with regs := t.regs, bucket := t.bucket }) ∧
  (∀ (s : State) (i : Nat) (r : FRead) (d : Desc) (x : Strm) (got : List (Nat × List Byte)), Form s → s.reads[i]? = some r →
      r.admitted = true → r.stop < 448 → r.slot < 16 → s.hbm.ue = [] → s.hbm.ce = [] → s.sdesc r.stop r.slot = d →
      s.strm r.stop r.slot = x → x.next ≠ 0 → x.stopping = 0 → x.pkt * d.perPacket < d.total →
      s.flag (reg r.stop (0x2404 + 16 * r.slot)) 0 = true →
      ((List.range r.n).map fun j => (r.el + j, (((List.range 64).map fun b => tget 0 s.hbm.bytes (r.addr + b)).drop
        (((d.addr (r.el + j)).getD 0).toNat % 64)).take d.esize)) = got →
      d.cellBytes (tputAll [] x.data got) x.pkt x.cell = none → (∀ j < 16, j ≠ r.slot → s.feNext r.stop j = .idle) →
    ∃ t, exec (.fetchReadReturn i) s = .next t ∧ t.reads = s.reads.eraseIdx i ∧
      t.strm r.stop r.slot = { x with data := tputAll [] x.data got } ∧
      t.rf (reg r.stop (0x2404 + 16 * r.slot)) 8 8 = s.rf (reg r.stop (0x2404 + 16 * r.slot)) 8 8 - 1 ∧
      Kept s t [reg r.stop (0x2404 + 16 * r.slot)] ∧
      t = { s with regs := t.regs, mt := t.mt, reads := t.reads })

/-- Ring writers. A flit of the writer's epoch adds one position to the gather buffer, its byte r to plane r; a full buffer is
written as one cell of each plane of the ring row, a pad row as cells of the zero point, one cell in each tile cycle in which R194 grants
the writer MI. -/
def Obligations.RingWriters : Prop :=
  (∀ (s : State) (stop k : Nat) (f : Flit), Form s → kindOf stop = .mt → stop < 448 →
      (s.mesh.into.find? fun x => x.1 == stop) = some (stop, f) → s.writerOf stop f.dstQ = some k → f.epoch = s.epochOf stop →
      f.op ≠ 2 → ((s.setWrt stop k { s.wrt stop k with resv := (s.wrt stop k).resv - 1 }).wrt stop k).bufs = [] → s.rf (rwReg stop k 0x14) 0 13 + 1 < s.rf (rwReg stop k 0xC) 0 13 →
    ∃ t, exec (.ringWriterFlit stop) s = .next t ∧ t.mesh = { s.mesh with into := s.mesh.into.erase (stop, f) } ∧
      (t.wrt stop k).bufs = [{ x0 := s.rf (rwReg stop k 0x14) 0 13, n := 1, full := false, ends := false,
                               bytes := tputAll 0 [] ((List.range (s.rf (rwReg stop k 0) 20 7)).map fun c => (c, byteAt f.payload c)) }] ∧
      t.rf (rwReg stop k 0x14) 0 13 = s.rf (rwReg stop k 0x14) 0 13 + 1 ∧
      Kept s t [rwReg stop k 0x14] ∧ t = { s with regs := t.regs, mt := t.mt, mesh := t.mesh }) ∧
  (∀ (s : State) (stop k : Nat) (f : Flit), Form s → kindOf stop = .mt → stop < 448 →
      (s.mesh.into.find? fun x => x.1 == stop) = some (stop, f) → s.writerOf stop f.dstQ = some k → f.epoch ≠ s.epochOf stop →
    ∃ t, exec (.ringWriterFlit stop) s = .next t ∧ t.mesh = { s.mesh with into := s.mesh.into.erase (stop, f) } ∧
      t.rf (rwReg stop k 0x1C) 16 16 = holdAt 65535 (s.rf (rwReg stop k 0x1C) 16 16 + 1) ∧ Kept s t [rwReg stop k 0x1C]) ∧
  (∀ (s : State) (stop k : Nat) (g : Gather) (rest : List Gather) (p : Payload), Form s → kindOf stop = .mt → stop < 448 → k < 4 →
      s.miFree stop k = true → s.flag (rwReg stop k 0) 0 = true → s.debugPerm 0 = false → (s.wrt stop k).bot + (s.wrt stop k).top = 0 →
      (s.wrt stop k).bufs = g :: rest → g.full = true → (s.wrt stop k).cell < s.rf (rwReg stop k 0) 20 7 →
      (g.ends = false ∨ (s.wrt stop k).cell + 1 < s.rf (rwReg stop k 0) 20 7) →
      payloadOf ((List.range 64).map fun i => if i < g.n then tget 0 g.bytes (i * 64 + (s.wrt stop k).cell) else
        (s.rd (rwReg stop k 4)).extractLsb' 24 8) = p →
    ∃ t, exec (.ringWriterCellWrite stop k) s = .next t ∧
      (t.mtile stop).wrt = tput {} (s.mtile stop).wrt k (if (s.wrt stop k).cell + 1 < s.rf (rwReg stop k 0) 20 7 then
        { s.wrt stop k with cell := (s.wrt stop k).cell + 1 } else { s.wrt stop k with cell := 0, bufs := rest }) ∧
      CellWrite s t stop (s.ringCell stop k (s.rf (rwReg stop k 0) 8 12 + (s.wrt stop k).cell) (g.x0 / 64)) p ∧
      Kept s t [reg stop 0x0200] ∧ t = { s with regs := t.regs, mt := t.mt }) ∧
  (∀ (s : State) (stop k rc : Nat), Form s → kindOf stop = .mt → stop < 448 → k < 4 → s.miFree stop k = true →
      s.flag (rwReg stop k 0) 0 = true → s.debugPerm 0 = false → (s.wrt stop k).bot + (s.wrt stop k).top ≠ 0 →
      s.rf (rwReg stop k 4) 15 7 = rc → (s.wrt stop k).cell + 1 < s.rf (rwReg stop k 0) 20 7 * rc →
    ∃ t, exec (.ringWriterCellWrite stop k) s = .next t ∧
      (t.mtile stop).wrt = tput {} (s.mtile stop).wrt k { s.wrt stop k with cell := (s.wrt stop k).cell + 1 } ∧
      CellWrite s t stop (s.ringCell stop k (s.rf (rwReg stop k 0) 8 12 + (s.wrt stop k).cell / rc) ((s.wrt stop k).cell % rc))
        (payloadOf (List.replicate 64 ((s.rd (rwReg stop k 4)).extractLsb' 24 8))) ∧
      Kept s t [reg stop 0x0200] ∧ t = { s with regs := t.regs, mt := t.mt })

/-- Spill and restore of a data queue. The acknowledgement of the oldest spill write stores the cell at its place in the
segment and frees it; with the last of a spill's first writes the queue enters spilled state, and in it staging goes on into what room
the segment has; the return of the segment's first cell links a pool cell that holds its data to the head region, whose level rises. -/
def Obligations.SpillAndRestore : Prop :=
  (∀ (s : State) (stop q c side room : Nat) (v : Payload) (p : Spill) (rest : List SpCell), Form s → stop < 448 → kindOf stop = .mt → q < 64 →
      (s.qx stop q).spill = some p → p.writing = { cell := c, sent := some (side, v) } :: rest → p.acks ≠ 0 → p.rd ≤ p.wr → p.cells ≠ 0 →
      p.cells - (p.wr + 1 + rest.length - p.rd) = room →
    ∃ t, exec (.spillWriteAck stop q) s = .next t ∧
      (t.qx stop q).spill = some (if p.entered = true ∨ rest = [] then
          { p with wr := p.wr + 1, acks := p.acks - 1, entered := true, writing := rest ++ p.staged.take room, staged := p.staged.drop room }
        else { p with wr := p.wr + 1, acks := p.acks - 1, writing := rest }) ∧
      (p.entered = false → rest = [] → t.flag (reg stop (0x6000 + 8 * q)) 0 = true) ∧
      (∀ i < 64, tget 0 t.hbm.bytes (p.base + 0x40 + 8 * p.cells + 64 * (p.wr % p.cells) + i) = byteAt v i) ∧
      (∀ i < 8, tget 0 t.hbm.bytes (p.base + 0x40 + 8 * (p.wr % p.cells) + i) = (leBytes side 8).getD i 0) ∧
      (t.mtile stop).cy.frees = insertFree q c (s.mtile stop).cy.frees ∧ (t.mtile stop).banks = (s.mtile stop).banks ∧
      Kept s t [reg stop (0x6000 + 8 * q)] ∧ t = { s with regs := t.regs, mt := t.mt, hbm := t.hbm, mesh := t.mesh }) ∧
  (∀ (s : State) (stop q c : Nat) (p : Spill) (rest : List Nat), Form s → stop < 448 → kindOf stop = .mt → q < 64 →
      (s.qx stop q).spill = some p → p.asked = 2 → s.restores stop q p = true → p.rd + 1 < p.wr → s.qIsHandle stop q = false →
      (s.mtile stop).free = c :: rest → (s.mtile stop).sideUe = [] → s.hbm.ue = [] → s.hbm.ce = [] → (s.qx stop q).skip = false →
    ∃ t, exec (.restoreReturn stop q) s = .next t ∧ t.qLevel stop q = s.qLevel stop q + 1 ∧ (t.mtile stop).free = rest ∧
      (t.qx stop q).restored = (s.qx stop q).restored ++ [c] ∧ (t.qx stop q).spill.map (fun p => (p.rd, p.asked)) = some (p.rd + 1, 0) ∧
      CellWrite s t stop c (payloadOf (s.hbmGet (p.base + 0x40 + 8 * p.cells + 64 * (p.rd % p.cells)) 64)) ∧
      t = { s with regs := t.regs, mt := t.mt, hbm := t.hbm })

/-! ## The mesh -/

/-- A reserved flit from its tile to its destination: from the crossing into the injection FIFO of its route, in a cycle of the
route's slot set onto its first link, from link to link at the delay of each hop, into the arrival buffer of its destination,
and from there into its unit; a header that arrives with an uncorrectable error loses its flit. An unreserved flit enters at its source
and takes its first link where that is idle, and at the end of its last link its unit has what it carries (R213, R217, R218). -/
def Obligations.FlitsCrossTheMesh : Prop :=
  (∀ (s : State) (stop rt : Nat) (x : Xing), (s.mesh.cross.find? fun y => y.stop == stop && y.rt == rt) = some x →
      x.ready ≤ s.cycOf stop → x.flit.dst ≤ 447 → (tget [] s.mesh.inj (stop * 16 + rt)).length < 8 →
    ∃ t, exec (.injectionFifoEntry stop rt) s = .next t ∧
      tget [] t.mesh.inj (stop * 16 + rt) = tget [] s.mesh.inj (stop * 16 + rt) ++ [{ flit := x.flit, since := s.ck }] ∧
      t.mesh = { s.mesh with cross := s.mesh.cross.erase x, inj := t.mesh.inj } ∧ t = { s with mesh := t.mesh }) ∧
  (∀ (s : State) (stop rt : Nat) (x : Waiting) (rest : List Waiting), rt < 16 →
      tget [] s.mesh.inj (stop * 16 + rt) = x :: rest → x.since < s.ck → s.inSlotSet stop rt (s.ck % 64) = true → x.flit.hdrErr = 0 →
      tget 0 s.mesh.injCk (stop * 16 + rt) ≠ s.ck + 1 → linkTo stop x.flit.dst < 4 →
      (∀ y ∈ s.mesh.flying, ¬(y.stop = stop ∧ y.link = linkTo stop x.flit.dst ∧ y.enter = s.ck)) →
      s.flag (trcReg (dieOf stop) 0) 0 = false →
    ∃ t, exec (.injectionDepart stop rt) s = .next t ∧
      t.mesh = { s.mesh with
        inj := tput [] s.mesh.inj (stop * 16 + rt) rest,
        injCk := tput 0 s.mesh.injCk (stop * 16 + rt) (s.ck + 1),
        flying := s.mesh.flying ++ [{ flit := { x.flit with entered := s.ck }, stop := stop, link := linkTo stop x.flit.dst, enter := s.ck }],
        uns := s.mesh.uns.map (UFlit.bump stop (linkTo stop x.flit.dst) s.ck) } ∧
      t = { s with mesh := t.mesh }) ∧
  (∀ (s : State) (k n l cyc : Nat) (flips : List Nat) (x : Flying), s.mesh.flying[k]? = some x → linkEnd x.stop x.link = n → n ≠ x.flit.dst →
      x.enter + hopCycles x.stop x.link = cyc → cyc ≤ s.ck → linkTo n x.flit.dst = l → (overWire x.flit flips).hdrErr = 0 →
      (∀ y ∈ s.mesh.flying.eraseIdx k, ¬(y.stop = n ∧ y.link = l ∧ y.enter = cyc)) →
    ∃ t, exec (.flitHop ⟨k, flips⟩) s = .next t ∧
      t.mesh = { s.mesh with
        flying := s.mesh.flying.eraseIdx k ++ [{ flit := overWire x.flit flips, stop := n, link := l, enter := cyc }],
        uns := s.mesh.uns.map (UFlit.bump n l cyc) } ∧
      t = { s with mesh := t.mesh }) ∧
  (∀ (s : State) (k n : Nat) (flips : List Nat) (x : Flying), Form s → s.mesh.flying[k]? = some x → linkEnd x.stop x.link = n → n ≠ x.flit.dst →
      n < 448 → x.enter + hopCycles x.stop x.link ≤ s.ck → (overWire x.flit flips).hdrErr = 2 → x.flit.rsv = true →
    ∃ t, exec (.flitHop ⟨k, flips⟩) s = .next t ∧ t.flag (reg n 0xF400) 3 = true ∧
      t.rf (reg n 0xF414) 16 16 = holdAt 65535 (s.rf (reg n 0xF414) 16 16 + 1) ∧
      t.mesh = { s.mesh with
        flying := s.mesh.flying.eraseIdx k
        uns := s.mesh.uns ++ [eventFlit { code := 10, stop := n, value := x.flit.flow, pipe := s.flowPipe x.flit.flow }] } ∧
      Kept s t [reg n 0xF400, reg n 0xF414] ∧ t = { s with regs := t.regs, mesh := t.mesh }) ∧
  (∀ (s : State) (k : Nat) (flips : List Nat) (x : Flying), s.mesh.flying[k]? = some x → linkEnd x.stop x.link = x.flit.dst →
      x.enter + hopCycles x.stop x.link ≤ s.ck → (overWire x.flit flips).hdrErr = 0 →
      (∀ y ∈ s.mesh.flying.eraseIdx k, y.flit.dst = x.flit.dst → linkEnd y.stop y.link = x.flit.dst →
        x.enter + hopCycles x.stop x.link ≤ y.enter + hopCycles y.stop y.link) →
      (s.arrBuf x.flit.dst).length < 16 →
    ∃ t, exec (.arrivalBufferEntry ⟨k, flips⟩) s = .next t ∧ t.arrBuf x.flit.dst = s.arrBuf x.flit.dst ++ [overWire x.flit flips] ∧
      t.mesh = { s.mesh with flying := s.mesh.flying.eraseIdx k, arr := t.mesh.arr } ∧ t = { s with mesh := t.mesh }) ∧
  (∀ (s : State) (stop : Nat) (f : Flit) (rest : List Flit), isTile stop = true ∨ isEngine stop = true →
      s.arrBuf stop = f :: rest → tget 0 s.mesh.dep stop ≠ s.ck + 1 → s.answers (stopDomain stop) = true → f.par = 0 →
      f.op < 3 → f.typ < 8 → f.dstQ < 8 → s.canTake stop f = true → s.writerOf stop f.dstQ = none →
      s.flag (trcReg (dieOf stop) 0) 0 = false →
    ∃ t, exec (.arrivalBufferDepart stop) s = .next t ∧
      t.mesh = { s.mesh with arr := tput [] s.mesh.arr stop rest, dep := tput 0 s.mesh.dep stop (s.ck + 1),
                             into := s.mesh.into ++ [(stop, f)] } ∧ t = { s with mesh := t.mesh }) ∧
  (∀ (s : State) (k : Nat) (u : UFlit) (flips : List Nat), s.mesh.uns = [u] → s.mesh.flying = [] → k = 0 → u.place = .source →
      u.stop ≠ u.flit.dst → linkTo u.stop u.flit.dst < 4 → s.phase (stopDomain u.flit.dst) ≠ 1 → s.answers (stopDomain u.stop) = true →
      s.flag (trcReg (dieOf u.stop) 0) 0 = false →
    exec (.flitHop ⟨k, flips⟩) s = .next { s with mesh := { s.mesh with uns :=
      [{ u with flit := { u.flit with entered := s.ck }, place := .link 4 (linkTo u.stop u.flit.dst) s.ck }] } }) ∧
  (∀ (s : State) (k inl out enter : Nat) (u : UFlit), s.mesh.uns[k]? = some u → u.place = .link inl out enter →
      enter + hopCycles u.stop out ≤ s.ck → linkEnd u.stop out = u.flit.dst → u.flit.hdrErr = 0 → u.flit.par = 0 →
      s.answers (stopDomain u.flit.dst) = true → s.flag (trcReg (dieOf u.flit.dst) 0) 0 = false →
    ∃ t, exec (.flitHop ⟨s.mesh.flying.length + k, []⟩) s = .next t ∧
      (∀ e, u.msg = .event e → t = { s with events := s.events ++ [e], mesh := { s.mesh with uns := s.mesh.uns.eraseIdx k } }) ∧
      (∀ n, u.msg = .notice n → t = { s with notices := s.notices ++ [n], mesh := { s.mesh with uns := s.mesh.uns.eraseIdx k } }) ∧
      (∀ r, u.msg = .reply r → t = { s with
        sync := { s.sync with replies := s.sync.replies ++ [r] }
        mesh := { s.mesh with uns := s.mesh.uns.eraseIdx k } }) ∧
      (∀ m, u.msg = .op m → (tget (0, 0) s.sync.came (syuOf m.obj)).1 ≠ s.ck + 1 →
        t.sync.msgs = s.sync.msgs ++ [m] ∧ t = { s with sync := t.sync, mesh := { s.mesh with uns := s.mesh.uns.eraseIdx k } }))

/-- Where two reserved flits claim one link in one cycle, the one of the lower flow keeps it, the other is lost, counted in the
stop's collision count and named in its error register, and an event goes out (R217). -/
def Obligations.CollisionsOnALink : Prop :=
  ∀ (s : State) (stop rt : Nat) (x : Waiting) (rest : List Waiting) (o : Flying), Form s → stop < 448 → rt < 16 →
    tget [] s.mesh.inj (stop * 16 + rt) = x :: rest → x.since < s.ck → s.inSlotSet stop rt (s.ck % 64) = true → x.flit.hdrErr = 0 →
    tget 0 s.mesh.injCk (stop * 16 + rt) ≠ s.ck + 1 → linkTo stop x.flit.dst < 4 → x.flit.flow < 8192 → o.flit.flow < 8192 →
    (s.mesh.flying.find? fun y => y.stop == stop && y.link == linkTo stop x.flit.dst && y.enter == s.ck && linkTo stop x.flit.dst != 4) = some o →
    s.flag (trcReg (dieOf stop) 0) 0 = false → s.debugPerm 0 = false → s.flows = [] →
    ∃ t, exec (.injectionDepart stop rt) s = .next t ∧
      t.mesh = { s.mesh with
        inj := tput [] s.mesh.inj (stop * 16 + rt) rest,
        injCk := tput 0 s.mesh.injCk (stop * 16 + rt) (s.ck + 1),
        flying := s.mesh.flying.map (fun y => if y = o then
          { flit := if o.flit.flow ≤ x.flit.flow then o.flit else { x.flit with entered := s.ck }, stop := stop,
            link := linkTo stop x.flit.dst, enter := s.ck, collided := true } else y),
        uns := s.mesh.uns ++ [eventFlit { code := 10, stop := stop, value := max x.flit.flow o.flit.flow, pipe := none }] } ∧
      t.flag (reg stop 0xF400) 0 = true ∧ t.rf (reg stop 0xF404) 0 32 = holdAt (2 ^ 32 - 1) (s.rf (reg stop 0xF404) 0 32 + 1) ∧
      t.rf (reg stop 0xF408) 0 13 = min x.flit.flow o.flit.flow ∧ t.rf (reg stop 0xF408) 16 13 = max x.flit.flow o.flit.flow ∧
      Kept s t [reg stop 0xF400, reg stop 0xF404, reg stop 0xF408] ∧ t = { s with regs := t.regs, mesh := t.mesh }

/-- What stands at the far end of the mesh and beside it: landing queues and transmit halves take their flits, chain messages
that come by the port of a tile's `in_port` are stored and handed on along a chain, others are discarded, bad parity is flagged and
reported, a trace stop writes its oldest record to host memory. -/
def Obligations.ArrivalsAndChains : Prop :=
  (∀ (s : State) (stop : Nat) (f : Flit), Form s → isTile stop = true ∨ isEngine stop = true → kindOf stop ≠ .mt → f.dstQ < 8 →
      (s.mesh.into.find? fun x => x.1 == stop) = some (stop, f) → (f.op ≠ 2 ∨ f.dstQ ≠ 7) →
    ∃ t, exec (.landingQueueArrival stop) s = .next t ∧
      t.lqAt stop f.dstQ = { s.lqAt stop f.dstQ with
        q := (s.lqAt stop f.dstQ).q ++ [{ op := f.op, tag := f.tag, epoch := f.epoch, payload := f.payload }] } ∧
      t.mesh = { s.mesh with into := s.mesh.into.erase (stop, f) } ∧ t = { s with mesh := t.mesh, lq := t.lq }) ∧
  (∀ (s : State) (stop : Nat) (f : Flit), kindOf stop = .lnk → stop < 448 → s.link.closed.contains (txKey stop f.dstQ) = false →
      (s.mesh.into.find? fun x => x.1 == stop) = some (stop, f) →
    ∃ t, exec (.landingQueueArrival stop) s = .next t ∧
      tget [] t.txq (txKey stop f.dstQ) = tget [] s.txq (txKey stop f.dstQ) ++ [f] ∧
      t.mesh = { s.mesh with into := s.mesh.into.erase (stop, f) } ∧ t = { s with mesh := t.mesh, txq := t.txq }) ∧
  (∀ (s : State) (k : Nat) (c : ChainFly), Form s → s.chain[k]? = some c → c.stop < 448 → kindOf c.stop = .at →
      s.flag (reg c.stop 0x80) 31 = true → s.rf (reg c.stop 0x80) 0 3 = c.port → c.msg.mtype = 0x5C →
      c.msg.firstPos ≤ s.rf (reg c.stop 0x80) 6 7 → s.rf (reg c.stop 0x80) 6 7 = c.msg.lastPos →
      (c.msg.group = 63 ∨ c.msg.group = s.rf (reg c.stop 0x80) 13 6) → c.msg.ngran ≠ 0 →
      (s.atile c.stop).loadReads c.msg.wsGran c.msg.ngran = false →
    ∃ t, exec (.chainMessage k []) s = .next t ∧ t.chain = s.chain.eraseIdx k ∧
      t.atile c.stop = (s.atile c.stop).wsWrite (c.msg.wsGran * 1024) ((List.range (1024 * c.msg.ngran)).map fun i => tget 0 c.msg.data i) ∧
      t.rf (reg c.stop 0x84) 16 16 = (s.rf (reg c.stop 0x84) 16 16 + 1) % 65536 ∧
      Sends s t (if c.msg.sigEn ∧ c.msg.syncAdd ≠ 0 then [opFlit (.signal c.msg.syncObj (BitVec.ofNat 32 c.msg.syncAdd) c.stop)] else []) ∧
      Kept s t [reg c.stop 0x84] ∧ t = { s with regs := t.regs, chain := t.chain, at_ := t.at_, mesh := t.mesh }) ∧
  (∀ (s : State) (k : Nat) (c : ChainFly), Form s → s.chain[k]? = some c → c.stop < 448 → kindOf c.stop = .at →
      s.flag (reg c.stop 0x80) 31 = true → s.rf (reg c.stop 0x80) 0 3 = c.port → c.msg.mtype = 0x5C →
      s.rf (reg c.stop 0x80) 6 7 < c.msg.firstPos → c.msg.firstPos ≤ c.msg.lastPos → s.rf (reg c.stop 0x80) 3 3 ≠ 0 →
    ∃ t, exec (.chainMessage k []) s = .next t ∧
      t.chain = s.chain.eraseIdx k ++ [{ stop := chainNext c.stop (s.rf (reg c.stop 0x80) 3 3), msg := c.msg,
                                         port := chainFrom (s.rf (reg c.stop 0x80) 3 3) }] ∧
      t = { s with chain := t.chain }) ∧
  (∀ (s : State) (k : Nat) (c : ChainFly) (flips : List Flip), s.chain[k]? = some c → s.rf (reg c.stop 0x80) 0 3 ≠ c.port →
    exec (.chainMessage k flips) s = .next { s with chain := s.chain.eraseIdx k }) ∧
  (∀ (s : State) (k : Nat) (c : ChainFly) (flips : List Flip), Form s → s.chain[k]? = some c → c.stop < 448 → kindOf c.stop = .at →
      s.flag (reg c.stop 0x80) 31 = true → s.rf (reg c.stop 0x80) 0 3 = c.port → flips.any badParity = true → (∀ f ∈ flips, 8 ≤ f.word) →
    ∃ t, exec (.chainMessage k flips) s = .next t ∧ t.flag (reg c.stop 0x0200) 4 = true ∧
      eventFlit { code := 6, stop := c.stop, value := c.msg.msgId, pipe := some (s.pipeOf c.stop) } ∈ t.mesh.uns) ∧
  (∀ (s : State) (d : Nat) (r : TraceRec) (rest : List TraceRec), Form s → d < 2 → (s.trc d).stage = r :: rest →
      s.flag (trcReg d 0) 1 = true →
    ∃ t, exec (.traceRecordWrite d) s = .next t ∧ t.rd (trcReg d 0x30) = s.rd (trcReg d 0x30) + 1 ∧
      t.hostMem = putBytes s.hostMem (((s.rd (trcReg d 8)).toNat + (s.rd (trcReg d 0xC)).toNat * 2 ^ 32) / 64 * 64 +
        32 * ((s.rd (trcReg d 0x30)).toNat % 2 ^ s.rf (trcReg d 0) 4 5)) (r.bytes (s.trc d).gap) ∧
      t.trace = tput {} s.trace d { s.trc d with stage := rest, gap := false } ∧
      Kept s t [trcReg d 0x30] ∧ t = { s with regs := t.regs, hostMem := t.hostMem, trace := t.trace })

/-! ## Pipelines, epochs and probes -/

namespace Sys2Proof.Claims

open Sys2Proof.Machine

/-- The command `c` is the k-th that HST has fetched, it may begin, and no byte that it does not name is other than 0 (R409,
R413). -/
structure Begins (s : State) (k opc : Nat) (c : Cmd) : Prop where
  get : s.host.cmds[k]? = some c
  turn : s.mayBegin k = true
  opc : c.opc = opc
  clean : c.stray = false

/-- A command completes: the completion of a command of this part waits for the completion ring of its submission ring, if that ring is
enabled (R406, R408, R410); that of a command that another part has forwarded leaves for that part (R332). -/
def Answered (s t : State) (c : Cmd) (status code detail : Nat) (result : List Byte) : Prop :=
  if c.origin = s.devId then
    t.host.relay = s.host.relay ∧ t.host.compl = s.host.compl ++ (if s.ringEn 1 (s.rf (ringReg 0 c.ring + 8) 8 6) = true then
      [(s.rf (ringReg 0 c.ring + 8) 8 6,
        complEntry c.opc status c.cid c.seq c.origin s.devId c.ring c.pipe code detail s.time result)] else [])
  else
    t.host.compl = s.host.compl ∧ t.host.relay = s.host.relay ++
      [⟨c.origin, c.origin, c.ring, complEntry c.opc status c.cid c.seq c.origin s.devId c.ring c.pipe code detail s.time result, true⟩]

/-- The stops that a pipeline's manifest names are tiles, its jobs stand in job slots of engines (R415, R262). -/
structure Placed (s : State) (p : Nat) : Prop where
  stops : ∀ n ∈ (s.info p).stops, isTile n = true
  jobs : ∀ j ∈ (s.info p).jobs, isEngine j.stop = true ∧ j.slot < 8

/-- Every schedule of a pipeline that was idle, done or stopped runs from its entry, and its jobs run (R412). -/
def AllStart (s t : State) (p : Nat) : Prop :=
  (∀ n ∈ (s.info p).stops, (s.schState n = 0 ∨ s.schState n = 3 ∨ s.schState n = 5) →
    t.schState n = 1 ∧ t.pcOf n = s.rf (reg n 0xD000) 16 12) ∧ ∀ j ∈ s.jobsOf p, t.rf (jobReg j.1 j.2 0) 30 2 = 1

/-- No schedule of a pipeline runs or waits any more, its jobs are halted, and no delivery of its cameras goes on (R251, steps 1 and
2). -/
def AllHalt (s t : State) (p : Nat) : Prop :=
  (∀ n ∈ (s.info p).stops, t.schState n ≠ 1 ∧ t.schState n ≠ 2) ∧ (∀ j ∈ s.jobsOf p, t.rf (jobReg j.1 j.2 0) 30 2 = 2) ∧
    t.delivers p = false

/-- The registers of the power domains, which the governor's votes change. -/
def domRegs : List Nat := (List.range 11).flatMap fun d => [domReg d, domReg d + 4]

end Sys2Proof.Claims

/-- START, STOP and CANCEL, of this part's host or forwarded by another part. START of a LOADED pipeline whose domains are in Run starts
each of its idle schedules at its entry, makes it RUNNING and completes OK; of a STOPPED one it advances the epoch and begins the steps of
CANCEL at step 3; of a RUNNING one it completes OK at once; while a domain of the pipeline is not in Run it waits, with HOST's vote set
(R412, R431). STOP and CANCEL of a RUNNING pipeline halt its schedules and jobs and keep the command; STOP completes when all is halted and
every record is written (R417). CANCEL goes on in its steps (R251): the epoch advances once all is halted, the queues empty once all is
drained, and after the quiet gap the sync objects take their initial values, everything starts again and the command completes with the new
epoch. -/
def Obligations.LifeOfPipelines : Prop :=
  (∀ (s : State) (k p : Nat) (c : Cmd), Form s → Begins s k 2 c → c.pipe = p → s.pstate p = 1 → Placed s p →
      (s.pipeDomains p).all s.inRun = true →
    ∃ t, exec (.start k) s = .next t ∧ t.pstate p = 2 ∧ t.host.cmds = s.host.cmds.eraseIdx k ∧ Answered s t c 0 0 0 [] ∧ AllStart s t p ∧
      (t.pipeAt p).probeAt = s.time ∧ t.rd (epochReg p) = s.rd (epochReg p)) ∧
  (∀ (s : State) (k p : Nat) (c : Cmd), Form s → Begins s k 2 c → c.pipe = p → s.pstate p = 3 → (s.pipeDomains p).all s.inRun = true →
    ∃ t, exec (.start k) s = .next t ∧ t.rf (epochReg p) 0 16 = (s.rf (epochReg p) 0 16 + 1) % 65536 ∧
      t.pipeAt p = { s.pipeAt p with phase := 3, cmd := some c } ∧ t.host = { s.host with cmds := s.host.cmds.eraseIdx k } ∧
      Kept s t [epochReg p] ∧ t = { s with regs := t.regs, host := t.host, gov := t.gov }) ∧
  (∀ (s : State) (k p : Nat) (c : Cmd), Begins s k 2 c → c.pipe = p → s.pstate p = 2 →
    ∃ t, exec (.start k) s = .next t ∧ t.host.cmds = s.host.cmds.eraseIdx k ∧ Answered s t c 0 0 0 [] ∧ t = { s with host := t.host }) ∧
  (∀ (s : State) (k p : Nat) (c : Cmd), Form s → Begins s k 2 c → c.pipe = p → s.pstate p = 1 ∨ s.pstate p = 3 →
      (s.pipeDomains p).all s.inRun = false →
    ∃ t, exec (.start k) s = .next t ∧ t.host = s.host ∧ t.gov = s.gov ∧
      (∀ d ∈ s.pipeDomains p, d < 10 → s.inRun d = false → t.flag (domReg d + 4) 0 = true) ∧ Kept s t domRegs) ∧
  (∀ (s : State) (k p : Nat) (c : Cmd), Form s → Begins s k 3 c → c.pipe = p → s.pstate p = 2 → Placed s p →
    ∃ t, exec (.stop k) s = .next t ∧ AllHalt s t p ∧ t.pstate p = 2 ∧ t.pipeAt p = { s.pipeAt p with phase := 1, cmd := some c } ∧
      t.host = { s.host with cmds := s.host.cmds.eraseIdx k } ∧ t.rd (epochReg p) = s.rd (epochReg p)) ∧
  (∀ (s : State) (p : Nat) (c : Cmd), Form s → p < 64 → (s.pipeAt p).phase = 1 → (s.pipeAt p).cmd = some c → s.allHalted p = true →
      s.recsWait p = false → Placed s p →
    ∃ t, exec (.stopComplete p) s = .next t ∧ t.pstate p = 3 ∧ (t.pipeAt p).phase = 0 ∧ (t.pipeAt p).cmd = none ∧
      Answered s t c 0 0 0 []) ∧
  (∀ (s : State) (k p : Nat) (c : Cmd), Form s → Begins s k 4 c → c.pipe = p → s.pstate p = 2 → Placed s p →
    ∃ t, exec (.cancel k) s = .next t ∧ AllHalt s t p ∧ t.pstate p = 2 ∧ t.pipeAt p = { s.pipeAt p with phase := 2, cmd := some c } ∧
      t.host = { s.host with cmds := s.host.cmds.eraseIdx k } ∧ t.rd (epochReg p) = s.rd (epochReg p)) ∧
  (∀ (s : State) (p : Nat), Form s → p < 64 → (s.pipeAt p).phase = 2 → s.allHalted p = true →
    ∃ t, exec (.cancelHalted p) s = .next t ∧ t.rf (epochReg p) 0 16 = (s.rf (epochReg p) 0 16 + 1) % 65536 ∧
      t.pipeAt p = { s.pipeAt p with phase := 3 } ∧ Kept s t [epochReg p] ∧ t = { s with regs := t.regs, gov := t.gov }) ∧
  (∀ (s : State) (p : Nat), Form s → p < 64 → (s.pipeAt p).phase = 3 → s.drained p = true → Placed s p →
    ∃ t, exec (.cancelDrained p) s = .next t ∧ t.pipeAt p = { s.pipeAt p with phase := 4, since := s.ck } ∧ t.host = s.host ∧
      (∀ n ∈ (s.info p).stops, kindOf n = .at ∨ kindOf n = .sft → t.inBlock n = false ∧ ∀ q < 8, (t.lqAt n q).q = []) ∧
      (∀ n ∈ (s.info p).stops, kindOf n = .mt → ∀ q < 64, t.qOpen n q = false ∧ (s.buffers n = [] → t.qLevel n q = 0))) ∧
  (∀ (s : State) (p : Nat) (c : Cmd), Form s → p < 64 → (s.pipeAt p).phase = 4 → (s.pipeAt p).since + s.gap p ≤ s.ck →
      s.recsWait p = false → (s.pipeAt p).cmd = some c → (s.info p).entry.sync0 + (s.info p).entry.syncN ≤ 65536 → Placed s p →
    ∃ t, exec (.cancelRestart p) s = .next t ∧ t.pstate p = 2 ∧ (t.pipeAt p).phase = 0 ∧ (t.pipeAt p).cmd = none ∧ AllStart s t p ∧
      Answered s t c 0 0 0 (if c.opc = 4 then leBytes (s.pipeEpoch p).toNat 8 else []) ∧
      ∀ i < (s.info p).entry.syncN, t.rd (0x00800000 + 4 * ((s.info p).entry.sync0 + i)) =
        (((s.info p).syncInit.find? fun x => x.1 == (s.info p).entry.sync0 + i).elim 0 (·.2)))

/-- The pipeline's epoch reaches a tile or an engine job by a crossing of its own: the tile then counts in the new epoch, an
array tile or a special-function tile has no block in progress, an array tile's pass is no longer held, an engine job forgets
its regions and stamps. -/
def Obligations.EpochsReachTheirUnits : Prop :=
  (∀ (s : State) (stop p : Nat), Form s → stop < 448 → kindOf stop = .at → s.ownerPipe stop = some p → s.pipeEpoch p ≠ s.epochOf stop →
    ∃ t, exec (.epochChange stop 0) s = .next t ∧ t.epochOf stop = s.pipeEpoch p ∧ t.inBlock stop = false ∧
      (t.atile stop).held = 0 ∧ t.pairAt stop = none ∧ Kept s t [reg stop 8, blockReg stop] ∧
      t = { s with regs := t.regs, pair := t.pair, at_ := t.at_ }) ∧
  (∀ (s : State) (stop p : Nat), Form s → stop < 448 → kindOf stop = .sft → s.ownerPipe stop = some p → s.pipeEpoch p ≠ s.epochOf stop →
    ∃ t, exec (.epochChange stop 0) s = .next t ∧ t.epochOf stop = s.pipeEpoch p ∧ t.inBlock stop = false ∧
      Kept s t [reg stop 8, blockReg stop] ∧ t = { s with regs := t.regs, pair := t.pair }) ∧
  (∀ (s : State) (stop p : Nat), Form s → stop < 448 → kindOf stop = .mt → s.ownerPipe stop = some p → s.pipeEpoch p ≠ s.epochOf stop →
      (∀ k < 4, s.flag (rwReg stop k 0) 0 = false) → (∀ k < 16, s.flag (reg stop (0x2404 + 16 * k)) 0 = false) →
    ∃ t, exec (.epochChange stop 0) s = .next t ∧ t.epochOf stop = s.pipeEpoch p ∧
      t.rf (reg stop 0x3084) 0 6 = 0 ∧ t.rf (reg stop 0x3084) 8 6 = 0 ∧ t.rf (reg stop 0x3084) 14 1 = 0 ∧
      (∀ k < 4, t.rf (rwReg stop k 0x14) 0 13 = 0 ∧ t.rf (rwReg stop k 0x14) 16 13 = 0) ∧
      (t.mtile stop).banks = (s.mtile stop).banks ∧
      Kept s t [reg stop 8, reg stop 0x3084, rwReg stop 0 0x14, rwReg stop 1 0x14, rwReg stop 2 0x14, rwReg stop 3 0x14] ∧
      t = { s with regs := t.regs, mt := t.mt }) ∧
  (∀ (s : State) (stop slot : Nat), Form s → isEngine stop = true → slot < 8 → s.flag (jobReg stop slot 0) 0 = true →
      s.rf (jobReg stop slot 4) 0 16 ≠ (s.pipeEpoch (s.rf (jobReg stop slot 0) 1 6)).toNat →
    ∃ t, exec (.epochChange stop slot) s = .next t ∧
      t.rf (jobReg stop slot 4) 0 16 = (s.pipeEpoch (s.rf (jobReg stop slot 0) 1 6)).toNat ∧
      (t.engAt stop).jobs = tput {} (s.engAt stop).jobs slot { s.jobAt stop slot with
        tag := none, ok := true, raw := none, regions := [], stamps := [], stampIn := [], notices := [] } ∧
      (t.engAt stop).recs = (s.engAt stop).recs.filter (fun r => r.slot != slot) ∧
      Kept s t [jobReg stop slot 4, reg stop 0x0210] ∧ t = { s with regs := t.regs, eng := t.eng })

/-- The quiescence probe. While a pipeline runs a probe begins every `probe_period`; its first wave takes a report of every node;
the second wave, taken no sooner than the quiet gap after the first, finds no tile stuck in both and closes with outcome 0. A
tile that waits on a queue which none can move, in both waves and at the probe before, is reported as stuck. A new aging window
probes again the pipelines whose cycle was left alone. -/
def Obligations.QuiescenceProbes : Prop :=
  (∀ (s : State) (p : Nat), Form s → s.pstate p = 2 → (s.pipeAt p).probeAt + 1000 * s.tunable 2 ≤ s.time → (s.probeOf p).on = false →
    ∃ t, exec (.probePeriodExpiry p) s = .next t ∧ (t.pipeAt p).probeAt = s.time ∧ t.probeOf p = { on := true, wave := none } ∧
      t = { s with gov := t.gov, probe := t.probe }) ∧
  (∀ (s : State) (p : Nat), (s.probeOf p).on = true → (s.probeOf p).wave = none →
    ∃ t, exec (.quiescenceProbe p) s = .next t ∧ t.probeOf p = { on := true, wave := some (s.wave p, s.ck) } ∧
      t = { s with probe := t.probe }) ∧
  (∀ (s : State) (p c : Nat) (w : List Report), Form s → p < 64 → (s.probeOf p).wave = some (w, c) → c + s.gap p ≤ s.ck →
      (s.wave p).filter (stuckIn w (s.wave p)) = [] →
    ∃ t, exec (.probeSecondWave p) s = .next t ∧ t.rf 0x8000 0 6 = p ∧ t.rf 0x8000 6 3 = 0 ∧
      t.rf 0x8000 16 16 = (s.rf 0x8000 16 16 + 1) % 65536 ∧ t.probe = tput {} s.probe p {} ∧ (t.pipeAt p).stuck = [] ∧
      Kept s t [0x8000] ∧ t = { s with regs := t.regs, gov := t.gov, probe := t.probe }) ∧
  (∀ (s : State) (p w : Nat) (x : Pipe), s.gov.pipes = [(p, x)] → x.again = some w → w < s.window → s.pstate p ≠ 0 →
      (s.probeOf p).on = false →
    ∃ t, exec .agingWindowExpiry s = .next t ∧ (t.pipeAt p).again = none ∧ t.probeOf p = { on := true, wave := none } ∧
      t = { s with gov := t.gov, probe := t.probe })

/-! ## Commands of the host -/

/-- READ_COUNTERS completes with the counters of its set; VOTE sets or withdraws the host's votes and completes with the mask of
domains in Run. -/
def Obligations.CountersAndVotes : Prop :=
  (∀ (s : State) (k : Nat) (c : Cmd), Begins s k 6 c →
    ∃ t, exec (.readCounters k) s = .next t ∧ Answered s t c 0 0 0 (s.counters c.pipe (c.arg 0x10 0 2)) ∧
      t = { s with host := { s.host with cmds := s.host.cmds.eraseIdx k, compl := t.host.compl, relay := t.host.relay } }) ∧
  (∀ (s : State) (k : Nat) (c : Cmd), Form s → Begins s k 7 c → c.arg 0x10 0 11 < 1024 →
    ∃ t, exec (.vote k) s = .next t ∧ Answered s t c 0 0 0 (leBytes t.runMask 2) ∧
      (∀ d < 10, d ∈ maskDoms (c.arg 0x10 0 11) → t.flag (domReg d + 4) 0 = decide (c.arg 0x10 16 1 = 1)) ∧
      (∀ d < 10, d ∉ maskDoms (c.arg 0x10 0 11) → t.rd (domReg d + 4) = s.rd (domReg d + 4)) ∧
      Kept s t domRegs ∧ t = { s with regs := t.regs, pwr := t.pwr, host := t.host }) ∧
  (∀ (s : State) (d : Nat) (v : Word), Form s → d < 11 →
    ∃ t, exec (.voteW1c d v) s = .next t ∧
      (d ≠ 10 → ∀ i, 3 ≤ i → i ≤ 5 → t.flag (domReg d + 4) i = (s.flag (domReg d + 4) i && !bitOf v i)) ∧
      (∀ i < 3, t.flag (domReg d + 4) i = s.flag (domReg d + 4) i) ∧
      Kept s t domRegs ∧ t = { s with regs := t.regs, pwr := t.pwr })

/-- The doorbells of the rings: a tail within the ring's size is stored for a submission ring, a head for the others; one beyond
it puts the ring in error with code 1 and signals vector 131. Enabling empties the ring and sets its phase; disabling a
submission or record ring clears its enable, disabling a completion ring also drops what waits for it and puts its submission
rings in error with code 3. -/
def Obligations.Doorbells : Prop :=
  (∀ (c : Nat → Word → Instr) (kind off : Nat) (s : State) (n : Nat) (v : Word),
      (c, kind, off) ∈ [(Instr.sqTailWrite, 0, 0xC), (Instr.cqHeadWrite, 1, 0x10), (Instr.rrHeadWrite, 2, 0x10)] → Form s → n < 64 →
      s.ringOk kind n = true → bitsOf v 0 16 < s.ringSize kind n →
    ∃ t, exec (c n v) s = .next t ∧ t.rf (ringReg kind n + off) 0 16 = bitsOf v 0 16 ∧ Kept s t [ringReg kind n + off] ∧
      t = { s with regs := t.regs }) ∧
  (∀ (c : Nat → Word → Instr) (kind : Nat) (s : State) (n : Nat) (v : Word),
      (c, kind) ∈ [(Instr.sqTailWrite, 0), (Instr.cqHeadWrite, 1), (Instr.rrHeadWrite, 2)] → Form s → n < 64 →
      s.ringOk kind n = true → s.ringSize kind n ≤ bitsOf v 0 16 → s.flag (0x0010E000 + 16 * 131 + 12) 0 = true →
    ∃ t, exec (c n v) s = .next t ∧ t.flag (ringReg kind n + 0x14) 0 = true ∧ t.rf (ringReg kind n + 0x14) 1 2 = 1 ∧
      t.ringOk kind n = false ∧ t.flag (0x0010F000 + 16) 3 = true ∧ Kept s t [ringReg kind n + 0x14, 0x0010F000 + 16]) ∧
  (∀ (s : State) (kind n : Nat) (v : Word), Form s → kind < 3 → n < 64 → s.ringEn kind n = false → bitOf v 0 = true →
      (kind = 0 → s.ringEn 1 (bitsOf v 8 6) = true) →
    ∃ t, exec (.ringEnable kind n v) s = .next t ∧ t.ringOk kind n = true ∧ t.ringTail kind n = 0 ∧ t.ringHead kind n = 0 ∧
      t.ringSize kind n = 2 ^ (min (bitsOf v 1 4) 12 + 4) ∧ t.flag (ringReg kind n + 0x14) 3 = true ∧
      Kept s t [ringReg kind n + 8, ringReg kind n + 0xC, ringReg kind n + 0x10, ringReg kind n + 0x14] ∧
      t = { s with regs := t.regs, host := t.host }) ∧
  (∀ (s : State) (kind n : Nat) (v : Word), Form s → kind = 0 ∨ kind = 2 → n < 64 → s.ringEn kind n = true → bitOf v 0 = false →
    ∃ t, exec (.ringDisable kind n v) s = .next t ∧ t.ringEn kind n = false ∧ Kept s t [ringReg kind n + 8] ∧
      t = { s with regs := t.regs }) ∧
  (∀ (s : State) (n : Nat) (v : Word), Form s → n < 64 → s.ringEn 1 n = true → bitOf v 0 = false →
    ∃ t, exec (.ringDisable 1 n v) s = .next t ∧ t.ringEn 1 n = false ∧ t.host.compl = s.host.compl.filter (fun x => x.1 != n) ∧
      ∀ m < 64, s.ringOk 0 m = true → s.rf (ringReg 0 m + 8) 8 6 = n → t.ringOk 0 m = false ∧ t.rf (ringReg 0 m + 0x14) 1 2 = 3)

/-- A command is fetched from the ring whose turn it is: the head moves on and the command joins those that wait to begin, or those
that leave for another part, if it is for that part (R332); one that another part forwards joins them likewise. Completions and records are written to host memory at the tail of their ring with the
ring's phase in bit 511, the tail moves on, and the phase turns over at the end of the ring; while the PCI Express clock is lost all of
these wait. A coalescing timeout signals the ring's
vector. -/
def Obligations.RingsAreServed : Prop :=
  (∀ (s : State) (n : Nat) (e : Payload) (c : Cmd), Form s → s.clockGone 0 = false → c = { origin := s.devId, ring := n, entry := e } → n < 64 →
      s.nextRing = some n → s.boot.started = true → s.ringEn 1 (s.rf (ringReg 0 n + 8) 8 6) = true → c.target = s.devId →
      isOpc c.opc = true → c.seq ≠ tget 0 s.host.seqs (s.devId * 64 + n) →
      (c.seq - tget 0 s.host.seqs (s.devId * 64 + n)).toNat < 2 ^ 31 →
    ∃ t, exec (.commandFetch n (some e)) s = .next t ∧ t.host.cmds = s.host.cmds ++ [c] ∧ t.host.turn = n ∧
      t.ringHead 0 n = (s.ringHead 0 n + 1) % s.ringSize 0 n ∧
      t.host.seqs = tput 0 s.host.seqs (s.devId * 64 + n) c.seq ∧ Kept s t [ringReg 0 n + 0x10] ∧
      t = { s with regs := t.regs, host := t.host }) ∧
  (∀ (s : State) (n : Nat) (e : Payload) (c : Cmd), Form s → s.clockGone 0 = false → c = { origin := s.devId, ring := n, entry := e } → n < 64 →
      s.nextRing = some n → s.boot.started = true → s.ringEn 1 (s.rf (ringReg 0 n + 8) 8 6) = true → c.target ≠ s.devId →
      mayForward c.opc = true → s.flag 0x00508004 c.target = true →
    ∃ t, exec (.commandFetch n (some e)) s = .next t ∧ t.host = { s.host with
        turn := n, away := s.host.away ++ [(n, c.seq)], relay := s.host.relay ++ [{ dest := c.target, origin := s.devId, ring := n, entry := e, back := false }] } ∧
      t.ringHead 0 n = (s.ringHead 0 n + 1) % s.ringSize 0 n ∧ Kept s t [ringReg 0 n + 0x10] ∧ t = { s with regs := t.regs, host := t.host }) ∧
  (∀ (s : State) (o n : Nat) (e : Payload) (c : Cmd), c = { origin := o, ring := n, entry := e } → n < 64 → o < 16 → o ≠ s.devId →
      s.boot.started = true → mayForward c.opc = true → c.target = s.devId → c.seq ≠ tget 0 s.host.seqs (o * 64 + n) →
      (c.seq - tget 0 s.host.seqs (o * 64 + n)).toNat < 2 ^ 31 →
    ∃ t, exec (.forwardedCommand o n e) s = .next t ∧ t.host.cmds = s.host.cmds ++ [c] ∧ t.regs = s.regs ∧
      t = { s with host := { s.host with cmds := t.host.cmds, seqs := t.host.seqs } }) ∧
  (∀ (s : State) (n : Nat) (x : Nat × Payload), Form s → s.clockGone 0 = false → n < 64 → s.ringOk 1 n = true → s.ringRoom 1 n = true →
      (s.host.compl.find? fun y => y.1 == n) = some x → s.flag (ringReg 1 n + 8) 5 = false →
    ∃ t, exec (.completionWrite n true) s = .next t ∧
      (∀ i < 63, tget 0 t.hostMem (s.ringBase 1 n + 64 * s.ringTail 1 n + i) = byteAt x.2 i) ∧
      (tget 0 t.hostMem (s.ringBase 1 n + 64 * s.ringTail 1 n + 63)).toNat =
        (byteAt x.2 63).toNat % 128 + (if s.flag (ringReg 1 n + 0x14) 3 then 128 else 0) ∧
      t.ringTail 1 n = (s.ringTail 1 n + 1) % s.ringSize 1 n ∧
      t.flag (ringReg 1 n + 0x14) 3 = (s.flag (ringReg 1 n + 0x14) 3 != decide ((s.ringTail 1 n + 1) % s.ringSize 1 n = 0)) ∧
      t.host = { s.host with compl := s.host.compl.erase x } ∧
      Kept s t [ringReg 1 n + 0xC, ringReg 1 n + 0x14] ∧ t = { s with regs := t.regs, host := t.host, hostMem := t.hostMem }) ∧
  (∀ (s : State) (n : Nat) (x : Rec), Form s → s.clockGone 0 = false → n < 64 → s.ringOk 2 n = true → s.ringRoom 2 n = true →
      (s.host.recs.find? fun y => y.ring == n) = some x → s.host.gwRecs = [] → s.flag (ringReg 2 n + 8) 5 = false →
    ∃ t, exec (.recordWrite n true) s = .next t ∧
      (∀ i < 63, tget 0 t.hostMem (s.ringBase 2 n + 64 * s.ringTail 2 n + i) = byteAt x.data i) ∧
      t.ringTail 2 n = (s.ringTail 2 n + 1) % s.ringSize 2 n ∧ t.host = { s.host with recs := s.host.recs.erase x } ∧
      Kept s t [ringReg 2 n + 0xC, ringReg 2 n + 0x14] ∧ t = { s with regs := t.regs, host := t.host, hostMem := t.hostMem }) ∧
  (∀ (c : Instr) (s : State) (n : Nat) (ok : Bool) (e : Option Payload), s.clockGone 0 = true →
      c ∈ [Instr.completionWrite n ok, .recordWrite n ok, .commandFetch n e] → exec c s = .next s) ∧
  (∀ (s : State) (kind n v : Nat), Form s → kind = 1 ∨ kind = 2 → n < 64 → n + (kind - 1) * 64 = v →
      s.flag (ringReg kind n + 8) 5 = true → tget 0 s.host.unsig (kind * 64 + n) ≠ 0 →
      tget 0 s.host.unsigAt (kind * 64 + n) + 1000 * s.rf (ringReg kind n + 8) 24 8 ≤ s.time →
    ∃ t, exec (.interruptCoalesceTimeout kind n) s = .next t ∧
      t.host = { s.host with unsig := tput 0 s.host.unsig (kind * 64 + n) 0 } ∧
      (s.flag (0x0010E000 + 16 * v + 12) 0 = true → t.flag (0x0010F000 + 4 * (v / 32)) (v % 32) = true ∧ t.hostMem = s.hostMem) ∧
      (s.flag (0x0010E000 + 16 * v + 12) 0 = false → t.regs = s.regs ∧
        t.hostMem = putBytes s.hostMem ((s.rd (0x0010E000 + 16 * v)).toNat / 4 * 4 + (s.rd (0x0010E000 + 16 * v + 4)).toNat * 2 ^ 32)
          (leBytes (s.rd (0x0010E000 + 16 * v + 8)).toNat 4)) ∧
      Kept s t [0x0010F000 + 4 * (v / 32)])

/-- The mailbox: GET returns a tunable, SET stores one that is in its range, PROBE triggers a probe of the pipeline that the data
register names; the command's end writes status and value, clears `busy` and signals vector 130. A command that comes while one
is under way is only counted. The governor takes an event: one whose code its mask admits waits as a completion of status 9 for the
host, while fewer than 256 wait; a wait watchdog triggers a probe; a fault of the kind of R18 puts the pipeline in crust mode. -/
def Obligations.MailboxAndEvents : Prop :=
  (∀ (s : State) (tid : Nat), Form s → s.flag 8 0 = false → 1 ≤ tid → tid ≤ 6 →
    ∃ t, exec (.get tid) s = .next t ∧ t.flag 8 0 = true ∧ t.host = { s.host with mbx := some (0, some (BitVec.ofNat 32 (s.tunable tid))) } ∧
      Kept s t [8] ∧ t = { s with regs := t.regs, host := t.host }) ∧
  (∀ (s : State) (tid lo hi : Nat), Form s → s.flag 8 0 = false → tunRange tid = some (lo, hi) → lo ≤ (s.rd 4).toNat →
      (s.rd 4).toNat ≤ hi →
    ∃ t, exec (.set tid) s = .next t ∧ t.flag 8 0 = true ∧
      t.host = { s.host with mbx := some (0, none), tun := tput (tunDefault tid) s.host.tun tid (s.rd 4).toNat } ∧
      Kept s t (if tid = 1 then [8, 0x0300F008] else [8]) ∧ t = { s with regs := t.regs, host := t.host }) ∧
  (∀ s : State, Form s → s.flag 8 0 = false → s.pstate (s.rf 4 0 6) ≠ 0 → (s.probeOf (s.rf 4 0 6)).on = false →
    ∃ t, exec .probe s = .next t ∧ t.flag 8 0 = true ∧ t.probeOf (s.rf 4 0 6) = { on := true, wave := none } ∧
      t.host = { s.host with mbx := some (0, none) } ∧ Kept s t [8] ∧ t = { s with regs := t.regs, host := t.host, probe := t.probe }) ∧
  (∀ (s : State) (st : Nat) (v : Option Word), Form s → s.host.mbx = some (st, v) → st < 8 →
    ∃ t, exec .mailboxComplete s = .next t ∧ t.flag 8 0 = false ∧ t.rf 8 1 3 = st ∧ t.rd 4 = v.getD (s.rd 4) ∧
      t.host = { s.host with mbx := none } ∧ Kept s t [4, 8, 0x0010F010] ∧
      t = { s with regs := t.regs, host := t.host, hostMem := t.hostMem }) ∧
  (∀ (c : Instr) (s : State), Form s → c ∈ [Instr.get 1, Instr.set 1, Instr.probe] → s.flag 8 0 = true →
    ∃ t, exec c s = .next t ∧ t.rf 8 16 16 = holdAt 65535 (s.rf 8 16 16 + 1) ∧ t.flag 8 0 = true ∧ Kept s t [8] ∧
      t = { s with regs := t.regs }) ∧
  (∀ (s : State) (k p : Nat) (e : Event), s.events[k]? = some e → s.boot.started = true → e.pipe = some p → 2 ≤ e.code → e.code ≤ 13 →
      tget 0xFFFFFFFF s.host.tun 6 / 2 ^ e.code % 2 = 1 → s.host.events.length < 256 →
    ∃ t, exec (.governorEvent k) s = .next t ∧ t.events = s.events.eraseIdx k ∧
      t.host.events = s.host.events ++ [complEntry 0 9 0 0 s.devId s.devId 0 p e.code e.stop s.time (leBytes e.value 8)] ∧
      t = { s with events := t.events, host := { s.host with events := t.host.events } }) ∧
  (∀ (s : State) (k p : Nat) (e : Event), s.events[k]? = some e → s.boot.started = true → e.pipe = some p → e.code = 0 →
      s.pstate p ≠ 0 → (s.probeOf p).on = false →
    ∃ t, exec (.governorEvent k) s = .next t ∧ t.events = s.events.eraseIdx k ∧ t.probeOf p = { on := true, wave := none } ∧
      t = { s with events := t.events, probe := t.probe }) ∧
  (∀ (s : State) (k p : Nat) (e : Event), Form s → s.events[k]? = some e → s.boot.started = true → e.pipe = some p → e.code = 15 →
      p < 64 → s.pstate p = 2 →
    ∃ t, exec (.governorEvent k) s = .next t ∧ t.pstate p = 4 ∧ (t.pipeAt p).cmd = none ∧ (t.pipeAt p).update = none)

/-- What the host loses by a Function Level Reset, and by PCIE_PERST_L while no boundary-scan instruction holds the pins: every
ring is disabled with head and tail 0, commands and completions under way are forgotten, a running pipeline is being stopped. -/
def Obligations.HostResets : Prop :=
  (∀ s : State, Form s →
    ∃ t, exec .functionLevelReset s = .next t ∧ (∀ kind < 3, ∀ n < 64, t.ringEn kind n = false ∧ t.ringTail kind n = 0 ∧ t.ringHead kind n = 0) ∧
      t.host.cmds = [] ∧ t.host.compl = [] ∧ t.host.away = [] ∧ t.gov.join = none ∧ t.gov.capture = none) ∧
  (∀ s : State, Form s → s.dbg.ir ≠ 0 → s.dbg.ir ≠ 4 → s.dbg.ir ≠ 5 →
    ∃ t, exec .pciePerst s = .next t ∧ (∀ kind < 3, ∀ n < 64, t.ringEn kind n = false ∧ t.ringTail kind n = 0 ∧ t.ringHead kind n = 0) ∧
      t.host.cmds = [] ∧ t.host.compl = [] ∧ t.gov.join = none ∧ t.pwr.l2 = false)

/-! ## Registers and memories as the host reaches them -/

/-- A 32-bit write of a register of BAR0 whose domain is in Run, with no effect of its own: each field takes the written bits, is cleared
by ones, or stays, as its access type says, and nothing else changes. A host access where no register lies is counted. BAR2 over HBM
without ECC errors: a read of any length leaves the bytes in `out`; a write of any length at any alignment stores its bytes and no others.
That read data stand in `out` is the model's (log 4). -/
def Obligations.HostAccesses : Prop :=
  (∀ (s : State) (a : Nat) (v : W64) (r : RegRow), Form s → a < 0x00700000 ∨ 0x00800000 ≤ a → a < 0x04000000 → a % 4 = 0 → a ≠ 0x2000 →
      s.debugPerm 0 = false →
      s.inRun (addrDomain a) = true → s.regThere a = true → regRow a = some r → ringCfgOf a = none → s.hostLocked a = false →
      ownCommand a = 0 → a ≠ 0x03010000 → a ≠ 0x03010100 → (a < 0x0010E000 ∨ 0x0010F000 ≤ a) →
    ∃ t, exec (.registerWrite a v 4) s = .next t ∧
      t.rd a = accessWrite (BitVec.ofNat 32 r.rw) (BitVec.ofNat 32 r.w1c) (s.rd a) (v.extractLsb' 0 32) ∧
      Kept s t [a] ∧ t = { s with regs := t.regs }) ∧
  (∀ (s : State) (a : Nat) (v : W64), Form s → a < 0x00700000 ∨ 0x00800000 ≤ a → a < 0x04000000 → a % 4 = 0 →
      s.inRun (addrDomain a) = true → s.regThere a = false →
    ∃ t, exec (.registerWrite a v 4) s = .next t ∧ t.rf 0x00300F00 0 32 = holdAt (2 ^ 32 - 1) (s.rf 0x00300F00 0 32 + 1) ∧
      (t.rd 0x00300F08).toNat = a ∧ Kept s t [0x00300F00, 0x00300F08, 0x00300F0C] ∧ t = { s with regs := t.regs }) ∧
  (∀ (s : State) (a n : Nat), a < 0x600000000 → a + n ≤ 0x600000000 → s.answers 3 = true → s.hbm.ue = [] → s.hbm.ce = [] →
    exec (.bar2Read a n) s = .next { s with out := getBytes s.hbm.bytes a n }) ∧
  (∀ (s : State) (a : Nat) (data : List Byte), Form s → a < 0x600000000 → a + data.length ≤ 0x600000000 → s.answers 3 = true → s.hbm.ue = [] →
      s.hbm.ce = [] →
    ∃ t, exec (.bar2Write a data) s = .next t ∧
      (∀ i < data.length, tget 0 t.hbm.bytes (a + i) = data.getD i 0) ∧
      (∀ b, b < a ∨ a + data.length ≤ b → tget 0 t.hbm.bytes b = tget 0 s.hbm.bytes b) ∧
      t = { s with hbm := { s.hbm with bytes := t.hbm.bytes } })

/-- Reads with an effect: the value read stands in `out`; a read of CMON_TAG copies the latched set of a conversion monitor into
the slot's read buffer, reads of the loss counters clear them, a read of the peak register lets the peak start again. -/
def Obligations.ReadsWithAnEffect : Prop :=
  (∀ (s : State) (stop slot : Nat), Form s → stop < 448 → slot < monSlots stop → s.regThere (reg stop (0xE008 + 64 * slot)) = true →
      s.answers (addrDomain (reg stop (0xE008 + 64 * slot))) = true →
    ∃ t, exec (.cmonTagRead stop slot) s = .next t ∧
      (∀ i < 8, t.rd (reg stop (0xE008 + 64 * slot + 4 * i)) = (s.monAt stop slot).latched.words.getD i 0) ∧
      t.out = leBytes ((s.monAt stop slot).latched.tag.toNat + (s.monAt stop slot).latched.epoch.toNat * 2 ^ 16) 4 ∧
      Kept s t ((List.range 8).map fun i => reg stop (0xE008 + 64 * slot + 4 * i)) ∧ t = { s with regs := t.regs, out := t.out }) ∧
  (∀ (s : State) (stop slot : Nat), Form s → stop < 448 → slot < monSlots stop → s.regThere (reg stop (0xE028 + 64 * slot)) = true →
      s.answers (addrDomain (reg stop (0xE028 + 64 * slot))) = true →
    ∃ t, exec (.cmonLostRead stop slot) s = .next t ∧ t.rf (reg stop (0xE028 + 64 * slot)) 0 16 = 0 ∧
      t.out = leBytes (s.rd (reg stop (0xE028 + 64 * slot))).toNat 4 ∧
      Kept s t [reg stop (0xE028 + 64 * slot)] ∧ t = { s with regs := t.regs, out := t.out }) ∧
  (∀ (s : State) (stop : Nat), Form s → stop < 448 → s.regThere (reg stop 0xF80C) = true → s.answers (addrDomain (reg stop 0xF80C)) = true →
    ∃ t, exec (.hzLostRead stop) s = .next t ∧ t.rf (reg stop 0xF80C) 8 8 = 0 ∧ t.rf (reg stop 0xF80C) 0 5 = s.rf (reg stop 0xF80C) 0 5 ∧
      t.out = leBytes (s.rd (reg stop 0xF80C)).toNat 4 ∧
      Kept s t [reg stop 0xF80C] ∧ t = { s with regs := t.regs, out := t.out }) ∧
  (∀ s : State, Form s → s.regThere 0x00200910 = true → s.phase 0 = 0 →
    ∃ t, exec .thmPeakRead s = .next t ∧ t.rf 0x00200910 0 12 = 0 ∧ t.out = leBytes (thermalView s.time 0x00200910).toNat 4 ∧
      Kept s t [0x00200910] ∧ t = { s with regs := t.regs, out := t.out })

/-! ## Engines -/

namespace Sys2Proof.Claims

open Sys2Proof.Machine

/-- A job whose turn it is (R263): it runs, its unit's input and credits are there, the engine takes it next and is not kept by a
closing region, no flit of another epoch stands in its queue, and no ECC error in the engine's SRAM. -/
structure Turn (s : State) (stop slot : Nat) : Prop where
  form : Form s
  runs : s.jobRuns stop slot = true
  ready : s.inputReady stop slot = true
  credits : s.creditsFor stop slot = true
  next : s.nextJob stop = some slot
  kept : s.engKept stop = false
  fresh : ∀ f ∈ (s.lqAt stop (s.jobLq stop slot)).q, f.epoch = s.jobTagEpoch stop slot
  ue : (s.engAt stop).lmUe = []
  ce : (s.engAt stop).lmCe = []

/-- A flit that an engine sends for a job (R264). -/
def JobFlit (s : State) (stop slot rt op : Nat) (tag : Tag) (p : Payload) : Xing :=
  { stop := stop, rt := rt, ready := 0,
    flit := { dst := bitsOf (s.rtReg stop rt 0) 0 9, src := stop, rsv := true, vc := false, typ := 0,
              dstQ := bitsOf (s.rtReg stop rt 0) 9 6, op := if op = 1 ∧ (s.jobAt stop slot).ok = false then 2 else op, tag := tag,
              epoch := s.jobTagEpoch stop slot, flow := bitsOf (s.rtReg stop rt 4) 0 13, payload := p, hdrErr := 0,
              par := 0, entered := 0 } }

/-- The engine has completed a unit of the job: it is the job served last, and its count of units is one higher (R263). -/
def UnitDone (s t : State) (stop slot : Nat) : Prop :=
  (t.engAt stop).last = slot ∧ t.rd (jobReg stop slot 8) = s.rd (jobReg stop slot 8) + 1

/-- No stamp packet waits for a job of a Sorus engine whose parameter copy is in force. -/
def NoStamps (s : State) (stop slot : Nat) : Prop := (s.lqAt stop (s.sorHead stop slot (s.jobCpy stop slot)).2.lqStamp).q = []

end Sys2Proof.Claims

/-- Crozier jobs of one descriptor. FIRST sends the next output row, each position the narrowed sums of its taps, the last with
PUSH_EOP, and goes on to the row after it. LAST takes one flit and sends the narrowed sums of its input codes. A reply to the
job's wait for credit is kept as granted. Flits of another epoch are dropped and counted, wherever they stand (log 22). -/
def Obligations.CrozierUnits : Prop :=
  (∀ (s : State) (stop slot n : Nat) (d : CzDesc) (r : RawIn), Turn s stop slot → kindOf stop = .cz → s.czDescs stop slot = [(n, d)] →
      d.mode = 0 → (s.jobAt stop slot).raw = some r → s.flag (reg stop (0xE000 + 64 * d.mon)) 0 = false →
      bitOf (s.rtReg stop d.rt 0) 31 = true →
    ∃ t, exec (.crozierFirst stop slot) s = .next t ∧ UnitDone s t stop slot ∧
      t.mesh.cross = s.mesh.cross ++ (List.range d.wOut).map (fun ox =>
        JobFlit s stop slot d.rt (if ox + 1 = d.wOut then 1 else 0) (BitVec.ofNat 16 (r.frame % 16 * 4096 + r.oy))
          (payloadOf ((List.range d.cout).map fun k => byteOf (d.narrowFirst (s.engAt stop) r k ox).y))) ∧
      (t.jobAt stop slot).raw.map (·.oy) = some (r.oy + 1) ∧ t.lq = s.lq ∧ t.sync = s.sync ∧ t.mesh.uns = s.mesh.uns) ∧
  (∀ (s : State) (stop slot n : Nat) (d : CzDesc) (f : LFlit) (rest : List LFlit), Turn s stop slot → kindOf stop = .cz →
      s.czDescs stop slot = [(n, d)] → d.mode = 1 → d.cinl ≤ 64 → (s.lqAt stop d.lq).q = f :: rest →
      f.epoch = s.jobTagEpoch stop slot → f.op ≠ 2 → (s.jobAt stop slot).tag = some f.tag →
      s.flag (reg stop (0xE000 + 64 * d.mon)) 0 = false → bitOf (s.rtReg stop d.rt 0) 31 = true →
    ∃ t, exec (.crozierLast stop slot) s = .next t ∧ UnitDone s t stop slot ∧ Popped s t stop d.lq f rest ∧
      t.mesh.cross = s.mesh.cross ++ [JobFlit s stop slot d.rt f.op f.tag (payloadOf ((List.range d.cout).flatMap fun k =>
        if d.wide then leBytes ((d.narrowLast (s.engAt stop) (payloadBytes f.payload) k).y % 65536).toNat 2
        else [byteOf (d.narrowLast (s.engAt stop) (payloadBytes f.payload) k).y]))]) ∧
  (∀ (s : State) (k d : Nat) (thr : Word) (r : Reply), Form s → s.sync.replies[k]? = some r → r.ack = false → isEngine r.stop = true →
      s.replyReady k = true → (s.jobAt r.stop r.slot).wait = some (d, thr) →
    ∃ t, exec (.syncReply k) s = .next t ∧ (t.jobAt r.stop r.slot).wait = none ∧ d ∈ (t.jobAt r.stop r.slot).granted ∧
      (t.jobAt r.stop r.slot).grant = tput 0 (s.jobAt r.stop r.slot).grant d thr ∧
      t.sync = { s.sync with replies := s.sync.replies.eraseIdx k } ∧ t = { s with eng := t.eng, sync := t.sync }) ∧
  (∀ (s : State) (stop slot n : Nat) (d : CzDesc), Form s → s.jobRuns stop slot = true → kindOf stop = .cz → s.czDescs stop slot = [(n, d)] →
      d.mode = 1 → (s.lqAt stop d.lq).q ≠ [] → (∀ f ∈ (s.lqAt stop d.lq).q, f.epoch ≠ s.jobTagEpoch stop slot) →
    ∃ t, exec (.crozierLast stop slot) s = .next t ∧
      t.lqAt stop d.lq = { s.lqAt stop d.lq with q := [], pops := (s.lqAt stop d.lq).pops + (s.lqAt stop d.lq).q.length } ∧
      SendsOps s t (if s.flag (reg stop (0x0400 + 16 * d.lq)) 0
        then [.signal (s.rf (reg stop (0x0400 + 16 * d.lq)) 16 16) (s.lqAt stop d.lq).q.length stop] else []) ∧
      t.rf (jobReg stop slot 0xC) 0 16 = min (2 ^ 16 - 1) (s.rf (jobReg stop slot 0xC) 0 16 + (s.lqAt stop d.lq).q.length) ∧
      t.flag (reg stop 0x0200) 4 = true ∧ t = { s with regs := t.regs, lq := t.lq, mesh := t.mesh })

/-- Sorus jobs of one descriptor. DETECT takes a flit and adds its candidates to the region of its frame; PASS writes one type 4 record
for its packet. A notice joins the notices of the Sorus job of its pipeline. The readings of the model are those of log 22. -/
def Obligations.SorusUnits : Prop :=
  (∀ (s : State) (stop slot n : Nat) (d : SorDesc) (f : LFlit) (rest : List LFlit) (r : Region), Turn s stop slot → kindOf stop = .sor →
      s.sorDescs stop slot (s.jobCpy stop slot) = [(n, d)] → d.fn = 0 → (s.lqAt stop d.lqIn).q = f :: rest → f.op = 1 →
      f.epoch = s.jobTagEpoch stop slot → (s.jobAt stop slot).tag = some f.tag → (s.jobAt stop slot).regions = [r] →
      r.frame = f.tag.toNat / 4096 → r.closed = none → r.cpy = s.jobCpy stop slot →
    ∃ t, exec (.sorusDetect stop slot) s = .next t ∧ UnitDone s t stop slot ∧ Popped s t stop d.lqIn f rest ∧
      (t.jobAt stop slot).regions = [d.decode (s.engAt stop) f.payload (s.jobAt stop slot).x (f.tag.toNat % 4096) r] ∧
      (t.jobAt stop slot).x = (s.jobAt stop slot).x + 1 ∧ t.mesh.cross = s.mesh.cross) ∧
  (∀ (s : State) (stop slot n : Nat) (d : SorDesc) (f : LFlit) (rest : List LFlit), Turn s stop slot → kindOf stop = .sor →
      s.sorDescs stop slot (s.jobCpy stop slot) = [(n, d)] → d.fn = 1 → NoStamps s stop slot → (s.lqAt stop d.lqIn).q = f :: rest →
      f.op = 1 → f.epoch = s.jobTagEpoch stop slot → (s.jobAt stop slot).tag = some f.tag → (s.jobAt stop slot).head = none →
      (s.engAt stop).room = true →
    ∃ t, exec (.sorusPass stop slot) s = .next t ∧ UnitDone s t stop slot ∧ Popped s t stop d.lqIn f rest ∧
      (t.engAt stop).recs = (s.engAt stop).recs ++ [EngRec.mk slot false d.ring
        (type4 (s.jobPipe stop slot)
          (s.recFlags stop slot (f.tag.toNat / 4096) + 2 ^ 25 * boolNat ((s.jobAt stop slot).stampFor (f.tag.toNat / 4096)).isNone +
            lostBit (s.jobAt stop slot))
          (s.jobTagEpoch stop slot)
          (s.rf (jobReg stop slot 4) 16 8) (f.tag.toNat / 4096)
          (((s.jobAt stop slot).stampFor (f.tag.toNat / 4096)).elim 0 (·.time)) (s.jobAt stop slot).regSeq (s.jobAt stop slot).recSeq
          f.payload)]) ∧
  (∀ (s : State) (k a b : Nat) (n : Notice), Form s → s.notices[k]? = some n →
      (s.jobsOf n.pipe).filter (fun j => j.1 = n.dst) = [(a, b)] →
    ∃ t, exec (.notice k) s = .next t ∧ t.notices = s.notices.eraseIdx k ∧
      (t.jobAt a b).notices = (s.jobAt a b).notices ++ [n] ∧ t = { s with notices := t.notices, eng := t.eng })

/-- Regions. The oldest open region closes when another has been opened after it: its boxes are suppressed in the order of their
scores and those kept stay for its records. A quiet gap after its close the region's records are written: a type 1 record of each
box kept, in order, then its type 2 record. -/
def Obligations.RegionsCloseAndReport : Prop :=
  (∀ (s : State) (stop slot : Nat) (r u : Region) (rest : List Region), Form s → s.jobValid stop slot = true → kindOf stop = .sor →
      NoStamps s stop slot → (s.jobAt stop slot).regions = r :: u :: rest → r.closed = none → u.closed = none → u ≠ r →
      r ∉ rest → (s.sorHead stop slot r.cpy).2.ownOnly = false →
    ∃ t k, exec (.regionClose stop slot) s = .next t ∧
      k = suppress (s.sorHead stop slot r.cpy).2.thr (s.sorHead stop slot r.cpy).2.keepMax (s.sorHead stop slot r.cpy).2.agnostic
        (r.boxes.mergeSort Box.before) ∧
      (t.jobAt stop slot).regions = { r with boxes := [], closed := some s.ck, kept := k.1, left := k.2,
                                             pFirst := (s.window276 stop slot r.frame).1,
                                             pNext := (s.window276 stop slot r.frame).2 } :: u :: rest ∧
      Kept s t [reg stop 0x0200] ∧ t = { s with regs := t.regs, eng := t.eng, free := s.free + 1 }) ∧
  (∀ (s : State) (stop slot c : Nat) (r : Region) (rest : List Region) (j : EJob) (d : SorDesc) (fl : Nat), Form s →
      s.jobValid stop slot = true → kindOf stop = .sor → NoStamps s stop slot → s.jobAt stop slot = j → j.regions = r :: rest →
      r.closed = some c → c + s.gap (s.jobPipe stop slot) ≤ s.ck → r.next = 0 → r.fl = 0 → j.lostRec = false →
      (s.sorHead stop slot r.cpy).2 = d → d.cropEn = false → (j.stampFor r.frame).isSome = true →
      ((s.engAt stop).recs.filter fun x => !x.kept).length + r.kept.length < 240 →
      fl = s.recFlags stop slot r.frame + r.flags (j.stampFor r.frame) →
    ∃ t, exec (.regionRecords stop slot) s = .next t ∧
      (t.engAt stop).recs = (s.engAt stop).recs ++
        (r.kept.zipIdx.map fun b => EngRec.mk slot false d.ring (type1 (s.jobPipe stop slot) fl r (j.stampFor r.frame) d j.regSeq
          (if b.2 = 0 then j.recSeq else (j.recSeq + b.2) % 2 ^ 32) b.2 b.1)) ++
        [EngRec.mk slot false d.ring (type2 (s.jobPipe stop slot) fl r (j.stampFor r.frame) j.regSeq
          (if r.kept = [] then j.recSeq else (j.recSeq + r.kept.length) % 2 ^ 32))] ∧
      t.mesh = s.mesh ∧ t.sync = s.sync ∧ t.lq = s.lq)

/-! ## Cameras -/

/-- Lines of a camera. A line start stamps the line with the time less the camera's exposure offset and the position of its belt; where
none is in progress it begins a frame. The end of a line stores it in its frame, counts it, and sends it on its delivery with room: a
header flit, then the line's bytes, the last flit PUSH_EOP. An acknowledged frame-store write is in HBM. That acknowledgements of
frame-store writes come one by one in order is the model's choice (log 19).
A packed line is unpacked into containers (R290; the place of a pixel's bits is log 20's). -/
def Obligations.LinesAndFrames : Prop :=
  (∀ (s : State) (c : Nat) (f : Frame), s.camRuns c = true → (s.cam c).line = none → (s.cam c).newest = some f → s.frameDue c = false →
      bitOf f.cfg 0 = true → bitOf f.cfg 11 = false ∨ (s.cam c).inj.head?.any (fun j => !j.lines.isEmpty) = true →
    ∃ t li, exec (.lineStart c) s = .next t ∧ (t.cam c).line = some li ∧
      li.time = (s.time + 2 ^ 64 - bitsOf f.lat 0 16) % 2 ^ 64 ∧ li.pos = s.rd (0x00600704 + 0x10 * bitsOf f.cfg 8 3) ∧
      li.unsync = s.flag 0x0050800C 0 ∧ t = { s with ingest := t.ingest }) ∧
  (∀ (s : State) (c : Nat) (n : Word), Form s → s.camRuns c = true → s.flag (camReg c 0) 0 = true →
      s.flag (camReg c 0) 11 = false ∨ (s.cam c).inj.head?.any (fun j => !j.lines.isEmpty) = true →
      (s.cam c).line = none → (s.cam c).frames = [] → n = (if (s.cam c).rebound then 0 else s.rd (camReg c 0x20) + 1) →
    ∃ t f, exec (.lineStart c) s = .next t ∧ t.rd (camReg c 0x20) = n ∧ (t.cam c).frames = [f] ∧ f.seq = n.toNat ∧ f.idx = 0 ∧
      f.cfg = s.rd (camReg c 0) ∧ f.frm = s.rd (camReg c 4) ∧ (t.cam c).line.isSome = true ∧ t.mesh = s.mesh) ∧
  (∀ (s : State) (c : Nat) (data bs : List Byte) (li : LineIn) (f : Frame) (v : Dlv), Form s → c < 16 → s.camRuns c = true →
      (s.cam c).line = some li → li.unsync = false → (s.cam c).frames = [f] → bitOf f.cfg 11 = false → f.scan = false → f.idx < f.lines → f.status < 2 ^ 32 →
      (s.cam c).held = [] → s.inRun (stackDom f.base) = true → f.dlv = [v] → v.live = true → bitOf v.cfg 1 = false → v.d < 4 →
      s.dlvRoom c v (((li.vals.find? fun x => x.1 == bitsOf v.cred 0 16).map (·.2)).getD 0) (1 + (f.bytes + 63) / 64) = true →
      bitOf (s.rtReg (f.stop c) (bitsOf v.cfg 2 4) 0) 31 = true →
      bs = (toContainers f.fmt f.width data).take f.bytes ++ List.replicate (f.bytes - (toContainers f.fmt f.width data).length) 0 →
    ∃ t, exec (.lineComplete c ⟨data, [], []⟩ 0) s = .next t ∧ (t.cam c).line = none ∧ t.rd (camReg c 0x24) = s.rd (camReg c 0x24) + 1 ∧
      ((t.cam c).frame f.seq).map (·.idx) = some (f.idx + 1) ∧
      (t.cam c).writes = (s.cam c).writes ++ lineWrites (f.seq, f.idx) (f.lineAt f.idx) bs (bs.length + 1) ∧
      t.rd (camReg c (0x48 + 0x10 * v.d)) = s.rd (camReg c (0x48 + 0x10 * v.d)) + BitVec.ofNat 32 (1 + (f.bytes + 63) / 64) ∧
      t.mesh.cross.length = s.mesh.cross.length + 1 + (f.bytes + 63) / 64 ∧
      (∀ i, s.mesh.cross.length ≤ i → ∀ x, t.mesh.cross[i]? = some x → x.flit.tag = lineTag f.seq f.idx ∧
        x.flit.epoch = s.pipeEpoch (bitsOf v.cfg 6 6) ∧ x.flit.op = (if i + 1 = t.mesh.cross.length then 1 else 0))) ∧
  (∀ (s : State) (c : Nat) (w : FsWrite) (rest : List FsWrite) (p : Nat × Nat) (f : Frame), Form s → c < 32 →
      (s.cam c).writes = w :: rest → s.inRun (stackDom w.addr) = true → w.final = none → w.line = some p → w.last = true →
      (s.cam c).frame p.1 = some f → (s.cam c).inj = [] →
    ∃ t, exec (.frameStoreWriteAck c) s = .next t ∧ (t.cam c).writes = rest ∧
      (∀ i < w.data.length, tget 0 t.hbm.bytes (w.addr + i) = w.data.getD i 0) ∧
      (∀ a, a < w.addr ∨ w.addr + w.data.length ≤ a → tget 0 t.hbm.bytes a = tget 0 s.hbm.bytes a) ∧
      ((t.cam c).frame p.1).map (·.stored) = some (f.stored + 1) ∧
      t = { s with regs := t.regs, hbm := t.hbm, ingest := t.ingest })

/-- What else reaches a camera: an edge of its trigger line waits with its time, a trigger packet that has been sent makes way for the
next; a GigE Vision packet adds its bytes to its block, one that
no channel accepts is counted; control packets and link state; an INJECT's lines wait for the camera to take them. The receive buffer of
control packets is the model's reading (log 21). -/
def Obligations.CameraInputs : Prop :=
  (∀ (s : State) (c : Nat) (rising : Bool), Form s → c < 16 → (s.rhz.trigEdges.find? fun e => e.1 == c) = some (c, rising) →
      s.camRuns c = true → s.flag (camReg c 0) 0 = true → (s.cam c).trig.length < 3 →
    ∃ t, exec (.triggerEdge c rising) s = .next t ∧ (t.cam c).trig = (s.cam c).trig ++ [(rising, s.time)] ∧
      t.rhz = { s.rhz with trigEdges := s.rhz.trigEdges.erase (c, rising) } ∧
      ((s.cam c).trig = [] → t.rd (camReg c 0x30) = BitVec.ofNat 32 s.time ∧ t.rd (camReg c 0x34) = BitVec.ofNat 32 (s.time / 2 ^ 32)) ∧
      Kept s t [camReg c 0x30, camReg c 0x34] ∧ t = { s with regs := t.regs, rhz := t.rhz, ingest := t.ingest }) ∧
  (∀ (s : State) (c : Nat) (e : Bool × Nat) (rest : List (Bool × Nat)), Form s → c < 16 → (s.cam c).trig = e :: rest →
    ∃ t, exec (.triggerPacketSent c) s = .next t ∧
      t.ingest = { s.ingest with cams := tput {} s.ingest.cams c { s.cam c with trig := rest } } ∧
      t.rf (camReg c 0x38) 0 16 = (s.rf (camReg c 0x38) 0 16 + 1) % 65536 ∧
      Kept s t [camReg c 0x30, camReg c 0x34, camReg c 0x38] ∧ t = { s with regs := t.regs, ingest := t.ingest }) ∧
  (∀ (s : State) (port k c : Nat) (f : GvspFrame) (b : GvBlock), port < 2 → s.answers 5 = true → s.clockGone 1 = false → s.gvspChan port f = some k →
      c = 16 + 8 * port + k → bitOf (s.lineCfg c) 0 = true → bitOf (s.lineCfg c) 11 = false → (s.cam c).gv = some b → b.block = f.block →
      b.image = true → f.part = 1 → b.size ≠ 0 →
    ∃ t, exec (.gvspPacket port f) s = .next t ∧
      (t.cam c).gv = some { b with
        got := f.packet :: b.got, bytes := putBytes b.bytes ((f.packet - 1) * b.size) (f.data.take b.size) } ∧
      t = { s with ingest := t.ingest }) ∧
  (∀ (s : State) (port : Nat) (f : GvspFrame), port < 2 → s.answers 5 = true → s.clockGone 1 = false → s.gvspChan port f = none →
    exec (.gvspPacket port f) s = .next (s.count (0x00406030 + 0x40 * port) 0 32)) ∧
  (∀ (s : State) (l : Nat) (ws : List Word), Form s → l < 16 → s.answers 5 = true →
    ∃ t q, exec (.cxpControlPacket l ws) s = .next t ∧ q = (tget [] s.ingest.ctlRx l ++ ws).take 1023 ∧
      t.ingest = { s.ingest with ctlRx := tput [] s.ingest.ctlRx l q } ∧ t.rf (lnkReg l 0x14) 0 10 = q.length ∧
      t.rd (lnkReg l 0x10) = q.headD 0 ∧ Kept s t [lnkReg l 0x10, lnkReg l 0x14] ∧ t = { s with regs := t.regs, ingest := t.ingest }) ∧
  (∀ (s : State) (l : Nat) (w : Word), l < 16 → s.regThere (lnkReg l 0xC) = true → s.answers (addrDomain (lnkReg l 0xC)) = true →
    exec (.ctlTxWrite l w) s = .next { s with ingest := { s.ingest with
      ctlTx := tput [] s.ingest.ctlTx l (tget [] s.ingest.ctlTx l ++ [w]) } }) ∧
  (∀ (s : State) (l : Nat), Form s → l < 16 → s.regThere (lnkReg l 0x10) = true → s.answers (addrDomain (lnkReg l 0x10)) = true →
    ∃ t, exec (.ctlRxRead l) s = .next t ∧ t.out = leBytes (s.rd (lnkReg l 0x10)).toNat 4 ∧
      t.ingest = { s.ingest with ctlRx := tput [] s.ingest.ctlRx l ((tget [] s.ingest.ctlRx l).drop 1) } ∧
      t.rd (lnkReg l 0x10) = (tget [] s.ingest.ctlRx l).getD 1 0 ∧ Kept s t [lnkReg l 0x10, lnkReg l 0x14] ∧
      t = { s with regs := t.regs, ingest := t.ingest, out := t.out }) ∧
  (∀ (s : State) (l : Nat) (up : Bool), Form s → l < 16 → s.answers 5 = true → s.clockGone 2 = false → (up = false → ∀ c < 16, (s.cam c).line = none) →
    ∃ t, exec (.cxpLinkUpChange l up) s = .next t ∧ t.flag (lnkReg l 0) 0 = up ∧ Kept s t [lnkReg l 0] ∧ t = { s with regs := t.regs }) ∧
  (∀ (s : State) (k c n : Nat) (cmd : Cmd) (lines : List (List Byte)), Begins s k 5 cmd → cmd.arg 0x10 0 5 = c →
      s.inRun (stopDomain (s.camStop c)) = true → cmd.arg 0x20 0 15 = n → cmd.arg 0x24 0 2 = 0 →
      s.flag (camReg c 0) 0 = true → s.flag (camReg c 0) 11 = true → 1 ≤ n → n ≤ s.rf (camReg c 4) 0 15 →
    ∃ t, exec (.inject k lines) s = .next t ∧ t.host = { s.host with cmds := s.host.cmds.eraseIdx k } ∧
      (t.cam c).inj = (s.cam c).inj ++ [{ cmd := cmd, lines := (List.range n).map fun i => lines.getD i [] }] ∧
      t = { s with host := t.host, ingest := t.ingest })

/-! ## The Rhizoid fabric and its gateway -/

/-- The load of the fabric. LOAD of kind 1 brings an idle fabric into LOADING, its design gone, and makes a RUNNING design stop
first; an image that passes its checks is ARMED with its initial values, and the command completes; a release is requested by
RUN and happens at an edge of the release clock. -/
def Obligations.FabricLoads : Prop :=
  (∀ (s : State) (k : Nat) (c : Cmd) (obj : SignedObj) (img : RhzDesign), Form s → Begins s k 1 c → c.arg 0x1C 0 2 = 1 →
      c.arg 0x10 0 6 = 0 → s.inRun 9 = true → obj.magic = 0x31484A54 → obj.hver = 1 → obj.zeroOk = true →
      obj.objLen = objBytes obj.bodyLen → c.arg 0x18 0 32 = obj.objLen → s.rhz.load = none →
    ∃ t, exec (.loadRhizoidImage k obj img) s = .next t ∧ t.rhz.load = some { cmd := some c, obj := obj, img := img } ∧
      t.host.cmds = s.host.cmds.eraseIdx k ∧ (s.lstate = 4 → t.rhz.halting = true ∧ t.lstate = 4) ∧
      (s.lstate ≠ 4 → t.lstate = 1 ∧ t.rhz.design = none ∧ t.rhz.q = [] ∧ t.rhz.ram = [])) ∧
  (∀ (s : State) (l : RhzLoad), Form s → s.rhz.halting = true → s.lstate = 4 → s.rhz.load = some l →
    ∃ t, exec .fabricStop s = .next t ∧ t.lstate = 1 ∧ t.rhz.design = none ∧ t.rhz.halting = false ∧ t.rhz.load = some l ∧
      t.rd 0x00600580 = 0) ∧
  (∀ (s : State) (l : RhzLoad) (c : Cmd), Form s → s.rhz.load = some l → l.cmd = some c → s.rhz.latched = none →
      (s.lstate = 1 ∨ s.lstate = 2) → s.rhzCheck l.obj l.img = none → l.obj.ratchet = false →
    ∃ t, exec .fabricVerify s = .next t ∧ t.lstate = 3 ∧ t.rhz.design = some l.img ∧ t.rhz.digest = l.obj.digest ∧
      t.rhz.load = none ∧ t.rhz.q = l.img.cells.foldl (fun u x => tput false u x.1 x.2.initQ) [] ∧
      Answered s t c 0 0 0 (leBytes 0 8 ++ leBytes l.obj.digest.toNat 16)) ∧
  (∀ s : State, Form s → s.regThere 0x0060000C = true → s.answers (addrDomain 0x0060000C) = true → s.lstate = 3 →
    ∃ t, exec .run s = .next t ∧ t.rhz = { s.rhz with relReq := true } ∧ t.flag 0x00600000 17 = true ∧ t.lstate = 3 ∧
      Kept s t [0x00600000] ∧ t = { s with regs := t.regs, rhz := t.rhz }) ∧
  (∀ (s : State) (d : RhzDesign), Form s → s.rhz.design = some d → s.lstate = 3 → s.rhz.relReq = true →
      s.edgeNow (s.rf 0x0060000C 1 2) (!s.flag 0x0060000C 3) = true →
    ∃ t, exec .fabricRelease s = .next t ∧ t.lstate = 4 ∧ t.rhz.relReq = false ∧ t.rhz.design = some d)

/-- Edges at the fabric. An edge of a running global clock sets that clock's level; where the network of a RUNNING design settles in
one step, each element then holds what that step gives. A pin input takes its level, unless boundary scan holds the pins. A PLL's
lock shows in its register. -/
def Obligations.FabricEdges : Prop :=
  (∀ (s : State) (n : Nat) (rising : Bool), n < 4 → s.gclkRuns n = true → s.answers 9 = true → s.lstate ≠ 4 → s.rhz.overlaps = [] →
      s.gwLevel = tget false s.rhz.lv lvGw → s.rf 0x0060000C 5 2 ≠ n → (s.rf (0x00600040 + 4 * s.rf 0x0060000C 5 2) 0 2 ≠ 3 ∨ s.rhz.design = none) →
    ∃ t, exec (.fabricActiveClockEdge n rising false) s = .next t ∧ t.rhz.gclk = tput false s.rhz.gclk n rising ∧
      t.rhz.q = s.rhz.q ∧ t.rhz.gin = s.rhz.gin ∧ t.regs = s.regs ∧ t = { s with rhz := t.rhz }) ∧
  (∀ (s : State) (d : RhzDesign) (n : Nat) (rising : Bool) (u : State), n < 4 → s.gclkRuns n = true → s.answers 9 = true → s.lstate = 4 →
      s.rhz.design = some d → s.rhz.overlaps = [] → d.tris = [] → d.trig = [] → d.tscSrc = [] → d.voteWires = [] →
      u = State.sweep { s with rhz := { s.rhz with gclk := tput false s.rhz.gclk n rising, acc := [] } } d →
      (u.sweep d).rhz = u.rhz → (u.sweep d).regs = u.regs →
    ∃ t, exec (.fabricActiveClockEdge n rising false) s = .next t ∧ t.rhz.q = u.rhz.q ∧ t.rhz.hop = u.rhz.hop ∧ t.rhz.ram = u.rhz.ram ∧
      t.rhz.gclk = tput false s.rhz.gclk n rising) ∧
  (∀ (s : State) (pin : Nat) (v : Bool), Form s → pin < 96 → s.answers 9 = true → s.pinsHeld = false → s.lstate ≠ 4 → s.rhz.overlaps = [] →
    ∃ t, exec (.rhzPinInputEdge pin v) s = .next t ∧ t.pinIn pin = v ∧ ∀ m < 96, m ≠ pin → t.pinIn m = s.pinIn m) ∧
  (∀ (s : State) (pin : Nat) (v : Bool), pin < 96 → s.answers 9 = true → s.pinsHeld = true →
    exec (.rhzPinInputEdge pin v) s = .next { s with dbg := { s.dbg with live := tput 0 s.dbg.live pin (1 + boolNat v) } }) ∧
  (∀ (s : State) (n : Nat) (v : Bool), Form s → n < 4 → s.answers 9 = true →
    ∃ t, exec (.pllLockChange n v) s = .next t ∧ t.flag (0x00600040 + 4 * n) 31 = v ∧ Kept s t [0x00600040 + 4 * n] ∧
      t = { s with regs := t.regs })

/-- R371 and R370: what one step of the network does to storage. With `ares`, term 4m + 3 resets a macrocell's element; with `aset`, term
4m + 2 sets it, and reset wins; while either is 1 clock edges have no effect, and a term so used leaves the sum. Otherwise a latch is
transparent while its clock is 1, and a D, T or JK flip-flop takes its next value where its own clock has risen. Every registered hop whose
clock has risen takes its source (R375). -/
def Obligations.StorageElementsSeeTheirClocks : Prop :=
  ∀ (s : State) (d : RhzDesign), twf false s.rhz.q = true → twf false s.rhz.hop = true → (d.cells.map (·.1)).Nodup → (d.hops.map (·.1)).Nodup →
    (∀ m c, (m, c) ∈ d.cells →
      (c.ares = true → s.term d m 3 = true → tget false (s.sweep d).rhz.q m = false) ∧
      (c.aset = true → s.term d m 2 = true → (c.ares = false ∨ s.term d m 3 = false) → tget false (s.sweep d).rhz.q m = true) ∧
      (c.ares = true → ∀ x, sumTerms { c with terms := c.terms.set 3 x } = sumTerms c) ∧
      (c.aset = true → ∀ x, sumTerms { c with terms := c.terms.set 2 x } = sumTerms c) ∧
      ((c.ares = false ∨ s.term d m 3 = false) → (c.aset = false ∨ s.term d m 2 = false) →
        (c.ffk = 3 → tget false (s.sweep d).rhz.q m =
          (if s.cellClock d m = true then s.ev d rhzDepth (.xorOut m) else tget false s.rhz.q m)) ∧
        (c.ffk < 3 → s.cellClock d m = false ∨ tget false s.rhz.lv m = true → tget false (s.sweep d).rhz.q m = tget false s.rhz.q m) ∧
        (s.cellClock d m = true → tget false s.rhz.lv m = false →
          (c.ffk = 0 → tget false (s.sweep d).rhz.q m = s.ev d rhzDepth (.xorOut m)) ∧
          (c.ffk = 1 → tget false (s.sweep d).rhz.q m = (tget false s.rhz.q m != s.ev d rhzDepth (.xorOut m))) ∧
          (c.ffk = 2 → tget false (s.sweep d).rhz.q m =
            if tget false s.rhz.q m = true then !s.term d m 1 else s.ev d rhzDepth (.xorOut m))))) ∧
    (∀ h ∈ d.hops, h.2.reg = true → tget false (s.sweep d).rhz.hop h.1 =
      (if s.gclkLevel (some d) h.2.clk = true ∧ tget false s.rhz.lv (lvHop h.1) = false then s.wireVal d h.2.src
       else tget false s.rhz.hop h.1))

/-- The capture of the fabric's state: CAPTURE arms a snapshot and waits for it, the snapshot takes storage and pins at the selected
edge and the command completes with its time, CAP_FREE discards it. -/
def Obligations.FabricSnapshots : Prop :=
  (∀ (s : State) (k : Nat) (c : Cmd), Form s → Begins s k 9 c → s.inRun 9 = true → s.rf 0x00600910 0 2 = 0 → (s.lstate = 3 ∨ s.lstate = 4) →
    ∃ t, exec (.capture k) s = .next t ∧ t.rf 0x00600910 0 2 = 1 ∧ t.rf 0x00600900 0 5 = c.arg 0x10 0 5 ∧
      t.gov = { s.gov with capture := some c } ∧ Kept s t [0x00600900, 0x00600908, 0x0060090C, 0x00600910]) ∧
  (∀ (s : State) (d : RhzDesign) (c : Cmd), Form s → s.rhz.design = some d → s.rf 0x00600910 0 2 = 1 → s.capDue d = true →
      s.edgeNow (s.rf 0x00600900 0 2) (!s.flag 0x00600900 2) = true →
      s.gov.capture = some c →
    ∃ t x, exec .snapshot s = .next t ∧ t.rf 0x00600910 0 2 = 2 ∧ t.rhz = { s.rhz with snap := some x } ∧ x.q = s.rhz.q ∧ x.hop = s.rhz.hop ∧
      x.ram = s.rhz.ram ∧ x.pins = [s.rd 0x00600280, s.rd 0x00600284, s.rd 0x00600288] ∧ t.gov.capture = none ∧
      Answered s t c 0 0 0 (leBytes s.time 8)) ∧
  (∀ s : State, Form s → s.regThere 0x00600900 = true → s.answers (addrDomain 0x00600900) = true → s.rf 0x00600910 0 2 = 2 →
    ∃ t, exec .capFree s = .next t ∧ t.rf 0x00600910 0 2 = 0 ∧ t.rhz = { s.rhz with snap := none } ∧ Kept s t [0x00600910] ∧
      t = { s with regs := t.regs, rhz := t.rhz })

/-- The gateway. A host write of a register shows at once and is on its way to the fabric; queues keep the order of their words and
their level, a push into a full one is dropped and counted; a pin hold takes its four bits. -/
def Obligations.GatewayRegistersAndQueues : Prop :=
  (∀ (s : State) (n : Nat) (v : Word), Form s → n < 16 → s.regThere (0x00600400 + 4 * n) = true →
      s.answers (addrDomain (0x00600400 + 4 * n)) = true →
    ∃ t e, exec (.gatewayRegisterWrite n v) s = .next t ∧ t.rd (0x00600400 + 4 * n) = v ∧
      t.rhz = { s.rhz with gin := s.rhz.gin ++ [(n, v, e)] } ∧ 2 ≤ e ∧ e ≤ 4 ∧ Kept s t [0x00600400 + 4 * n] ∧
      t = { s with regs := t.regs, rhz := t.rhz, free := s.free + 1 }) ∧
  (∀ (s : State) (n : Nat) (w : Word), Form s → n < 2 → s.lstate = 4 → (s.fq n).length < 256 →
    ∃ t, exec (.fabricQueuePush n w) s = .next t ∧ t.fq n = s.fq n ++ [w] ∧ t.rf (0x00600504 + 0x10 * n) 0 9 = (s.fq n).length + 1 ∧
      Sends s t (if s.flag (0x00600508 + 0x10 * n) 0 then [opFlit (.signal (s.rf (0x00600508 + 0x10 * n) 16 16) 1 rgwStop)] else []) ∧
      Kept s t [0x00600504 + 0x10 * n, 0x0010F010]) ∧
  (∀ (s : State) (n : Nat) (w : Word), Form s → n < 2 → s.lstate = 4 → 256 ≤ (s.fq n).length →
    ∃ t, exec (.fabricQueuePush n w) s = .next t ∧ t.flag (0x00600504 + 0x10 * n) 16 = true ∧
      t.rf (0x00600504 + 0x10 * n) 18 14 = holdAt 16383 (s.rf (0x00600504 + 0x10 * n) 18 14 + 1) ∧
      Kept s t [0x00600504 + 0x10 * n] ∧ t = { s with regs := t.regs }) ∧
  (∀ (s : State) (n : Nat) (w : Word) (r : List Word), Form s → n = 2 ∨ n = 3 → s.lstate = 4 → s.fq n = w :: r →
    ∃ t, exec (.fabricQueuePop n) s = .next t ∧ t.rhz.queues = tput [] s.rhz.queues n r ∧ t.rhz.popped = tput 0 s.rhz.popped n w) ∧
  (∀ (s : State) (n : Nat) (w : Word) (r : List Word), Form s → n < 2 → s.regThere (0x00600500 + 0x10 * n) = true →
      s.answers (addrDomain (0x00600500 + 0x10 * n)) = true → s.fq n = w :: r → r.length < 512 →
    ∃ t, exec (.hostQueuePop n) s = .next t ∧ t.out = leBytes w.toNat 4 ∧ t.rhz = { s.rhz with queues := tput [] s.rhz.queues n r } ∧
      t.rf (0x00600504 + 0x10 * n) 0 9 = r.length ∧ Kept s t [0x00600504 + 0x10 * n] ∧
      t = { s with regs := t.regs, rhz := t.rhz, out := t.out }) ∧
  (∀ (s : State) (n : Nat) (w : Word), Form s → n = 2 ∨ n = 3 → s.regThere (0x00600500 + 0x10 * n) = true →
      s.answers (addrDomain (0x00600500 + 0x10 * n)) = true → (s.fq n).length < 256 →
    ∃ t, exec (.hostQueuePush n w) s = .next t ∧ t.fq n = s.fq n ++ [w] ∧ t.rf (0x00600504 + 0x10 * n) 0 9 = (s.fq n).length + 1 ∧
      Kept s t [0x00600504 + 0x10 * n] ∧ t = { s with regs := t.regs, rhz := t.rhz }) ∧
  (∀ (s : State) (n : Nat) (v : Word), Form s → n < 96 → s.regThere (0x00600100 + 4 * n) = true →
      s.answers (addrDomain (0x00600100 + 4 * n)) = true →
    ∃ t, exec (.pinHoldWrite n v) s = .next t ∧ t.rd (0x00600100 + 4 * n) = v &&& 0xF ∧ Kept s t [0x00600100 + 4 * n] ∧
      t = { s with regs := t.regs })

/-- Decoders and capture units. An input of a decoder or unit changes once its pin has stood as long as its filter asks. A transition in
which A leads counts up and one in which B leads counts down (log 12), the other way round with `inv`; a rising index pulse loads the
preset; a capture unit keeps the time of its edge, at most 8 ns late, and the position; a read takes the oldest event into the read
buffer. -/
def Obligations.DecodersAndCaptureUnits : Prop :=
  (∀ (s : State) (n : Nat) (a b : Bool), Form s → n < 8 → s.answers 9 = true → s.flag (0x00600700 + 0x10 * n) 0 = true →
      tget 0 s.rhz.qd n < 8 → s.rhz.design = none → s.quadNext n = some (a, b) →
      (quadPlace (tget 0 s.rhz.qd n % 2 == 1) (tget 0 s.rhz.qd n / 2 % 2 == 1) + 1) % 4 = quadPlace a b →
    ∃ t, exec (.quadratureTransition n a b) s = .next t ∧
      t.rhz.qd = tput 0 s.rhz.qd n (boolNat a + 2 * boolNat b + 4 * (tget 0 s.rhz.qd n / 4)) ∧
      t.rd (0x00600704 + 0x10 * n) = (if s.flag (0x00600700 + 0x10 * n) 23 then s.rd (0x00600704 + 0x10 * n) - 1
        else s.rd (0x00600704 + 0x10 * n) + 1) ∧
      t.flag (0x0060070C + 0x10 * n) 31 = s.flag (0x00600700 + 0x10 * n) 23 ∧
      Kept s t [0x00600704 + 0x10 * n, 0x0060070C + 0x10 * n]) ∧
  (∀ (s : State) (n : Nat) (a b : Bool), Form s → n < 8 → s.answers 9 = true → s.flag (0x00600700 + 0x10 * n) 0 = true →
      tget 0 s.rhz.qd n < 8 → s.quadNext n = some (a, b) →
      (quadPlace (tget 0 s.rhz.qd n % 2 == 1) (tget 0 s.rhz.qd n / 2 % 2 == 1) + 2) % 4 = quadPlace a b →
    ∃ t, exec (.quadratureTransition n a b) s = .next t ∧ t.rd (0x00600704 + 0x10 * n) = s.rd (0x00600704 + 0x10 * n) ∧
      t.rf (0x0060070C + 0x10 * n) 0 31 = holdAt (2 ^ 31 - 1) (s.rf (0x0060070C + 0x10 * n) 0 31 + 1) ∧
      Kept s t [0x0060070C + 0x10 * n]) ∧
  (∀ (s : State) (n : Nat), Form s → n < 8 → s.answers 9 = true → s.inputDue (3 * n + 2) = true → s.inputLevel (3 * n + 2) = false →
      s.flag (0x00600700 + 0x10 * n) 0 = true → s.flag (0x00600700 + 0x10 * n) 22 = true → s.rhz.design = none → tget 0 s.rhz.qd n < 8 →
    ∃ t, exec (.zEdge n) s = .next t ∧ t.rd (0x00600704 + 0x10 * n) = s.rd (0x00600708 + 0x10 * n) ∧ t.inputLevel (3 * n + 2) = true ∧
      tget none t.rhz.wait (3 * n + 2) = none ∧ Kept s t [0x00600704 + 0x10 * n]) ∧
  (∀ (s : State) (n : Nat) (rising : Bool) (at_ : Nat), Form s → n < 8 → s.answers 9 = true → s.flag (0x00600600 + 0x20 * n) 0 = true →
      edgeMatch (s.rf (0x00600600 + 0x20 * n) 9 2) rising = true → s.flag (0x00600600 + 0x20 * n) 1 = false →
      tget none s.rhz.wait (24 + n) = some at_ → s.inputDue (24 + n) = true → s.inputLevel (24 + n) = !rising →
      (tget [] s.rhz.tsc n).length < 16 →
    ∃ t e, exec (.timestampCapture n rising) s = .next t ∧ tget [] t.rhz.tsc n = tget [] s.rhz.tsc n ++ [e] ∧ e.rise = rising ∧
      at_ ≤ e.time ∧ e.time ≤ at_ + 8 ∧ e.pos = s.rd (0x00600704 + 0x10 * s.rf (0x00600600 + 0x20 * n) 11 3) ∧
      t.inputLevel (24 + n) = rising ∧ t.rf (0x00600604 + 0x20 * n) 0 5 = (tget [] s.rhz.tsc n).length + 1 ∧
      Kept s t [0x00600604 + 0x20 * n] ∧ t = { s with regs := t.regs, rhz := t.rhz, free := s.free + 1 }) ∧
  (∀ (s : State) (n : Nat) (e : TscEv) (q : List TscEv), Form s → n < 8 → s.answers 9 = true → s.regThere (0x00600608 + 0x20 * n) = true →
      tget [] s.rhz.tsc n = e :: q → q.length < 32 →
    ∃ t, exec (.tscEventRead n) s = .next t ∧ t.out = leBytes (1 + 2 * boolNat e.rise) 4 ∧
      t.rd (0x00600608 + 0x20 * n) = BitVec.ofNat 32 (1 + 2 * boolNat e.rise) ∧ t.rd (0x00600614 + 0x20 * n) = e.pos ∧
      t.rd (0x0060060C + 0x20 * n) = BitVec.ofNat 32 e.time ∧ t.rd (0x00600610 + 0x20 * n) = BitVec.ofNat 32 (e.time / 2 ^ 32) ∧
      t.rf (0x00600604 + 0x20 * n) 0 5 = q.length ∧ t.rhz = { s.rhz with tsc := tput [] s.rhz.tsc n q })
/-! ## The Capsule -/

namespace Sys2Proof.Claims

open Sys2Proof.Machine

/-- A write of CGW_CMD reaches the gateway, which is not busy (R344). -/
structure CgwFree (s : State) : Prop where
  form : Form s
  reg : s.regThere 0x00700000 = true
  host : s.answers (addrDomain 0x00700000) = true
  idle : s.flag 0x00700008 0 = false

/-- The gateway runs a command: its opcode, the status and the reply words that it will give. -/
def CgwRuns (t : State) (opc status : Nat) (ws : List Word) : Prop :=
  t.flag 0x00700008 0 = true ∧ t.rf 0x00700008 8 8 = opc ∧ t.cap.gw = some (opc, status, ws)

/-- Only the gateway's status and command have changed. -/
def CgwFrame (s t : State) (as : List Nat) : Prop :=
  Kept s t (0x00700008 :: as) ∧ t = { s with regs := t.regs, cap := { s.cap with gw := t.cap.gw } }

/-- The belts named that measure, and the mode that follows (R345, R367). -/
def Measuring (s t : State) (m : Nat) : Prop :=
  t.rf cgwState 4 8 = m ∧ t.cstate = (if m ≠ 0 ∨ s.cap.wins.any (fun w => w.2.isSome) = true then 3 else 2) ∧
    ∀ i, i = 3 ∨ 12 ≤ i → t.flag cgwState i = s.flag cgwState i

/-- The Capsule's service port answers a command: its reply frame, and nothing else (R356). -/
def Replied (s t : State) (cmd status : Nat) (payload : List Byte) : Prop :=
  t = { s with cap := { s.cap with reply :=
    0x7E :: ([BitVec.ofNat 8 (cmd + 0x80)] ++ leBytes (payload.length + 1) 2 ++ [BitVec.ofNat 8 status] ++ payload ++
      leBytes (crc16 ([BitVec.ofNat 8 (cmd + 0x80)] ++ leBytes (payload.length + 1) 2 ++ [BitVec.ofNat 8 status] ++ payload)) 2) } }

/-- The Capsule serves its port and has no NOR operation under way. -/
structure Serving (s : State) : Prop where
  up : s.cstate = 2 ∨ s.cstate = 3 ∨ s.cstate = 4
  idle : s.cap.jobs = []

end Sys2Proof.Claims

/-- The commands of the Capsule gateway. A write of CGW_CMD with the gateway idle starts the command: START and STOP set and clear belts,
and START of a belt that is not enabled starts none; READ_RECORD answers a record that the ring still holds, NOTYET or GONE; READ_LOG the
entry of a sequence or EMPTY; READ_SWID and READ_EVENT_COUNTER the Capsule's identification and counters. All answer DOWN while the
Capsule is off. At its completion the reply words and the status are written and `busy` clears; an unknown opcode is REFUSED and counted,
and a write during a command is ignored and counted. -/
def Obligations.CapsuleGatewayCommands : Prop :=
  (∀ s : State, CgwFree s → s.capUp = true →
      (∀ b < 8, s.cgwArg % 256 / 2 ^ b % 2 = 1 → paramIn s.cap.params 1 0 / 2 ^ b % 2 = 1) →
    ∃ t, exec .capsuleStart s = .next t ∧ Measuring s t (s.rf cgwState 4 8 ||| s.cgwArg % 256) ∧
      CgwRuns t 1 0 [BitVec.ofNat 32 (s.rf cgwState 4 8 ||| s.cgwArg % 256)] ∧ CgwFrame s t [cgwState]) ∧
  (∀ (s : State) (b : Nat), CgwFree s → s.capUp = true → b < 8 → s.cgwArg % 256 / 2 ^ b % 2 = 1 →
      paramIn s.cap.params 1 0 / 2 ^ b % 2 = 0 →
    ∃ t, exec .capsuleStart s = .next t ∧ CgwRuns t 1 3 [BitVec.ofNat 32 (s.rf cgwState 4 8)] ∧ CgwFrame s t []) ∧
  (∀ s : State, CgwFree s → s.capUp = true →
    ∃ t, exec .capsuleStop s = .next t ∧ Measuring s t (s.rf cgwState 4 8 &&& (255 - s.cgwArg % 256)) ∧
      CgwRuns t 2 0 [BitVec.ofNat 32 (s.rf cgwState 4 8 &&& (255 - s.cgwArg % 256))] ∧ CgwFrame s t [cgwState]) ∧
  (∀ s : State, CgwFree s → s.capUp = true → (s.rd 0x00700010 - s.rd 0x00700004).toNat < 4096 →
      recordOk (tget 0 s.cap.ring (s.cgwArg % 4096)) = true →
    ∃ t, exec .readRecord s = .next t ∧ CgwRuns t 3 0 (payloadWords (tget 0 s.cap.ring (s.cgwArg % 4096))) ∧ CgwFrame s t []) ∧
  (∀ s : State, CgwFree s → s.capUp = true → 1 ≤ (s.rd 0x00700004 - s.rd 0x00700010).toNat →
      (s.rd 0x00700004 - s.rd 0x00700010).toNat < 2 ^ 31 →
    ∃ t, exec .readRecord s = .next t ∧ CgwRuns t 3 4 [] ∧ CgwFrame s t []) ∧
  (∀ s : State, CgwFree s → s.capUp = true →
      ((s.rd 0x00700004 - s.rd 0x00700010).toNat = 0 ∨ 2 ^ 31 ≤ (s.rd 0x00700004 - s.rd 0x00700010).toNat) →
      (4096 ≤ (s.rd 0x00700010 - s.rd 0x00700004).toNat ∨ recordOk (tget 0 s.cap.ring (s.cgwArg % 4096)) = false) →
    ∃ t, exec .readRecord s = .next t ∧ CgwRuns t 3 5 [] ∧ CgwFrame s t []) ∧
  (∀ (s : State) (k : Nat) (v : BitVec 256), CgwFree s → s.capUp = true →
      (s.cap.log.find? fun e => slotCommitted e.2 && slotNat e.2 4 4 == s.cgwArg) = some (k, v) →
    ∃ t, exec .readLog s = .next t ∧
      CgwRuns t 4 0 ((List.range 8).map (fun i => v.extractLsb' (32 * i) 32) ++ [BitVec.ofNat 32 k]) ∧ CgwFrame s t []) ∧
  (∀ s : State, CgwFree s → s.capUp = true → (∀ e ∈ s.cap.log, slotCommitted e.2 = true → slotNat e.2 4 4 ≠ s.cgwArg) →
    ∃ t, exec .readLog s = .next t ∧ CgwRuns t 4 6 [] ∧ CgwFrame s t []) ∧
  (∀ s : State, CgwFree s → 2 ≤ s.cstate →
    ∃ t, exec .readSwid s = .next t ∧ CgwRuns t 5 0 [if s.cstate = 4 then 0 else s.cap.swid, s.cap.version,
      BitVec.ofNat 32 (s.cap.bank + s.cap.boots * 2 ^ 16), s.cap.fault] ∧ CgwFrame s t []) ∧
  (∀ s : State, CgwFree s → 2 ≤ s.cstate →
    ∃ t, exec .readEventCounter s = .next t ∧ CgwRuns t 6 0 [BitVec.ofNat 32 (s.cap.ctr + boolNat s.pinSealed * 2 ^ 24 +
      boolNat (s.flag cgwState 24) * 2 ^ 25 + boolNat (s.flag cgwState 25) * 2 ^ 26 + boolNat (s.flag cgwState 26) * 2 ^ 27),
      BitVec.ofNat 32 s.cap.committed, BitVec.ofNat 32 s.cap.discarded, BitVec.ofNat 32 (229376 - s.cap.next)] ∧ CgwFrame s t []) ∧
  (∀ (s : State) (c : Instr) (opc : Nat), CgwFree s → s.cstate < 2 →
      (c, opc) ∈ [(Instr.capsuleStart, 1), (.capsuleStop, 2), (.readRecord, 3), (.readLog, 4), (.readSwid, 5), (.readEventCounter, 6)] →
    ∃ t, exec c s = .next t ∧ CgwRuns t opc 7 [] ∧ CgwFrame s t []) ∧
  (∀ (s : State) (c : Instr), s.regThere 0x00700000 = true → s.answers (addrDomain 0x00700000) = true → s.flag 0x00700008 0 = true →
      c ∈ [Instr.capsuleStart, .capsuleStop, .readRecord, .readLog, .readSwid, .readEventCounter, .cgwCommandRefused 0] →
    exec c s = .next (s.count 0x0070000C 0 32)) ∧
  (∀ (s : State) (opc st : Nat) (ws : List Word), Form s → s.cap.gw = some (opc, st, ws) → ws.length ≤ 16 → st < 16 →
    ∃ t, exec .capsuleCommandComplete s = .next t ∧ t.flag 0x00700008 0 = false ∧ t.rf 0x00700008 4 4 = st ∧ t.cap = { s.cap with gw := none } ∧
      (∀ i (h : i < ws.length), t.rd (0x00700040 + 4 * i) = ws[i]) ∧
      (∀ i < 16, ws.length ≤ i → t.rd (0x00700040 + 4 * i) = s.rd (0x00700040 + 4 * i)) ∧
      Kept s t ([0x00700008, 0x0010F010] ++ (List.range 16).map fun i => 0x00700040 + 4 * i) ∧
      t = { s with regs := t.regs, cap := t.cap, hostMem := t.hostMem }) ∧
  (∀ (s : State) (opc : Nat), CgwFree s → (opc = 0 ∨ 7 ≤ opc) → opc < 256 →
    ∃ t, exec (.cgwCommandRefused opc) s = .next t ∧ t.flag 0x00700008 0 = false ∧ t.rf 0x00700008 4 4 = 2 ∧ t.rf 0x00700008 8 8 = opc ∧
      t.cap = { s.cap with gw := none } ∧ t.rd 0x0070000C = BitVec.ofNat 32 (min 0xFFFFFFFF ((s.rd 0x0070000C).toNat + 1)) ∧
      Kept s t [0x00700008, 0x0070000C, 0x0010F010] ∧ t = { s with regs := t.regs, cap := t.cap, hostMem := t.hostMem })

/-- The Capsule's service port and its NOR. A read command replies; a change is refused while sealed and otherwise begins a NOR operation,
whose steps follow one another: a parameter's copy is erased, written, committed, named by a log entry, and is in force once that entry
commits; an image's bank is erased, programmed, verified and named by an entry, which commits and is answered. The split of a change into
NOR operations is the model's reading (log 14). -/
def Obligations.CapsuleServicePort : Prop :=
  (∀ (s : State) (id idx : Nat), Serving s → paramIs id idx = true →
    ∃ t, exec (.paramRead id idx) s = .next t ∧ Replied s t 0x10 0 (leBytes (paramIn s.cap.params id idx) 4)) ∧
  (∀ s : State, Serving s →
    ∃ t, exec .status s = .next t ∧ Replied s t 0x30 0 ([BitVec.ofNat 8 (boolNat !s.pinSealed)] ++ leBytes s.cap.ctr 3 ++
      leBytes s.cap.swid.toNat 4 ++ [BitVec.ofNat 8 s.cap.bootBank])) ∧
  (∀ (s : State) (cmd : Nat), Serving s → cmd < 256 → cmd ∉ [0x10, 0x11, 0x20, 0x21, 0x22, 0x30] →
    ∃ t, exec (.badServiceFrame true cmd) s = .next t ∧ Replied s t cmd 7 []) ∧
  (∀ (s : State) (cmd : Nat), exec (.badServiceFrame false cmd) s = .next s) ∧
  (∀ (s : State) (id idx : Nat) (v : Word), Serving s → s.permitted = false →
    ∃ t, exec (.paramWrite id idx v) s = .next t ∧ Replied s t 0x11 1 []) ∧
  (∀ (s : State) (id idx : Nat) (v : Word), Serving s → s.permitted = true → (paramOk id idx v.toNat = false ∨ s.flag cgwState 25 = true) →
    ∃ t, exec (.paramWrite id idx v) s = .next t ∧ Replied s t 0x11 2 []) ∧
  (∀ (s : State) (id idx : Nat) (v : Word), Serving s → s.permitted = true → paramOk id idx v.toNat = true → s.flag cgwState 25 = false →
      s.flag cgwState 26 = false → s.cap.ctr ≠ 0xFFFFFF → tget 0 s.cap.params (paramKey id idx) ≠ v →
    exec (.paramWrite id idx v) s = .next { s with cap := { s.cap with jobs := [.param id idx v], stage := 0,
                                                                       copies := tput none s.cap.copies s.spareCopy none } }) ∧
  (∀ (s : State) (id idx : Nat) (v : Word) (rest : List NorJob), (s.capUp = true ∨ s.cstate = 4) → s.cap.jobs = .param id idx v :: rest →
      s.cap.stage = 0 →
    exec .norOperationComplete s = .next { s with cap := { s.cap with
      stage := 1
      copies := tput none s.cap.copies s.spareCopy
        (some { gen := s.newGen, set := s.newSet id idx v, committed := false, crcOk := true }) } }) ∧
  (∀ (s : State) (id idx : Nat) (v : Word) (rest : List NorJob), (s.capUp = true ∨ s.cstate = 4) → s.cap.jobs = .param id idx v :: rest →
      s.cap.stage = 1 → exec .norOperationComplete s = .next { s with cap := { s.cap with stage := 2 } }) ∧
  (∀ (s : State) (id idx : Nat) (v : Word) (rest : List NorJob), Form s → (s.capUp = true ∨ s.cstate = 4) →
      s.cap.jobs = .param id idx v :: rest → s.cap.stage = 2 → s.pinSealed = false →
    ∃ t, exec .norOperationComplete s = .next t ∧ t.cap.stage = 3 ∧ t.cap.next = s.cap.next + 1 ∧ t.cap.jobs = s.cap.jobs ∧
      t.cap.copies = tput none s.cap.copies s.spareCopy
        (some { gen := s.newGen, set := s.newSet id idx v, committed := true, crcOk := true }) ∧
      t.cap.params = s.cap.params ∧ t.cap.gen = s.cap.gen ∧ Kept s t [cgwState] ∧ t = { s with regs := t.regs, cap := t.cap }) ∧
  (∀ (s : State) (id idx : Nat) (v : Word), (s.capUp = true ∨ s.cstate = 4) →
      s.cap.jobs = [.param id idx v] → s.cap.stage = 2 → s.pinSealed = true →
    ∃ t, exec .norOperationComplete s = .next t ∧ t.cap.jobs = [] ∧ t.cap.params = s.cap.params ∧ t.cap.gen = s.cap.gen ∧
      t.cap.log = s.cap.log ∧ t = { s with cap := t.cap } ∧ t.cap.reply.drop 4 = (1 : Byte) :: leBytes (crc16 [0x91, 1, 0, 1]) 2) ∧
  (∀ (s : State) (id idx : Nat) (v : Word) (rest : List NorJob), (s.capUp = true ∨ s.cstate = 4) → s.cap.jobs = .param id idx v :: rest →
      s.cap.stage = 3 → exec .norOperationComplete s = .next { s with cap := { s.cap with stage := 4 } }) ∧
  (∀ (s : State) (id idx : Nat) (v : Word), Form s → (s.capUp = true ∨ s.cstate = 4) → s.cap.jobs = [.param id idx v] → s.cap.stage = 4 →
      0 < s.cap.next →
    ∃ t, exec .norOperationComplete s = .next t ∧ t.cap.jobs = [] ∧ t.cap.params = s.newSet id idx v ∧ t.cap.gen = some s.newGen ∧
      slotCommitted (tget erasedSlot t.cap.log (s.cap.next - 1)) = true ∧ t.cap.committed = s.cap.committed + 1 ∧
      t.cap.lseq = s.cap.lseq + 1 ∧ t.cap.ctr = slotNat (commitBits (tget erasedSlot s.cap.log (s.cap.next - 1))) 8 3 ∧
      Kept s t [cgwState] ∧ t = { s with regs := t.regs, cap := t.cap }) ∧
  (∀ (s : State) (size : Nat), Serving s → s.permitted = true → 0 < size → size ≤ 0x400000 →
    exec (.imageBegin size) s = .next { s with cap := { s.cap with
      upload := some (size, 1 - s.cap.bootBank), jobs := [.erase], stage := 0
      nor := s.cap.nor.filter fun e => e.1 / 0x400000 != 1 - s.cap.bootBank
      images := tput none s.cap.images (1 - s.cap.bootBank) none } }) ∧
  (∀ s : State, (s.capUp = true ∨ s.cstate = 4) → s.cap.jobs = [.erase] →
    ∃ t, exec .norOperationComplete s = .next t ∧ Replied { s with cap := { s.cap with jobs := [], stage := 0 } } t 0x20 0 []) ∧
  (∀ (s : State) (off size b : Nat) (data : List Byte), Serving s → s.permitted = true → s.cap.upload = some (size, b) →
      data.length ≤ 4092 → off + data.length ≤ size →
    exec (.imageData off data) s = .next { s with cap := { s.cap with jobs := [.program off data], stage := 0 } }) ∧
  (∀ (s : State) (off size b : Nat) (data : List Byte), (s.capUp = true ∨ s.cstate = 4) → s.cap.jobs = [.program off data] →
      s.cap.upload = some (size, b) → twf 0xFF s.cap.nor = true →
    ∃ t, exec .norOperationComplete s = .next t ∧ t.cap.jobs = [] ∧
      (∀ i (h : i < data.length), tget 0xFF t.cap.nor (b * 0x400000 + off + i) = tget 0xFF s.cap.nor (b * 0x400000 + off + i) &&& data[i]) ∧
      (∀ a, a < b * 0x400000 + off ∨ b * 0x400000 + off + data.length ≤ a → tget 0xFF t.cap.nor a = tget 0xFF s.cap.nor a) ∧
      Replied { s with cap := { s.cap with jobs := [], stage := 0, nor := t.cap.nor } } t 0x21 0 []) ∧
  (∀ (s : State) (v : Verdict) (version : Word) (memNeed size b : Nat) (factory : Tbl Word) (i : CapImage), Form s → Serving s →
      s.permitted = true → i = { size := size, verdict := v, version := version, memNeed := memNeed, factory := factory } →
      s.flag cgwState 25 = false → s.flag cgwState 26 = false → s.cap.ctr ≠ 0xFFFFFF → s.cap.upload = some (size, b) → s.cap.next < 229376 →
    ∃ t, exec (.imageEnd v version memNeed factory) s = .next t ∧ t.cap.upload = none ∧ t.cap.next = s.cap.next + 1 ∧
      t.cap.images = tput none s.cap.images b (some i) ∧
      t.cap.jobs = [if capsuleVerify (s.bankObj b i) = none then .entry 4 b 0 s.cap.swid (swidOf (s.bankObj b i).digest) (some (0x22, 0))
        else .entry 6 b 0 0 (swidOf (s.bankObj b i).digest) (some (0x22, 3))] ∧ t.cap.stage = 0 ∧ t.cap.bootBank = s.cap.bootBank ∧
      Kept s t [cgwState] ∧ t = { s with regs := t.regs, cap := t.cap }) ∧
  (∀ (s : State) (et index pid : Nat) (old new : Word) (a : Option (Nat × Nat)) (rest : List NorJob), (s.capUp = true ∨ s.cstate = 4) →
      s.cap.jobs = .entry et index pid old new a :: rest → s.cap.stage = 0 →
    exec .norOperationComplete s = .next { s with cap := { s.cap with stage := 1 } }) ∧
  (∀ (s : State) (b : Nat) (old new : Word), Form s → (s.capUp = true ∨ s.cstate = 4) → s.cap.jobs = [.entry 4 b 0 old new (some (0x22, 0))] →
      s.cap.stage ≠ 0 → 0 < s.cap.next →
    ∃ t, exec .norOperationComplete s = .next t ∧ t.cap.jobs = [] ∧ t.cap.bootBank = b ∧ t.cap.committed = s.cap.committed + 1 ∧
      slotCommitted (tget erasedSlot t.cap.log (s.cap.next - 1)) = true ∧ t.cap.reply.drop 4 = (0 : Byte) :: leBytes (crc16 [0xA2, 1, 0, 0]) 2 ∧
      Kept s t [cgwState] ∧ t = { s with regs := t.regs, cap := t.cap })

/-- Measuring. A level on an encoder's pin counts once it has stood for 80 ns, and then moves the position by one; a profile is stamped,
as its last packet comes, with its belt's positions and the tick, and one of no channel changes nothing; a window
opens at the latest profile of a belt that measures, with the parameters in force, and its closing adds one record to the ring; the
gateway forwards the records in order and publishes tick and time base as a pair each millisecond; the seal takes a new state after ten
equal samples and logs it; a reset loses what the NOR does not hold, and a boot finds it again. When the Capsule's own samples fall is the
model's reading (log 14). -/
def Obligations.CapsuleMeasures : Prop :=
  (∀ (s : State) (n : Nat) (a b : Bool), n < 16 → s.cstate ≠ 0 → twf none s.cap.pins = true →
    ∃ t, exec (.capsuleEncoderTransition n a b) s = .next t ∧ t = { s with cap := { s.cap with pins := t.cap.pins } } ∧
      tget none t.cap.pins (2 * n) = (if a = s.cap.level n 0 then none
        else (tget none s.cap.pins (2 * n)).orElse fun _ => some (a, s.cap.ns)) ∧
      tget none t.cap.pins (2 * n + 1) = (if b = s.cap.level n 1 then none
        else (tget none s.cap.pins (2 * n + 1)).orElse fun _ => some (b, s.cap.ns)) ∧
      ∀ k, k ≠ 2 * n → k ≠ 2 * n + 1 → tget none t.cap.pins k = tget none s.cap.pins k) ∧
  (∀ (s : State) (n i since : Nat) (v a b : Bool), Quiet s → s.cstate ≠ 0 → n < 16 → i < 2 → s.cap.pins = [(2 * n + i, some (v, since))] →
      a = (s.cap.level n 0 != decide (i = 0)) → b = (s.cap.level n 1 != decide (i = 1)) →
    ∃ t, step s = .next t ∧ t.cap.ns = s.cap.ns + 1 ∧
      (since + 80 ≤ s.cap.ns + 1 → t.cap.pins = [] ∧ t.cap.lv = tput 0 s.cap.lv n (boolNat a + 2 * boolNat b) ∧
        t.cap.enc = tput 0 s.cap.enc n (if (quadPlace (s.cap.level n 0) (s.cap.level n 1) + 1) % 4 = quadPlace a b
          then tget 0 s.cap.enc n + 1 else tget 0 s.cap.enc n - 1)) ∧
      (s.cap.ns + 1 < since + 80 → t.cap = { s.cap with ns := s.cap.ns + 1 })) ∧
  (∀ (s : State) (port k head l : Nat) (f : GvspFrame) (fmt points lines : Nat) (c : CapBlock) (g : GvBlock), port < 2 → s.capUp = true →
      s.capChan port f = some k → head = 8 * port + k → twf none s.cap.blocks = true →
      tget none s.cap.blocks head = some c → c.gv.block = f.block → c.gv.image = true →
      c.gv.size ≠ 0 → c.points ≠ 0 → f.part = 1 → c.gv.next = l → l < c.lines → (f.packet - 1) * c.gv.size < (l + 1) * (2 * c.points) →
      (l + 1) * (2 * c.points) ≤ f.packet * c.gv.size → f.packet * c.gv.size < (l + 2) * (2 * c.points) → g = GvBlock.take (some c.gv) f →
    ∃ t, exec (.profilePacket ⟨port, f⟩ ⟨fmt, points, lines⟩) s = .next t ∧
      t.cap.prof = tput {} s.cap.prof (head / 2) { pos := tget 0 s.cap.enc (2 * (head / 2)), check := tget 0 s.cap.enc (2 * (head / 2) + 1),
                                                   tick := s.cap.ns / 40, lost := (g.line 0 (2 * c.points) l).2 } ∧
      t.cap.wins = (match tget none s.cap.wins (head / 2) with
        | some w => tput none s.cap.wins (head / 2) (some { w with loss := w.loss || (tget {} s.cap.prof (head / 2)).lost })
        | none => s.cap.wins) ∧ t = { s with cap := t.cap }) ∧
  (∀ (s : State) (port : Nat) (f : GvspFrame) (fmt points lines : Nat), s.capChan port f = none →
    exec (.profilePacket ⟨port, f⟩ ⟨fmt, points, lines⟩) s = .next s) ∧
  (∀ (s : State) (b : Nat) (x : Prof), b < 8 → s.cstate = 3 → s.flag cgwState (4 + b) = true →
      tget none s.cap.wins b = none → tget {} s.cap.prof b = x →
    exec (.parcelWindowOpen b) s = .next { s with cap := { s.cap with
      wins := tput none s.cap.wins b (some { start := x.pos, check := x.check, tick := x.tick, params := s.cap.params,
                                             ctr := s.cap.ctr, unsealed := !s.pinSealed, loss := false }) } }) ∧
  (∀ (s u : State) (b : Nat) (w : CapWin) (f : ParcelFacts), Form s → b < 8 → s.capUp = true → tget none s.cap.wins b = some w →
      (∀ p < 64, s.pstate p ≠ 4) → u = f.work.foldl State.capWork s →
    ∃ t, exec (.parcelWindowClose b f) s = .next t ∧ t.rd 0x00700010 = s.rd 0x00700010 + 1 ∧
      t.cap = { u.cap with
        wins := tput none s.cap.wins b none
        ring := tput 0 s.cap.ring ((s.rd 0x00700010 + 1).toNat % 4096) (u.bump.capRecord w b (s.rd 0x00700010 + 1).toNat f)
        ends := tput none s.cap.ends b (some (tget {} s.cap.prof b).pos)
        path := t.cap.path } ∧
      (t.cstate = 2 ∨ t.cstate = 3) ∧ t.rf cgwState 3 29 = s.rf cgwState 3 29 ∧ Kept s t [0x00700010, cgwState] ∧
      t = { s with regs := t.regs, cap := t.cap, free := s.free + 1 }) ∧
  (∀ s : State, Form s → s.flag 0x00700030 0 = true → s.answers 8 = true → (s.rd 0x00700010 + 1 - s.rd 0x00700034).toNat ≠ 0 →
      (s.rd 0x00700010 + 1 - s.rd 0x00700034).toNat ≤ 4096 → s.ringOk 2 (s.rf 0x00700030 1 6) = true →
      s.ringRoom 2 (s.rf 0x00700030 1 6) = true → s.stageRoom = true →
    ∃ t, exec .recordForward s = .next t ∧ t.rd 0x00700034 = s.rd 0x00700034 + 1 ∧ Kept s t [0x00700034] ∧
      t = { s with regs := t.regs, host := { s.host with recs := s.host.recs ++
        [{ ring := s.rf 0x00700030 1 6, data := tget 0 s.cap.ring ((s.rd 0x00700034).toNat % 4096) }] } }) ∧
  (∀ s : State, Form s → s.cstate ≠ 0 → s.cap.mapAt + 1000000 ≤ s.cap.ns → s.answers 8 = true →
    ∃ t, exec .timeMapSample s = .next t ∧ t.rdWide 0x00700020 2 = s.cap.ns / 40 % 2 ^ 64 ∧ t.rdWide 0x00700028 2 = s.time % 2 ^ 64 ∧
      Kept s t [0x00700020, 0x00700024, 0x00700028, 0x0070002C] ∧
      t = { s with regs := t.regs, cap := { s.cap with mapAt := s.cap.ns } }) ∧
  (∀ (s : State) (high : Bool), (s.cstate = 2 ∨ s.cstate = 3 ∨ s.cstate = 4) → s.cap.sealAt + 1000000 ≤ s.cap.ns → s.pinSealed = !high →
    ∃ n, exec (.sealSample high) s = .next { s with cap := { s.cap with sealLast := high, sealRun := n, sealAt := s.cap.ns } }) ∧
  (∀ (s : State) (high : Bool), Form s → (s.cstate = 2 ∨ s.cstate = 3 ∨ s.cstate = 4) → s.cap.sealAt + 1000000 ≤ s.cap.ns →
      s.pinSealed = high → s.cap.sealLast = high → 9 ≤ s.cap.sealRun → (s.cap.jobs ≠ [] ∨ s.cap.next < 229376) →
    ∃ t, exec (.sealSample high) s = .next t ∧ t.pinSealed = !high ∧ t.cap.jobs = s.cap.jobs ++ [.entry (if high then 1 else 2) 0xFF 0 0 0 none] ∧
      t.cap.ctr = s.cap.ctr ∧ Kept s t [cgwState] ∧ t = { s with regs := t.regs, cap := t.cap }) ∧
  (∀ (s : State) (high : Bool), Form s → (s.cstate = 2 ∨ s.cstate = 3 ∨ s.cstate = 4) → s.cap.sealAt + 1000000 ≤ s.cap.ns →
      s.pinSealed = high → (s.cap.sealLast ≠ high ∨ s.cap.sealRun < 9) →
    ∃ t, exec (.sealSample high) s = .next t ∧ t.pinSealed = s.pinSealed ∧ t.cap.jobs = s.cap.jobs ∧ t = { s with cap := t.cap }) ∧
  (∀ s : State, Form s →
    ∃ t, exec .capsuleReset s = .next t ∧ t.cap = { log := s.cap.log, nor := s.cap.nor, copies := s.cap.copies, images := s.cap.images } ∧
      t.rd cgwState = 0 ∧ t.rd 0x00700010 = 0xFFFFFFFF ∧ t.phase 10 = 2 ∧ t.flag 0x00700008 0 = false ∧ t.rd 0x00700034 = 0 ∧
      Kept s t [cgwState, 0x00700010, 0x00700018, 0x0070001C, 0x00700008, 0x00700034, domReg 10] ∧ t = { s with regs := t.regs, cap := t.cap }) ∧
  (∀ (s : State) (high : Bool) (mem : Nat) (sfdp : Word) (i : CapImage), Form s → s.cstate = 0 → s.cap.log = [] → s.cap.jobs = [] →
      tget none s.cap.images 0 = some i → capsuleVerify (s.bankObj 0 i) = none → i.memNeed ≤ mem →
    ∃ t, exec (.capsuleBoot high mem sfdp) s = .next t ∧ t.cstate = 2 ∧ t.cap.ctr = 0 ∧ t.cap.boots = 1 ∧ t.cap.params = i.factory ∧
      t.cap.swid = swidOf (s.bankObj 0 i).digest ∧ t.cap.version = i.version ∧ t.pinSealed = (!high) ∧ t.phase 10 = 0 ∧
      t.cap.jobs = .entry 5 0xFF 0 0 sfdp none :: (if high then [] else [.entry 2 0xFF 0 0 0 none]) ∧
      Kept s t [cgwState, 0x00700010, 0x00700018, 0x0070001C, domReg 10, 0x1050, 0x1054, 0x1058] ∧ t = { s with regs := t.regs, cap := t.cap }) ∧
  (∀ (s : State) (high : Bool) (mem : Nat) (sfdp : Word), Form s → s.cstate = 0 → s.cap.log = [] → s.cap.jobs = [] →
      (∀ i, tget none s.cap.images 0 = some i → capsuleVerify (s.bankObj 0 i) ≠ none) →
    ∃ t, exec (.capsuleBoot high mem sfdp) s = .next t ∧ t.cstate = 4 ∧ t.cap.fault = 1 ∧
      ∃ r, t.cap.jobs = .entry 5 0xFF 0 0 sfdp none :: .entry 6 0 0 0 0 none :: r)

/-! ## Riham links and the joined system -/

namespace Sys2Proof.Claims

open Sys2Proof.Machine

/-- A port of the part, in a state of canonical form. -/
structure Linked (s : State) (p : Nat) : Prop where
  form : Form s
  ports : twf {} s.link.ports = true
  port : p < 8

/-- The link flit that a port numbers next (R313, R314). -/
def NextFlit (s : State) (p ltype chan : Nat) (f : Flit) (c : Option Control) : LinkFlit :=
  { lseq := s.txNext p, lack := s.rxExp p, ltype := ltype, chan := chan, flit := f, control := c }

/-- The port after a numbered flit has left: it stands on the wire and, until it is acknowledged, in the retry buffer (R314). -/
def Numbered (x : Port) (l : LinkFlit) : Port :=
  { x with retry := x.retry ++ [l], wire := x.wire ++ [linkWord l] }

/-- The idle flit that leaves where nothing else does: it too carries the number expected of the peer (R313). -/
def Idle (s : State) (p : Nat) : LinkWord := linkWord { lseq := 0, lack := s.rxExp p, ltype := 2, chan := 0, flit := noFlit, control := none }

/-- Unacknowledged flits as they leave again: with the number now expected of the peer, and of a link that is not UP no channel flit (R316,
R322). -/
def Again (s : State) (p : Nat) (ls : List LinkFlit) : List LinkWord :=
  (ls.filter fun l => s.lstat p == 3 || l.ltype != 0).map fun l => linkWord { l with lack := s.rxExp p }

/-- The go-backs that are kept once one to number n has been made: those less than 2 µs old count (R316). -/
def Backs (s : State) (p n : Nat) : List (Nat × Nat) := (n, s.time) :: (s.port p).back.filter fun b => decide (s.time < b.2 + 2000)

/-- A codeword arrives on a link that carries: it is not one of the alignment codewords (R312, log 15). -/
structure Word1 (s : State) (p : Nat) : Prop where
  linked : Linked s p
  carries : s.carries p = true
  data : (s.port p).cws % 4096 ≠ 4095
  retry : (s.port p).retry = []

/-- Only registers and ports of the links have changed, and of these only a list and one port. -/
def LinkFrame (s t : State) (p : Nat) (as : List Nat) : Prop :=
  Kept s t as ∧ (∀ q, q ≠ p → t.port q = s.port q) ∧ t = { s with regs := t.regs, link := { s.link with ports := t.link.ports } }

/-- The registers of the ports and of the joined system that a change of membership reaches, and the count of lost events. -/
def memberRegs : List Nat :=
  [0x00508000, 0x00508004, 0x0050800C, 0x00508018, 0x2004] ++ (List.range 8).flatMap fun q => [rihReg q 0, rihReg q 4, rihReg q 8, rihReg q 0x1C]

/-- Part o is lost to this part: no member, of no known heartbeat, and every link to it is held, or will be once it locks, with the
reason given (R325, R328). -/
def PeerGone (s t : State) (o reason : Nat) : Prop :=
  t.isLost o = true ∧ t.isMember o = false ∧ t.origin o = none ∧
    ∀ q < 8, (s.port q).met = true → s.peerId q = o →
      (t.port q).lostSince = true ∧ t.rf (rihReg q 0) 4 4 = reason ∧ (t.port q).retry = [] ∧ (∀ c < 32, 32 * q + c ∈ t.link.closed) ∧
      (s.carries q = true → t.lstat q = 4) ∧ (s.carries q = false → t.lstat q = s.lstat q ∧ (t.port q).pend = some reason)

end Sys2Proof.Claims

/-- A port trains: signal on all lanes takes it from DOWN to TRAIN, lock within 50 ms to ALIGNED, or back to UP where it retrained from UP,
with a first flit that carries its expected number, or to HELD where a part was lost meanwhile (log 15); no lock takes it to DOWN, whence it tries again after 10 ms; a lost lock takes it to
TRAIN. A link credit is added up to 16, and a credit object is read again at free 0. -/
def Obligations.PortsTrain : Prop :=
  (∀ (s : State) (p : Nat), Linked s p → s.inRun 7 = true → s.lstat p = 0 → (s.port p).signal = false →
    ∃ t, exec (.signalDetect p) s = .next t ∧ t.lstat p = 1 ∧ t.rf (rihReg p 0) 3 29 = s.rf (rihReg p 0) 3 29 ∧
      t.port p = { s.port p with signal := true, since := s.time } ∧ LinkFrame s t p [rihReg p 0, rihReg p 8]) ∧
  (∀ (s : State) (p : Nat), Linked s p → s.inRun 7 = true → s.lstat p = 1 → s.time ≤ (s.port p).since + 50000000 → s.clockGone 1 = false →
      ((s.port p).fromUp = false ∨ (s.port p).lostSince = true) → (s.port p).pend = none → (s.port p).want = false → s.gov.join = none →
    ∃ t, exec (.trainingLock p) s = .next t ∧ t.lstat p = 2 ∧ t.rf (rihReg p 0) 3 29 = s.rf (rihReg p 0) 3 29 ∧
      t.port p = { s.port p with fromUp := false } ∧ LinkFrame s t p [rihReg p 0, rihReg p 8]) ∧
  (∀ (s : State) (p : Nat), Linked s p → s.inRun 7 = true → s.lstat p = 1 → s.time ≤ (s.port p).since + 50000000 → s.clockGone 1 = false →
      ((s.port p).fromUp = false ∨ (s.port p).lostSince = true) → (s.port p).pend = none → (s.port p).want = true → (s.port p).ctl = [] →
      (s.port p).resume = false → (s.port p).retry.length < 512 → s.gov.join = none →
    ∃ t, exec (.trainingLock p) s = .next t ∧ t.lstat p = 2 ∧ t.txNext p = (s.txNext p + 1) % 4096 ∧
      t.port p = Numbered { s.port p with fromUp := false } (NextFlit s p 1 0 noFlit (some (.join (s.joinInfo p)))) ∧
      LinkFrame s t p [rihReg p 0, rihReg p 4, rihReg p 8]) ∧
  (∀ (s : State) (p r : Nat), Linked s p → s.inRun 7 = true → s.lstat p = 1 → s.time ≤ (s.port p).since + 50000000 → s.clockGone 1 = false →
      ((s.port p).fromUp = false ∨ (s.port p).lostSince = true) → (s.port p).pend = some r → r < 16 → s.gov.join = none →
    ∃ t, exec (.trainingLock p) s = .next t ∧ t.lstat p = 4 ∧ t.rf (rihReg p 0) 4 4 = r ∧ (t.port p).pend = none ∧
      LinkFrame s t p [rihReg p 0, rihReg p 8, rihReg p 0x1C]) ∧
  (∀ (s : State) (p : Nat), Linked s p → s.inRun 7 = true → s.lstat p = 1 → s.time ≤ (s.port p).since + 50000000 → s.clockGone 1 = false →
      (s.port p).fromUp = true → (s.port p).lostSince = false → (s.port p).ctl = [] → s.gov.join = none →
    ∃ t, exec (.trainingLock p) s = .next t ∧ t.lstat p = 3 ∧
      ((s.port p).retry.length < 512 → t.txNext p = (s.txNext p + 1) % 4096 ∧
        t.port p = Numbered { s.port p with fromUp := false, resume := true } (NextFlit s p 1 0 noFlit (some (.resume (s.rxExp p))))) ∧
      (512 ≤ (s.port p).retry.length →
        t.port p = { s.port p with fromUp := false, resume := true, ctl := [.resume (s.rxExp p)] }) ∧
      LinkFrame s t p [rihReg p 0, rihReg p 4, rihReg p 8]) ∧
  (∀ (s : State) (p : Nat), Linked s p → s.lstat p = 1 → (s.port p).since + 50000000 ≤ s.time →
    ∃ t, exec (.trainingTimeout p) s = .next t ∧ t.lstat p = 0 ∧ t.rf (rihReg p 0) 3 29 = s.rf (rihReg p 0) 3 29 ∧
      t.port p = { s.port p with since := s.time } ∧ LinkFrame s t p [rihReg p 0, rihReg p 8]) ∧
  (∀ (s : State) (p : Nat), Linked s p → s.inRun 7 = true → s.lstat p = 0 → (s.port p).signal = true →
      (s.port p).since + 10000000 ≤ s.time →
    ∃ t, exec (.trainRetry p) s = .next t ∧ t.lstat p = 1 ∧ t.rf (rihReg p 0) 3 29 = s.rf (rihReg p 0) 3 29 ∧
      t.port p = { s.port p with since := s.time } ∧ LinkFrame s t p [rihReg p 0, rihReg p 8]) ∧
  (∀ (s : State) (p : Nat), Linked s p → s.lstat p = 3 →
    ∃ t, exec (.lockLost p) s = .next t ∧ t.lstat p = 1 ∧ t.rf (rihReg p 0) 3 29 = s.rf (rihReg p 0) 3 29 ∧
      t.flag (rihReg p 0x1C) 3 = true ∧ t.port p = { s.port p with since := s.time, streak := 0, fromUp := true, wire := [], cws := 0 } ∧
      LinkFrame s t p [rihReg p 0, rihReg p 8, rihReg p 0x1C]) ∧
  (∀ (s : State) (p : Nat), Linked s p → (s.lstat p = 2 ∨ s.lstat p = 4) →
    ∃ t, exec (.lockLost p) s = .next t ∧ t.lstat p = 1 ∧ (t.port p).retry = (s.port p).retry ∧ (t.port p).since = s.time ∧
      (s.lstat p = 4 → (t.port p).lostSince = false) ∧ LinkFrame s t p [rihReg p 0, rihReg p 8]) ∧
  (∀ (s : State) (p c : Nat), Form s → p < 8 → c < 32 → s.carries p = true →
    ∃ t, exec (.linkCredit p c) s = .next t ∧ t.rf (chanReg (32 * p + c) 0x1C) 16 5 = min 16 (s.rf (chanReg (32 * p + c) 0x1C) 16 5 + 1) ∧
      t.rf (chanReg (32 * p + c) 0x1C) 0 16 = s.rf (chanReg (32 * p + c) 0x1C) 0 16 ∧
      Kept s t [chanReg (32 * p + c) 0x1C] ∧ t = { s with regs := t.regs }) ∧
  (∀ (s : State) (p c : Nat), p < 8 → c < 32 → s.flag (chanReg (32 * p + c) 4) 0 = true → s.chanFree (32 * p + c) = 0 →
      (tget 0 s.link.vAt (32 * p + c) = 0 ∨ tget 0 s.link.vAt (32 * p + c) + 63 ≤ s.ck) →
    exec (.creditObjectReread p c) s = .next { s with link := { s.link with
      v := tput 0 s.link.v (32 * p + c) (s.rd (syuVal (s.rf (chanReg (32 * p + c) 0x14) 0 16)))
      vAt := tput 0 s.link.vAt (32 * p + c) (s.ck + 1) } })

/-- Flits of a link. A codeword that cannot be corrected is lost and counted; a data flit with the expected number reaches its receive
half and advances the number, one ahead of it is answered with a NAK, one that is a repeat is counted; a NAK and 2 µs without an
acknowledgement send the unacknowledged flits again. The head of a transmit half leaves on a link credit or, of another epoch, is
dropped; the head of a receive half enters the mesh on the channel's flow and returns a credit. -/
def Obligations.LinkFlits : Prop :=
  (∀ (s : State) (p n m : Nat) (ws : List LinkWord), Linked s p → s.carries p = true → 16 < n + m →
    ∃ t, exec (.codewordReceive p n m ws) s = .next t ∧ t.flag (rihReg p 0x1C) 0 = true ∧
      t.rd (rihReg p 0x18) = BitVec.ofNat 32 (min 0xFFFFFFFF ((s.rd (rihReg p 0x18)).toNat + 1)) ∧
      t.port p = { s.port p with wire := [Idle s p], cws := (s.port p).cws + 1 } ∧
      LinkFrame s t p [rihReg p 8, rihReg p 0x18, rihReg p 0x1C]) ∧
  (∀ (s : State) (p n m : Nat) (w : LinkWord) (l : LinkFlit), Word1 s p → s.lstat p = 3 → n + m ≤ 16 → linkFlitOf w = l → l.flit.hdrErr ≠ 2 →
      l.flit.par = 0 → l.ltype = 0 → l.lseq = s.rxExp p → s.flag (chanReg (32 * p + l.chan) 4) 0 = true →
      32 * p + l.chan ∉ s.link.closed → (tget [] s.link.rx (32 * p + l.chan)).length < 16 →
    ∃ t, exec (.codewordReceive p n m [w]) s = .next t ∧ t.rxExp p = (s.rxExp p + 1) % 4096 ∧
      t.port p = { s.port p with wire := [Idle t p], cws := (s.port p).cws + 1 } ∧
      t.link.rx = tput [] s.link.rx (32 * p + l.chan) (tget [] s.link.rx (32 * p + l.chan) ++ [{ l.flit with entered := s.ck }]) ∧
      Kept s t [rihReg p 4, rihReg p 8, rihReg p 0x14, reg (linkStop p) 0xF414] ∧
      t = { s with regs := t.regs, link := { s.link with ports := t.link.ports, rx := t.link.rx } }) ∧
  (∀ (s : State) (p n m e : Nat) (w : LinkWord) (l : LinkFlit), Word1 s p → n + m ≤ 16 → linkFlitOf w = l → l.flit.hdrErr ≠ 2 → l.flit.par = 0 →
      l.ltype = 1 → l.control = some (.resume e) → l.lseq = s.rxExp p → (s.port p).ctl = [] →
    ∃ t, exec (.codewordReceive p n m [w]) s = .next t ∧ t.rxExp p = (s.rxExp p + 1) % 4096 ∧
      t.port p = { s.port p with wire := [Idle t p], cws := (s.port p).cws + 1, resume := false } ∧
      LinkFrame s t p [rihReg p 4, rihReg p 8, rihReg p 0x14, reg (linkStop p) 0xF414]) ∧
  (∀ (s : State) (p n m : Nat) (w : LinkWord) (l : LinkFlit), Word1 s p → n + m ≤ 16 → linkFlitOf w = l → l.flit.hdrErr ≠ 2 → l.flit.par = 0 →
      l.ltype ≤ 1 → (l.ltype = 0 ∨ (s.port p).resume = false) → 0 < (l.lseq + 4096 - s.rxExp p) % 4096 → (l.lseq + 4096 - s.rxExp p) % 4096 < 2048 →
      (s.port p).nak = none →
    ∃ t, exec (.codewordReceive p n m [w]) s = .next t ∧ t.rxExp p = s.rxExp p ∧
      t.rf (rihReg p 0x10) 16 16 = min 65535 (s.rf (rihReg p 0x10) 16 16 + 1) ∧
      t.port p = { s.port p with
        nak := some (s.rxExp p, s.time)
        wire := [linkWord { lseq := s.rxExp p, lack := s.rxExp p, ltype := 3, chan := 0, flit := noFlit, control := none }]
        cws := (s.port p).cws + 1 } ∧
      LinkFrame s t p [rihReg p 8, rihReg p 0xC, rihReg p 0x10, rihReg p 0x14, reg (linkStop p) 0xF414]) ∧
  (∀ (s : State) (p n m : Nat) (w : LinkWord) (l : LinkFlit), Word1 s p → n + m ≤ 16 → linkFlitOf w = l → l.flit.hdrErr ≠ 2 → l.flit.par = 0 →
      l.ltype ≤ 1 → (l.ltype = 0 ∨ (s.port p).resume = false) → 2048 ≤ (l.lseq + 4096 - s.rxExp p) % 4096 →
    ∃ t, exec (.codewordReceive p n m [w]) s = .next t ∧ t.rxExp p = s.rxExp p ∧
      t.rf (rihReg p 0x10) 0 16 = min 65535 (s.rf (rihReg p 0x10) 0 16 + 1) ∧
      t.port p = { s.port p with wire := [Idle s p], cws := (s.port p).cws + 1 } ∧
      LinkFrame s t p [rihReg p 8, rihReg p 0x10, rihReg p 0x14, reg (linkStop p) 0xF414]) ∧
  (∀ (s : State) (p n i : Nat) (l : LinkFlit), Linked s p → s.carries p = true → s.unackAt p n = some i → (s.port p).retry[i]? = some l →
      (∀ b ∈ (s.port p).back, b.1 = n → b.2 + 2000 ≤ s.time) → (s.port p).streak < 15 →
    ∃ t, exec (.nak p n) s = .next t ∧ t.port p = { s.port p with back := Backs s p l.lseq, streak := (s.port p).streak + 1
                                                                  wire := Again s p ((s.port p).retry.drop i) } ∧
      t.rf (rihReg p 0xC) 0 16 = min 65535 (s.rf (rihReg p 0xC) 0 16 + 1) ∧ LinkFrame s t p [rihReg p 8, rihReg p 0xC]) ∧
  (∀ (s : State) (p n : Nat), Linked s p → s.carries p = true → s.unackAt p n = none →
    ∃ t, exec (.nak p n) s = .next t ∧ t.flag (rihReg p 0x1C) 2 = true ∧ t.port p = { s.port p with wire := [] } ∧
      LinkFrame s t p [rihReg p 8, rihReg p 0x1C]) ∧
  (∀ (s : State) (p : Nat) (l : LinkFlit) (r : List LinkFlit), Linked s p → s.carries p = true → (s.port p).retry = l :: r →
      max (s.port p).advance ((s.port p).back.head?.elim 0 (·.2)) + 2000 ≤ s.time → (s.port p).streak < 15 →
    ∃ t, exec (.goBackTimeout p) s = .next t ∧ t.port p = { s.port p with back := Backs s p l.lseq, streak := (s.port p).streak + 1
                                                                          wire := Again s p (l :: r) } ∧
      t.rf (rihReg p 0xC) 0 16 = min 65535 (s.rf (rihReg p 0xC) 0 16 + 1) ∧ LinkFrame s t p [rihReg p 8, rihReg p 0xC]) ∧
  (∀ (s : State) (p : Nat), Linked s p → s.lstat p = 3 → (s.port p).retry ≠ [] →
      max (s.port p).advance ((s.port p).back.head?.elim 0 (·.2)) + 2000 ≤ s.time → 15 ≤ (s.port p).streak →
    ∃ t, exec (.goBackTimeout p) s = .next t ∧ t.lstat p = 1 ∧ (t.port p).retry = (s.port p).retry ∧ (t.port p).fromUp = true ∧
      (t.port p).streak = 0 ∧ LinkFrame s t p [rihReg p 0, rihReg p 8, rihReg p 0xC, rihReg p 0x1C]) ∧
  (∀ (s : State) (p c k : Nat) (f : Flit) (rest : List Flit), Linked s p → c < 32 → k = 32 * p + c → s.flag (chanReg k 0) 0 = true →
      tget [] s.txq k = f :: rest → f.epoch = s.pipeEpoch (s.rf (chanReg k 0) 2 6) → s.lstat p = 3 → k ∉ s.link.closed →
      (s.port p).retry.length < 512 → (s.port p).resume = false → s.rf (chanReg k 0x1C) 16 5 ≠ 0 →
    ∃ t, exec (.channelTransmit p c) s = .next t ∧ t.rf (chanReg k 0x1C) 16 5 = s.rf (chanReg k 0x1C) 16 5 - 1 ∧
      t.txNext p = (s.txNext p + 1) % 4096 ∧ t.port p = Numbered { s.port p with wire := [] } (NextFlit s p 0 c f none) ∧
      Sends s t (if s.flag (chanReg k 0) 1 then [opFlit (.signal (s.rf (chanReg k 0) 16 16) 1 (linkStop p))] else []) ∧
      Kept s t [rihReg p 4, rihReg p 8, chanReg k 0x1C] ∧
      t = { s with regs := t.regs, mesh := t.mesh, link := { s.link with ports := t.link.ports }, txq := tput [] s.txq k rest }) ∧
  (∀ (s : State) (p c k : Nat) (f : Flit) (rest : List Flit), Form s → p < 8 → c < 32 → k = 32 * p + c → s.flag (chanReg k 0) 0 = true →
      tget [] s.txq k = f :: rest → f.epoch ≠ s.pipeEpoch (s.rf (chanReg k 0) 2 6) →
    ∃ t, exec (.channelTransmit p c) s = .next t ∧ t.flag (rihReg p 0x1C) 4 = true ∧ Kept s t [rihReg p 0x1C] ∧
      Sends s t (if s.flag (chanReg k 0) 1 then [opFlit (.signal (s.rf (chanReg k 0) 16 16) 1 (linkStop p))] else []) ∧
      t = { s with regs := t.regs, mesh := t.mesh, txq := tput [] s.txq k rest }) ∧
  (∀ (s : State) (p c k l : Nat) (f g : Flit) (rest : List Flit), Linked s p → c < 32 → k = 32 * p + c → s.carries p = true →
      (s.port p).ctl = [] → (s.port p).resume = false → (s.port p).retry.length < 512 → tget [] s.link.rx k = f :: rest →
      f.entered < s.ck → tget 0 s.link.gone k ≠ s.ck + 1 → s.flag (chanReg k 4) 0 = true → s.chanFree k ≠ 0 →
      (if s.ck % 64 < 32 then s.flag (chanReg k 0xC) (s.ck % 64) else s.flag (chanReg k 0x10) (s.ck % 64 - 32)) = true →
      g = { f with dst := s.rf (chanReg k 4) 7 9, src := linkStop p, rsv := true, vc := false, typ := 0, dstQ := s.rf (chanReg k 4) 16 6
                   epoch := s.pipeEpoch (s.rf (chanReg k 4) 1 6), flow := s.rf (chanReg k 8) 0 13, hdrErr := 0, par := 0
                   entered := s.ck } →
      g.dst ≤ 447 → g.dst ≠ linkStop p → l = linkTo (linkStop p) g.dst → s.flag (trcReg (dieOf (linkStop p)) 0) 0 = false →
      (∀ x ∈ s.mesh.flying, ¬ (x.stop = linkStop p ∧ x.link = l ∧ x.enter = s.ck)) →
    ∃ t, exec (.channelReceiveDepart p c) s = .next t ∧ t.rd (chanReg k 0x18) = s.rd (chanReg k 0x18) + 1 ∧
      t.port p = Numbered { s.port p with wire := [] } (NextFlit s p 1 0 noFlit (some (.credit c))) ∧
      t.mesh = { s.mesh with flying := s.mesh.flying ++ [{ flit := g, stop := linkStop p, link := l, enter := s.ck }]
                             uns := s.mesh.uns.map (UFlit.bump (linkStop p) l s.ck) } ∧
      Kept s t [rihReg p 4, rihReg p 8, chanReg k 0x18] ∧
      t = { s with regs := t.regs, mesh := t.mesh
                   link := { s.link with ports := t.link.ports, rx := tput [] s.link.rx k rest
                                         gone := tput 0 s.link.gone k (s.ck + 1) } })

/-- The joined system. JOIN without an UP link keeps its digest and marks the named ports, and a leave takes every link to HELD; an
exchange that passes its checks takes the link to UP and clears the peer's loss, one that fails to HELD with the reason of the first
failed check; a leave notice and a missing heartbeat end a membership; a heartbeat received in time makes its origin a member, and this
part's own is sent once for each 100 µs. The sign and rounding of a time offset and the rate of steering are the model's reading (log 15). -/
def Obligations.JoinedSystem : Prop :=
  (∀ (s : State) (k : Nat) (c : Cmd) (p : Nat), Linked s p → Begins s k 8 c → s.inRun 7 = true → s.gov.join = none → c.arg 0x30 9 1 = 0 →
      s.upPorts = [] → c.arg 0x30 p 1 = 1 →
    ∃ t, exec (.join k) s = .next t ∧ t.rdWide 0x00508020 8 = c.digest.toNat ∧ (t.port p).want = true ∧ t.link.left = false ∧
      t.host = { s.host with cmds := s.host.cmds.eraseIdx k } ∧
      t.gov = { s.gov with join := some (JoinRun.mk c ((List.range 8).filter fun q => c.arg 0x30 q 1 == 1) c.digest
        (c.arg 0x30 8 1 == 1) s.time) } ∧
      Kept s t ((List.range 8).map (fun i => 0x00508020 + 4 * i) ++ (List.range 8).flatMap fun q => [rihReg q 4, rihReg q 8]) ∧
      t = { s with regs := t.regs, host := t.host, gov := t.gov, link := t.link }) ∧
  (∀ (s : State) (k : Nat) (c : Cmd), Form s → Begins s k 8 c → s.gov.join = none → c.arg 0x30 9 1 = 0 → s.upPorts ≠ [] →
      (c.arg 0x30 0 8 = 0 ∨ s.inRun 7 = true) →
      c.digest.toNat ≠ s.rdWide 0x00508020 8 →
    ∃ t, exec (.join k) s = .next t ∧ Answered s t c 1 3 0 [] ∧ t = { s with host := t.host } ∧ t.host.cmds = s.host.cmds.eraseIdx k) ∧
  (∀ (s : State) (k : Nat) (c : Cmd), Form s → twf {} s.link.ports = true → Begins s k 8 c → s.gov.join = none → c.arg 0x30 9 1 = 1 →
      (c.arg 0x30 0 8 = 0 ∨ s.inRun 7 = true) →
    ∃ t, exec (.join k) s = .next t ∧ t.link.left = true ∧ (∀ q < 8, s.carries q = true → t.lstat q = 4 ∧ t.rf (rihReg q 0) 4 4 = 8) ∧
      (∀ q < 8, s.carries q = false → t.lstat q = s.lstat q ∧
        (s.lstat q = 1 ∨ (s.port q).met = true → (t.port q).pend = some 8 ∧ t.rf (rihReg q 0) 4 4 = 8)) ∧
      Answered s t c 0 0 0 t.joinResult ∧ Kept s t memberRegs ∧ t = { s with regs := t.regs, host := t.host, link := t.link }) ∧
  (∀ (s : State) (j : JoinRun), s.gov.join = some j → j.start + 200000000 ≤ s.time →
    ∃ t, exec .joinCommandTimeout s = .next t ∧ Answered s t j.cmd 0 0 0 s.joinResult ∧
      t = { s with host := t.host, gov := { s.gov with join := none } }) ∧
  (∀ (s : State) (p : Nat) (o : JoinInfo) (stamps : List (Int × Int × Int × Int)) (x : Int × Int × Int × Int) (off : Int), Linked s p →
      (s.lstat p = 2 ∨ s.lstat p = 4) → (s.port p).want = true → o.devId < 16 → stamps.length = 4 → stamps[3]? = some x →
      off = s.timeOffset p x → joinCheck (s.joinInfo p) o off = none → off.natAbs ≤ 1000 → (s.port p).ctl = [] → s.gov.join = none →
    ∃ t, exec (.joinExchange p o stamps) s = .next t ∧ t.lstat p = 3 ∧ t.peerId p = o.devId ∧ t.rf (rihReg p 0) 12 3 = o.port % 8 ∧
      t.rf (rihReg p 0) 4 4 = 0 ∧ t.isLost o.devId = false ∧ (∀ d < 16, t.isMember d = s.isMember d) ∧
      t.port p = { s.port p with want := false, serial := o.serial, met := true, lostSince := false } ∧
      t.rf 0x00508000 4 4 = s.leaderOf ∧ t.devId = s.devId ∧ t.link.closed = s.link.closed.filter (fun k => k / 32 != p) ∧
      t.rf (rihReg p 0x24) 0 16 = (BitVec.ofInt 16 (timeDelay x)).toNat ∧
      Kept s t [rihReg p 0, rihReg p 8, rihReg p 0x24, 0x00508000, 0x00508004, 0x0050800C] ∧
      t = { s with regs := t.regs, link := { s.link with ports := t.link.ports, closed := t.link.closed
                                                         seen := s.link.seen.filter fun e => e.1 / 16 != p } }) ∧
  (∀ (s : State) (p r : Nat) (o : JoinInfo) (stamps : List (Int × Int × Int × Int)) (x : Int × Int × Int × Int), Linked s p →
      (s.lstat p = 2 ∨ s.lstat p = 4) → (s.port p).want = true → o.devId < 16 → stamps.length = 4 → stamps[3]? = some x →
      joinCheck (s.joinInfo p) o (s.timeOffset p x) = some r → r < 7 → s.gov.join = none →
    ∃ t, exec (.joinExchange p o stamps) s = .next t ∧ t.lstat p = 4 ∧ t.rf (rihReg p 0) 4 4 = r ∧ t.peerId p = o.devId ∧
      t.port p = { s.port p with want := false, serial := o.serial, met := true, fromUp := false, pend := none, resume := false } ∧
      Kept s t [rihReg p 0, rihReg p 8, rihReg p 0x24] ∧ (∀ q, q ≠ p → t.port q = s.port q) ∧
      t = { s with regs := t.regs, link := { s.link with ports := t.link.ports, seen := s.link.seen.filter fun e => e.1 / 16 != p } }) ∧
  (∀ (s : State) (p o : Nat), s.isLost o = true ∨ o = s.devId → exec (.leaveNotice ⟨p, o⟩) s = .next s) ∧
  (∀ (s : State) (p o : Nat), Linked s p → s.carries p = true → o < 16 → o ≠ s.devId → s.isLost o = false → s.gov.join = none →
      s.loadedPipes = [] → twf none s.link.origins = true →
    ∃ t, exec (.leaveNotice ⟨p, o⟩) s = .next t ∧ PeerGone s t o 8 ∧
      (∀ q < 8, q ≠ p → s.lstat q = 3 → s.peerId q ≠ o → (s.port q).ctl = [] → (s.port q).resume = false → (s.port q).retry.length < 512 →
        t.port q = Numbered { s.port q with wire := [] } (NextFlit s q 1 0 noFlit (some (.leave o)))) ∧ Kept s t memberRegs ∧
      t = { s with regs := t.regs, host := t.host, link := t.link }) ∧
  (∀ (s : State) (d : Nat) (o : Origin), Form s → twf {} s.link.ports = true → twf none s.link.origins = true → s.origin d = some o →
      d < 16 → d ≠ s.devId → s.isLost d = false → o.due ≤ s.time → s.gov.join = none → s.loadedPipes = [] →
    ∃ t, exec (.peerLost d) s = .next t ∧ PeerGone s t d 7 ∧
      (∀ q < 8, s.peerId q ≠ d → t.lstat q = s.lstat q ∧ t.port q = s.port q) ∧ Kept s t memberRegs ∧
      t = { s with regs := t.regs, host := t.host, link := t.link }) ∧
  (∀ s : State, Form s → s.boot.started = true → BitVec.ofNat 32 (s.time / 100000) ≠ s.rd 0x00508010 → s.upPorts = [] →
    ∃ t, exec (.heartbeatSend none) s = .next t ∧ t.rd 0x00508010 = BitVec.ofNat 32 (s.time / 100000) ∧
      t.rf 0x00508000 4 4 = s.leaderOf ∧ Kept s t [0x00508000, 0x0050800C, 0x00508010] ∧ t = { s with regs := t.regs }) ∧
  (∀ (s : State) (p : Nat), Linked s p → s.boot.started = true → BitVec.ofNat 32 (s.time / 100000) ≠ s.rd 0x00508010 → s.upPorts = [p] →
      (s.port p).ctl = [] → (s.port p).resume = false → (s.port p).retry.length < 512 →
    ∃ t, exec (.heartbeatSend none) s = .next t ∧ t.rd 0x00508010 = BitVec.ofNat 32 (s.time / 100000) ∧
      t.port p = Numbered { s.port p with wire := [] } (NextFlit s p 1 0 noFlit
        (some (.heartbeat s.devId (Config.serial 0) (s.time / 100000) 0 (s.rf 0x0050800C 1 4)))) ∧
      LinkFrame s t p [0x00508000, 0x0050800C, 0x00508010, rihReg p 4, rihReg p 8]) ∧
  (∀ (s : State) (t1 t2 t3 t4 off : Int), Form s → s.boot.started = true → BitVec.ofNat 32 (s.time / 100000) ≠ s.rd 0x00508010 →
      s.upPorts = [] → s.leaderOf ≠ s.devId →
      off = (2 * ((t2 - t1) - (t4 - t3)) - (BitVec.ofNat 16 (s.rf (rihReg 0 0x20) 0 16)).toInt) / 4 →
    ∃ t, exec (.heartbeatSend (some (t1, t2, t3, t4))) s = .next t ∧ t.rd 0x00508008 = BitVec.ofInt 32 off ∧
      t.rf (rihReg 0 0x24) 0 16 = ((BitVec.ofInt 16 (((t2 - t1) + (t4 - t3)) / 2)).toNat) ∧ t.link.slew = off ∧ t.time = s.time) ∧
  (∀ (s : State) (t1 t2 t3 t4 : Int), Form s → s.boot.started = true → BitVec.ofNat 32 (s.time / 100000) ≠ s.rd 0x00508010 →
      s.upPorts = [] → s.leaderOf = s.devId → s.flag 0x0000000C 0 = true →
    ∃ t, exec (.heartbeatSend (some (t1, t2, t3, t4))) s = .next t ∧ t.link.slew = ((t2 - t1) - (t4 - t3)) / 2 ∧ t.time = s.time ∧
      Kept s t [0x00508000, 0x0050800C, 0x00508010]) ∧
  (∀ (s : State) (p d : Nat) (ser : W64) (hb hops par : Nat), Form s → s.upPorts = [p] → d < 16 → d ≠ s.devId → s.isLost d = false →
      (∀ o, s.origin d = some o → o.hb < hb ∧ s.time < hb * 100000 + 30000 + 2000 * o.hops) →
    ∃ t, exec (.heartbeatReceive p d ser hb hops par) s = .next t ∧ t.isMember d = true ∧ t.rf 0x00508000 4 4 = t.leaderOf ∧
      Kept s t [0x00508000, 0x00508004, 0x0050800C] ∧
      t = { s with regs := t.regs, link := { s.link with
        seen := tput (0, 0) s.link.seen (16 * p + d) (hops + 1, hb)
        origins := tput none s.link.origins d (some (Origin.mk ser hb hops p par)) } })

/-! ## Power, wakes, operating points, clocks -/

namespace Sys2Proof.Claims

open Sys2Proof.Machine

/-- A domain that the power controller moves (R424, R425): 1 to 9. -/
structure Dom (s : State) (d : Nat) : Prop where
  form : Form s
  low : 1 ≤ d
  high : d ≤ 9

/-- What the save area of a domain may hold (R424): registers of the domain with saved fields, each once. -/
structure SaveArea (s : State) (d : Nat) : Prop where
  form : twf [] s.pwr.saved = true
  once : ((tget [] s.pwr.saved d).map (·.1)).Nodup
  ours : ∀ e ∈ tget [] s.pwr.saved d, losesReg d e.1 = true ∧ savedReg e.1 = true

/-- The registers in which a change of a stack's domain shows the progress of HBM training (R418). -/
def trainRegs (d : Nat) : List Nat := if d = 3 ∨ d = 4 then [0x1030, 0x1034, 0x1038] else []

/-- Only registers of a list, the power controller's own state and, by a vector, host memory have changed. -/
def PowerFrame (s t : State) (as : List Nat) : Prop :=
  Kept s t as ∧ t = { s with regs := t.regs, pwr := t.pwr, hostMem := t.hostMem }

/-- A register that counts, up to its top. -/
def Counted (s t : State) (a lo n : Nat) : Prop := t.rf a lo n = min (2 ^ n - 1) (s.rf a lo n + 1)

/-- What an enabled wake source does (R436, R437): the votes of its client for its domains and their parents, its flag, its code as the
latest wake, and the count of wakes; a part whose D_HOST is stopped behind a link in L2 drives WAKE_L. -/
def Fired (s t : State) (src client : Nat) : Prop :=
  t.flag 0x00200440 src = true ∧ t.rf 0x00200440 8 3 = src ∧ Counted s t 0x00200448 0 32 ∧
    (∀ d < 10, s.rf (0x00200400 + 4 * src) 0 11 / 2 ^ d % 2 = 1 → ∀ e ∈ d :: domAncestors d, t.flag (domReg e + 4) client = true) ∧
    (s.phase 8 = 2 → s.pwr.l2 = true → t.pwr.wakeL = true) ∧ PowerFrame s t ([0x00200440, 0x00200448, 0x0010F010] ++ domRegs)

/-- The part is at an operating point, with no change under way; the regulator's global rate, which the governor sets to a value of its own
(log 10), is not above `fetch_cap` (R441, R125). -/
def AtPoint (s t : State) (point : Nat) : Prop :=
  t.rf 0x00200600 0 2 = point ∧ t.rf 0x00200600 2 2 = point ∧ t.flag 0x00200600 4 = false ∧ t.rd 0x0020060C = s.rd 0x0020060C + 1 ∧
    t.rf 0x0300F008 0 13 ≤ s.tunable 1 * 4000 / ckMesh point ∧
    Kept s t [0x00200600, 0x0020060C, 0x0300F000, 0x0300F004, 0x0300F008, 0x2004] ∧
    t = { s with regs := t.regs, host := t.host, free := s.free + 1 }

end Sys2Proof.Claims

/-- Entry, exit and failure of a domain. A domain in Run that is not wanted begins entry when nothing refuses, and counts one refusal with
the lowest code otherwise; it goes through the steps of entry one by one, fills its save area in step 2, latches its pads in step 3 and loses its contents in step 6; a
wake reached in a step ends the entry at that step's abort point; a stack that leaves Run has no frame-store write under way (R12, R295); a quiesce that does not drain is given up. A domain in Stop that is
called for leaves it when its parents run and it has its clock, and is in Run, with what its save area held, when the exit completes. A failed supply takes it to FAULT, which the host ends.
That D_CAP counts as in Run while the Capsule is on is the model's reading (log 16). -/
def Obligations.DomainsStopAndExit : Prop :=
  (∀ (s : State) (d : Nat), Dom s d → s.phase d = 0 → s.wantedNow d = false → d ∉ s.pwr.stuck → s.refusers d = [] →
    ∃ t, exec (.domainEntry d) s = .next t ∧ t.phase d = 1 ∧ t.step6 d = 1 ∧ t.rf (domReg d) 6 26 = s.rf (domReg d) 6 26 ∧
      t.pwr = { s.pwr with counted := s.pwr.counted.filter (fun x => x != d), woken := s.pwr.woken.filter (fun x => x != d)
                           entryAt := tput 0 s.pwr.entryAt d s.time } ∧
      (d ≠ 3 → d ≠ 4 → PowerFrame s t [domReg d]) ∧
      (d = 3 ∨ d = 4 → twf {} s.ingest.cams = true → ∀ c, ∀ w ∈ (t.cam c).writes, stackOf w.addr ≠ d - 3)) ∧
  (∀ (s : State) (d r : Nat) (rs : List Nat), Dom s d → s.phase d = 0 → s.wantedNow d = false → d ∉ s.pwr.stuck → d ∉ s.pwr.counted →
      s.refusers d = r :: rs →
    ∃ t, exec (.domainEntry d) s = .next t ∧ t.phase d = 0 ∧ Counted s t (domReg d + 0x14) 0 16 ∧ t.rf (domReg d + 0x18) 0 3 = r ∧
      t.pwr = { s.pwr with counted := d :: s.pwr.counted } ∧ PowerFrame s t [domReg d + 0x14, domReg d + 0x18, 0x0010F010]) ∧
  (∀ (s : State) (d : Nat), Dom s d → s.phase d = 1 → s.step6 d = 1 → s.quiet d = true → d ∉ s.pwr.woken →
    ∃ t, exec (.quiesceDrained d) s = .next t ∧ t.phase d = 1 ∧ t.step6 d = 2 ∧ Kept s t [domReg d] ∧ t = { s with regs := t.regs }) ∧
  (∀ (s : State) (d : Nat), Dom s d → s.phase d = 1 → s.step6 d = 1 → s.quiet d = true → d ∈ s.pwr.woken → tget [] s.pwr.held d = [] →
    ∃ t, exec (.quiesceDrained d) s = .next t ∧ t.phase d = 0 ∧ Counted s t (domReg d + 0x14) 16 16 ∧ t.rf (domReg d + 0x18) 4 3 = 1 ∧
      d ∉ t.pwr.woken ∧ PowerFrame s t ([domReg d + 0x14, domReg d + 0x18, 0x0010F010] ++ domRegs)) ∧
  (∀ (s : State) (d : Nat), Dom s d → s.phase d = 1 → s.step6 d = 1 → s.quiet d = false → tget 0 s.pwr.entryAt d + 100000 ≤ s.time →
      tget [] s.pwr.held d = [] →
    ∃ t, exec (.quiesceTimeout d) s = .next t ∧ t.phase d = 0 ∧ Counted s t (domReg d + 0x14) 16 16 ∧ t.rf (domReg d + 0x18) 4 3 = 1 ∧
      t.flag (domReg d + 0x1C) 1 = true ∧ t.pwr.stuck = d :: s.pwr.stuck ∧
      PowerFrame s t ([domReg d + 0x14, domReg d + 0x18, domReg d + 0x1C, 0x0010F010] ++ domRegs)) ∧
  (∀ (s : State) (d : Nat), Dom s d → s.phase d = 1 → s.step6 d = 2 → d ∉ s.pwr.woken →
    ∃ t, exec (.entryStepComplete d) s = .next t ∧ t.phase d = 1 ∧ t.step6 d = 3 ∧ Kept s t [domReg d] ∧
      (∀ e ∈ s.saveArea d, e ∈ s.regs ∧ addrDomain e.1 = d ∧ savedReg e.1 = true) ∧
      (∀ e ∈ s.regs, addrDomain e.1 = d → savedReg e.1 = true → e ∈ s.saveArea d) ∧
      t = { s with regs := t.regs, pwr := { s.pwr with saved := tput [] s.pwr.saved d (s.saveArea d) } }) ∧
  (∀ (s : State) (d : Nat), Dom s d → s.phase d = 1 → (s.step6 d = 4 ∨ s.step6 d = 5) → d ∉ s.pwr.woken →
    ∃ t, exec (.entryStepComplete d) s = .next t ∧ t.phase d = 1 ∧ t.step6 d = s.step6 d + 1 ∧ Kept s t [domReg d] ∧
      t = { s with regs := t.regs }) ∧
  (∀ (s : State) (d : Nat), Dom s d → s.phase d = 1 → s.step6 d = 3 → d ∉ s.pwr.woken →
    ∃ t, exec (.entryStepComplete d) s = .next t ∧ t.phase d = 1 ∧ t.step6 d = 4 ∧ t.flag (domReg d) 7 = true ∧
      (d ≠ 9 → t.rhz = s.rhz) ∧ (d = 9 → s.flag (domReg 9) 7 = false → t.rhz = { s.rhz with pads := (List.range 96).map s.pinDrive }) ∧
      Kept s t [domReg d] ∧ t = { s with regs := t.regs, rhz := t.rhz }) ∧
  (∀ (s : State) (d : Nat), Dom s d → s.phase d = 1 → 2 ≤ s.step6 d → s.step6 d ≤ 5 → d ∈ s.pwr.woken → d ≠ 9 → tget [] s.pwr.held d = [] →
    ∃ t, exec (.entryStepComplete d) s = .next t ∧ t.phase d = 0 ∧ Counted s t (domReg d + 0x14) 16 16 ∧
      t.rf (domReg d + 0x18) 4 3 = s.step6 d ∧ (3 ≤ s.step6 d → t.flag (domReg d) 7 = false) ∧ d ∉ t.pwr.woken ∧
      PowerFrame s t ([domReg d + 0x14, domReg d + 0x18, 0x0010F010] ++ domRegs)) ∧
  (∀ (s : State) (d : Nat), Dom s d → s.phase d = 1 → s.step6 d = 6 → s.loadedPipes = [] →
    ∃ t, exec (.entryStepComplete d) s = .next t ∧ t.phase d = 2 ∧ Counted s t (domReg d + 0xC) 0 32 ∧
      t.pwr.stopAt = tput 0 s.pwr.stopAt d s.time ∧ (∀ e ≤ 10, e ≠ d → t.phase e = s.phase e) ∧
      (d = 3 → ∀ a, tget 0 t.hbm.bytes a = if a < 0x600000000 then 0 else tget 0 s.hbm.bytes a) ∧
      ((d = 1 ∨ d = 2) → ∀ n, t.sch n = if stopDomain n = d then {} else s.sch n) ∧ (d ≠ 3 → d ≠ 4 → t.hbm = s.hbm) ∧
      (d ≠ 1 → d ≠ 2 → t.sched = s.sched ∧ t.at_ = s.at_ ∧ t.mt = s.mt ∧ t.sft = s.sft)) ∧
  (∀ (s : State) (d : Nat), Dom s d → s.phase d = 2 → s.called d = true → s.parentsRun d = true → s.clockGone 3 = false →
    ∃ t, exec (.domainExit d) s = .next t ∧ t.phase d = 3 ∧
      t.pwr = { s.pwr with stopNs := tput 0 s.pwr.stopNs d (tget 0 s.pwr.stopNs d + (s.time - tget 0 s.pwr.stopAt d))
                           stopAt := tput 0 s.pwr.stopAt d 0 } ∧ PowerFrame s t (trainRegs d ++ domRegs)) ∧
  (∀ (s : State) (d : Nat), s.phase d = 2 → s.clockGone 3 = true → exec (.domainExit d) s = .next s) ∧
  (∀ (s : State) (d : Nat), Dom s d → SaveArea s d → s.phase d = 3 → d ≠ 8 → (d = 9 → s.boot.defRhz = none) → tget [] s.pwr.held d = [] →
    ∃ t, exec (.exitComplete d) s = .next t ∧ t.phase d = 0 ∧ Counted s t (domReg d + 0x10) 0 32 ∧
      (∀ e ∈ tget [] s.pwr.saved d, t.rd e.1 = restoredReg e) ∧ tget [] t.pwr.saved d = [] ∧
      (d = 3 ∨ d = 4 → t.rd 0x1030 = BitVec.ofNat 32 (32 * (boolNat (t.inRun 3) + boolNat (t.inRun 4)))) ∧
      (s.phase 8 = 0 → s.flag (0x0010E000 + 16 * 132 + 12) 0 = true → t.flag 0x0010F010 4 = true) ∧
      PowerFrame s t ([domReg d + 0x10, 0x0010F010] ++ trainRegs d ++ (tget [] s.pwr.saved d).map (·.1) ++ domRegs)) ∧
  (∀ s : State, Form s → SaveArea s 8 → s.phase 8 = 3 → tget [] s.pwr.held 8 = [] →
    ∃ t, exec (.exitComplete 8) s = .next t ∧ t.phase 8 = 0 ∧ Counted s t (domReg 8 + 0x10) 0 32 ∧ t.pwr.wakeL = false ∧
      t.pwr.vector = false ∧ t.pwr.l2 = false ∧ (∀ e ∈ tget [] s.pwr.saved 8, t.rd e.1 = restoredReg e) ∧ tget [] t.pwr.saved 8 = [] ∧
      (t.flag (0x0010E000 + 16 * 132 + 12) 0 = true → t.flag 0x0010F010 4 = true) ∧
      (t.flag (0x0010E000 + 16 * 133 + 12) 0 = true → s.pwr.vector = true → t.flag 0x0010F010 5 = true) ∧
      PowerFrame s t ([domReg 8 + 0x10, 0x0010F010] ++ (tget [] s.pwr.saved 8).map (·.1) ++ domRegs)) ∧
  (∀ (s : State) (d : Nat), Dom s d → (s.phase d = 0 ∨ s.phase d = 1) → s.loadedPipes = [] → s.flag 0x00330104 0 = false →
    ∃ t, exec (.supplyFailure d) s = .next t ∧ t.phase d = 4 ∧ t.flag (domReg d) 7 = true ∧ t.flag (domReg d + 0x1C) 0 = true ∧
      Counted s t (domReg d + 0x1C) 16 16 ∧ t.pwr.stopAt = tput 0 s.pwr.stopAt d s.time ∧ d ∉ t.pwr.woken ∧
      (∀ e ≤ 10, e ≠ d → t.phase e = s.phase e) ∧ t.rd (domReg d + 0xC) = s.rd (domReg d + 0xC) ∧
      t.rd (domReg d + 0x14) = s.rd (domReg d + 0x14) ∧
      (d = 3 ∨ d = 4 → twf {} s.ingest.cams = true → ∀ c, ∀ w ∈ (t.cam c).writes, stackOf w.addr ≠ d - 3)) ∧
  (∀ (s : State) (d : Nat), Dom s d → s.regThere (domReg d + 0x1C) = true → s.answers (addrDomain (domReg d + 0x1C)) = true →
      s.phase d = 4 → s.wantedNow d = true → s.parentsRun d = true → s.clockGone 3 = false →
    ∃ t, exec (.faultClear d) s = .next t ∧ t.flag (domReg d + 0x1C) 0 = false ∧ t.phase d = 3 ∧
      PowerFrame s t ((domReg d + 0x1C) :: trainRegs d ++ domRegs)) ∧
  (∀ (s : State) (d : Nat), Dom s d → s.regThere (domReg d + 0x1C) = true → s.answers (addrDomain (domReg d + 0x1C)) = true →
      (s.phase d ≠ 4 ∨ s.wantedNow d = false) →
    ∃ t, exec (.faultClear d) s = .next t ∧ t.flag (domReg d + 0x1C) 0 = false ∧ Kept s t [domReg d + 0x1C] ∧ t = { s with regs := t.regs }) ∧
  (∀ (s : State) (d : Nat), Dom s d → s.regThere (domReg d + 8) = true → s.answers (addrDomain (domReg d + 8)) = true →
      s.flag (domReg d) 7 = true →
    ∃ t, exec (.padRelease d) s = .next t ∧ t.flag (domReg d) 7 = false ∧ t.phase d = s.phase d ∧
      t.rhz = (if d = 9 then { s.rhz with pads := [] } else s.rhz) ∧ Kept s t [domReg d] ∧ t = { s with regs := t.regs, rhz := t.rhz }) ∧
  (∀ (s : State) (d : Nat), Dom s d → s.regThere (domReg d + 8) = true → s.answers (addrDomain (domReg d + 8)) = true →
      s.flag (domReg d) 7 = false → exec (.padRelease d) s = .next s)

/-- Wakes. A write to the wake port sets or withdraws its votes, a read answers the domains in Run; an edge on a sensed pin, signal on a
link of a stopped D_LNK, the Capsule and the PCI Express link fire their sources; a source that is not enabled does nothing. -/
def Obligations.WakeSources : Prop :=
  (∀ (s : State) (a : Nat) (b0 b1 : Byte), Form s → s.pinsHeld = false → s.flag 0x00200444 7 = true → a = s.rf 0x00200444 0 7 →
      128 ≤ b1.toNat → s.flag 0x00200400 31 = true →
    ∃ t, exec (.wakePortWrite a [b0, b1]) s = .next t ∧ Fired s t 0 5 ∧
      ∀ d < 10, (b0.toNat + b1.toNat % 8 * 256) / 2 ^ d % 2 = 1 → t.flag (domReg d + 4) 5 = true) ∧
  (∀ (s : State) (a : Nat) (b0 b1 : Byte), Form s → s.pinsHeld = false → s.flag 0x00200444 7 = true → a = s.rf 0x00200444 0 7 →
      b1.toNat < 128 →
    ∃ t, exec (.wakePortWrite a [b0, b1]) s = .next t ∧
      (∀ d < 10, t.flag (domReg d + 4) 5 = if (b0.toNat + b1.toNat % 8 * 256) / 2 ^ d % 2 = 1 then false else s.flag (domReg d + 4) 5) ∧
      PowerFrame s t domRegs) ∧
  (∀ (s : State) (a : Nat) (bs : List Byte), (s.flag 0x00200444 7 = false ∨ a ≠ s.rf 0x00200444 0 7) →
    exec (.wakePortWrite a bs) s = .next s) ∧
  (∀ s : State, s.pinsHeld = false → s.flag 0x00200444 7 = true →
    exec (.wakePortRead (s.rf 0x00200444 0 7)) s = .next { s with out := leBytes s.runMask 2 }) ∧
  (∀ (s : State) (a : Nat), (s.flag 0x00200444 7 = false ∨ a ≠ s.rf 0x00200444 0 7) → exec (.wakePortRead a) s = .next { s with out := [] }) ∧
  (∀ (s : State) (pin k e : Nat) (rising : Bool), Form s → s.pinsHeld = false → k < 4 → s.rf (0x00200420 + 4 * k) 0 7 = pin →
      e = s.rf (0x00200420 + 4 * k) 7 2 → (e = 2 ∨ (e = 0 ∧ rising = true) ∨ (e = 1 ∧ rising = false)) → s.flag 0x00200404 31 = true →
    ∃ t, exec (.rhizoidWakePin pin rising) s = .next t ∧ Fired s t 1 3) ∧
  (∀ (s : State) (p : Nat), Form s → p < 8 → s.phase 7 = 2 → s.flag 0x00200408 31 = true →
    ∃ t, exec (.rihamWake p) s = .next t ∧ Fired s t 2 4) ∧
  (∀ s : State, Form s → s.flag 0x0020040C 31 = true → ∃ t, exec .capsuleWake s = .next t ∧ Fired s t 3 2) ∧
  (∀ s : State, s.flag 0x0020040C 31 = false → exec .capsuleWake s = .next s) ∧
  (∀ s : State, Form s → ∃ t, exec .capsuleWithdrawRequest s = .next t ∧ t.flag (domReg 8 + 4) 2 = false ∧
      (∀ i, i ≠ 2 → t.flag (domReg 8 + 4) i = s.flag (domReg 8 + 4) i) ∧ PowerFrame s t domRegs) ∧
  (∀ s : State, Form s → s.pwr.wakeL = false → s.pinsHeld = false → s.flag 0x00200410 31 = true →
    ∃ t, exec .pcieWake s = .next t ∧ Fired s t 4 0) ∧
  (∀ s : State, exec .pcieL2Entry s = .next { s with pwr := { s.pwr with l2 := true } })

/-- Operating points, clocks and thermal trips. A lower point is taken at once, a higher one after both rails confirm, and given up after
1 ms; an island takes a frequency that its pipelines' minima allow, and where they
do not the part moves to the next lower point (which one is the model's choice, log 17). A lost clock is flagged and counted, and takes down what runs on it:
Riham ports, CoaXPress links, or, for the system clock, every domain; a trip takes its site's domain to FAULT. A request for a point above
`op_cap` changes nothing (log 2). -/
def Obligations.PointsClocksAndTrips : Prop :=
  (∀ (s : State) (p : Nat), Form s → s.boot.started = true → p ≤ 3 → p ≤ s.tunable 4 → s.flag 0x00200600 4 = false → p < s.rf 0x00200600 0 2 →
    ∃ t, exec (.operatingPointChange p) s = .next t ∧ AtPoint s t p) ∧
  (∀ (s : State) (p : Nat), Form s → s.boot.started = true → p ≤ 3 → p ≤ s.tunable 4 → s.flag 0x00200600 4 = false → s.rf 0x00200600 0 2 < p →
    ∃ t, exec (.operatingPointChange p) s = .next t ∧ t.rf 0x00200600 0 2 = s.rf 0x00200600 0 2 ∧ t.rf 0x00200600 2 2 = p ∧
      t.flag 0x00200600 4 = true ∧ Kept s t [0x00200600] ∧
      t = { s with regs := t.regs, pwr := { s.pwr with opPrev := s.rf 0x00200600 0 2, opStart := s.time } }) ∧
  (∀ (s : State) (p : Nat), s.tunable 4 < p → exec (.operatingPointChange p) s = .next s) ∧
  (∀ s : State, Form s → s.flag 0x00200600 4 = true → s.pinsHeld = false →
    ∃ t, exec .vokConfirm s = .next t ∧ AtPoint s t (s.rf 0x00200600 2 2)) ∧
  (∀ s : State, Form s → s.flag 0x00200600 4 = true → s.pwr.opStart + 1000000 ≤ s.time → s.pwr.opPrev < 4 →
    ∃ t, exec .vokTimeout s = .next t ∧ t.flag 0x00200600 4 = false ∧ t.rf 0x00200600 2 2 = s.pwr.opPrev ∧
      t.rf 0x00200600 0 2 = s.rf 0x00200600 0 2 ∧ Counted s t 0x00200600 16 16 ∧ Kept s t [0x00200600, 0x2004] ∧
      t = { s with regs := t.regs, host := t.host }) ∧
  (∀ (s : State) (i m : Nat), s.boot.started = true → i < 448 → 1 ≤ m → m ≤ 16 → s.islandMin i ≤ m →
    ∃ t, exec (.throttle i m) s = .next t ∧ t.pwr = { s.pwr with islands := tput 16 s.pwr.islands i m } ∧ Kept s t [0x2004] ∧
      t = { s with regs := t.regs, pwr := t.pwr, host := t.host }) ∧
  (∀ (s : State) (i m c : Nat), Form s → s.boot.started = true → i < 448 → 1 ≤ m → m < s.islandMin i → m ≤ 16 → s.rf 0x00200600 0 2 = c + 1 →
      c ≤ s.tunable 4 → s.flag 0x00200600 4 = false →
    ∃ t, exec (.throttle i m) s = .next t ∧ AtPoint s t c) ∧
  (∀ (s : State) (i m : Nat), m < s.islandMin i → s.rf 0x00200600 0 2 = 0 → exec (.throttle i m) s = .next s) ∧
  (∀ (s : State) (c : Nat), s.clockGone c = true → exec (.clockLost c) s = .next s) ∧
  (∀ (s : State) (c : Nat), Form s → (c = 0 ∨ c = 4) → s.clockGone c = false →
    ∃ t, exec (.clockLost c) s = .next t ∧ t.flag 0x00200800 (8 + c) = true ∧ t.flag 0x00200800 c = false ∧ Counted s t 0x00200804 0 32 ∧
      Kept s t [0x00200800, 0x00200804] ∧ t = { s with regs := t.regs, pwr := { s.pwr with gone := c :: s.pwr.gone } }) ∧
  (∀ s : State, Form s → twf {} s.link.ports = true → s.clockGone 1 = false →
    ∃ t, exec (.clockLost 1) s = .next t ∧ t.flag 0x00200800 9 = true ∧ t.flag 0x00200800 1 = false ∧ Counted s t 0x00200804 0 32 ∧
      (∀ p < 8, t.lstat p = if s.carries p = true then 1 else s.lstat p) ∧ (∀ p < 8, (t.port p).retry = (s.port p).retry) ∧
      t = { s with regs := t.regs, link := { s.link with ports := t.link.ports }, pwr := { s.pwr with gone := 1 :: s.pwr.gone } }) ∧
  (∀ s : State, Form s → s.answers 5 = true → s.clockGone 2 = false →
    ∃ t, exec (.clockLost 2) s = .next t ∧ t.flag 0x00200800 10 = true ∧ t.flag 0x00200800 2 = false ∧ Counted s t 0x00200804 0 32 ∧
      t.clockGone 2 = true ∧ ∀ l < 16, t.flag (lnkReg l 0) 0 = false) ∧
  (∀ s : State, Form s → s.loadedPipes = [] → s.flag 0x00330104 0 = false → s.clockGone 3 = false →
    ∃ t, exec (.clockLost 3) s = .next t ∧ t.flag 0x00200800 11 = true ∧ t.flag 0x00200800 3 = false ∧ t.flag 0x00200800 16 = true ∧
      Counted s t 0x00200804 0 32 ∧ (∀ d, 1 ≤ d → d ≤ 9 → t.phase d = if s.phase d = 0 ∨ s.phase d = 1 then 4 else s.phase d) ∧
      t.phase 0 = s.phase 0 ∧ t.phase 10 = s.phase 10 ∧ t.flag 0x0050800C 0 = true ∧ t.clockGone 3 = true) ∧
  (∀ (s : State) (c : Nat), Form s → c ≤ 4 →
    ∃ t, exec (.clockReturn c) s = .next t ∧ t.flag 0x00200800 c = true ∧ (c = 3 → t.flag 0x00200800 16 = false) ∧
      (∀ i, i ≠ c → i ≠ 16 → t.flag 0x00200800 i = s.flag 0x00200800 i) ∧ Kept s t [0x00200800] ∧
      t = { s with regs := t.regs, pwr := { s.pwr with gone := s.pwr.gone.filter (fun x => x != c) } }) ∧
  (∀ (s : State) (n : Nat), Form s → n < 4 → (s.phase (1 + n) = 0 ∨ s.phase (1 + n) = 1) → s.loadedPipes = [] → s.flag 0x00330104 0 = false →
    ∃ t, exec (.thermalTrip n) s = .next t ∧ t.flag 0x00200914 n = true ∧ t.flag 0x00200914 4 = true ∧ Counted s t 0x00200914 16 16 ∧
      t.phase (1 + n) = 4 ∧ (∀ e ≤ 10, e ≠ 1 + n → t.phase e = s.phase e)) ∧
  (∀ s : State, Form s → ∃ t, exec .thermalTripRelease s = .next t ∧ t.flag 0x00200914 4 = false ∧
      (∀ i, i ≠ 4 → t.flag 0x00200914 i = s.flag 0x00200914 i) ∧ Kept s t [0x00200914] ∧ t = { s with regs := t.regs })

/-! ## Reset, boot, staging, attestation, debug -/

namespace Sys2Proof.Claims

open Sys2Proof.Machine

/-- A write of a command register reaches its unit. -/
structure Reaches (s : State) (a : Nat) : Prop where
  form : Form s
  reg : s.regThere a = true
  dom : s.answers (addrDomain a) = true

/-- Staging begins (R456): the type, the object and what is wrong with it: its length, then what a check of its type finds. -/
def Staged (s t : State) (stype : Nat) (o : SignedObj) (err : Option Nat) (rhz : Option RhzDesign) (body : Option OwnerBody) : Prop :=
  t.rf 0x0030010C 0 2 = stype ∧ t.flag 0x00300110 0 = true ∧ Kept s t [0x0030010C, 0x00300110] ∧
    t = { s with
      regs := t.regs
      boot := { s.boot with
        stageObj := some (stype, o), stageRhz := rhz, stageOwner := body
        stageErr := if (s.rd 0x00300108).toNat = o.objLen then err.getD 0 else 1 } }

/-- Staging ends with a code (R456), and nothing is under way. -/
def StageEnds (s t : State) (code : Nat) : Prop :=
  t.rf 0x00300110 4 4 = code ∧ t.flag 0x00300110 0 = false ∧ t.boot.stageObj = none ∧ t.boot.stageErr = 0 ∧ t.boot.bank0 = s.boot.bank0 ∧
    t.boot.started = s.boot.started

end Sys2Proof.Claims

/-- Reset of D_AON, the firmware's start-up and staging. A reset takes the device id from the straps, keeps the Capsule, the boot flash
and host memory, and loses everything else; domains of a rail outside its range are in FAULT after it, and what staging was writing may not be committed; the ROM boots the bank that verifies, or stays in RECOVERY without one. Staging holds the
object with the first check that it fails, and at its end a good object stands in the bank that was not booted, as the default fabric
image, or in an owner slot that takes force. The contents of memories after a reset are the model's choice (log 5), and the order of the
boot steps is its reading (log 13). -/
def Obligations.ResetBootAndStaging : Prop :=
  (∀ (s : State) (straps : Nat), Form s → straps < 16 →
    ∃ t, exec (.aonReset straps) s = .next t ∧ t.devId = straps ∧ t.rf 0x00508000 4 4 = straps ∧
      t.rf 0x00508004 0 16 = 2 ^ straps ∧ t.flag 0x00300000 4 = s.boot.helper ∧ t.dbg = { chal := s.dbg.chal + 1 } ∧
      t.rdWide 0x00330000 12 = (Config.challenge (s.dbg.chal + 1)).toNat ∧ t.rd 0x00200800 = 31 ∧ t.cap = s.cap ∧ t.hostMem = s.hostMem ∧
      t.pending = s.pending ∧ (∀ a, capsuleReg a = true → t.rd a = s.rd a) ∧
      (s.boot.stageObj = none → t.boot.bank0 = s.boot.bank0 ∧ t.boot.bank1 = s.boot.bank1 ∧ t.boot.defRhz = s.boot.defRhz) ∧
      (t.boot.bank0 = s.boot.bank0 ∨ t.boot.bank0 = none ∧ s.spareBank = 0 ∧ s.boot.stageObj.map (·.1) = some 1) ∧
      (t.boot.bank1 = s.boot.bank1 ∨ t.boot.bank1 = none ∧ s.spareBank ≠ 0 ∧ s.boot.stageObj.map (·.1) = some 1) ∧
      (t.boot.defRhz = s.boot.defRhz ∨ t.boot.defRhz = none ∧ s.boot.stageObj.map (·.1) = some 2) ∧
      t.boot.slots = s.boot.slots ∧ t.boot.started = false ∧ (∀ d < 10, t.phase d = 0) ∧ t.sched = [] ∧ t.hbm = {} ∧ t.host = {} ∧
      t.gov = {} ∧ t.link = {} ∧ t.mesh = {} ∧ t.sync = {} ∧ t.time = 0) ∧
  (∀ (s : State) (pins : Nat), Form s →
    ∃ t, exec (.aonReset pins) s = .next t ∧ t.devId = pins % 16 ∧
      ∀ d, 1 ≤ d → d ≤ 9 → t.phase d = (if pins / 16 / 2 ^ d % 2 = 1 then 4 else 0) ∧
        t.flag (domReg d + 0x1C) 0 = decide (pins / 16 / 2 ^ d % 2 = 1)) ∧
  (∀ (s : State) (straps : Nat), Form s → straps < 16 → s.boot.bank0 = none → s.boot.bank1 = none →
    ∃ t, exec (.aonReset straps) s = .next t ∧ t.rf 0x00300000 0 2 = 2) ∧
  (∀ (s : State) (straps : Nat) (b : FwBank), Form s → straps < 16 → s.boot.helper = false → s.boot.stageObj = none →
      s.boot.bank0 = some b → s.boot.bank1 = none →
      objVerify b.obj 1 true 0 = none → b.obj.keyHash = Config.vendorKey 0 → b.obj.sv < 2 ^ 32 →
    ∃ t, exec (.aonReset straps) s = .next t ∧ t.rf 0x00300000 0 2 = 1 ∧ t.flag 0x00300000 2 = false ∧ t.flag 0x00300000 3 = false ∧
      (t.rd 0x00300004).toNat = b.obj.sv ∧ t.rdWide 0x00300080 12 = b.obj.digest.toNat ∧ t.boot.fwRatchet = b.obj.ratchet) ∧
  (∀ (s : State) (straps : Nat), exec (.aonBrownout straps) s = exec (.aonReset straps) s) ∧
  (∀ s : State, Form s → s.rf 0x00300000 0 2 = 1 → s.boot.started = false → s.boot.fwRatchet = false → s.boot.defRhz = none →
      s.gov.pipes = [] →
    ∃ t, exec .firmwareStartupComplete s = .next t ∧ t.boot = { s.boot with started := true } ∧ t.flag (domReg 0 + 4) 1 = true ∧
      (∀ d, 1 ≤ d → d < 10 → t.flag (domReg d + 4) 1 = false) ∧ Kept s t domRegs ∧
      t = { s with regs := t.regs, pwr := t.pwr, boot := t.boot }) ∧
  (∀ (s : State) (o : SignedObj), Form s → s.flag 0x00300110 0 = false → s.serves 1 = true →
    ∃ t, exec (.stageFirmware o) s = .next t ∧ Staged s t 1 o (s.verify o 1) none none) ∧
  (∀ (s : State) (o : SignedObj) (d : RhzDesign), Form s → s.flag 0x00300110 0 = false → s.serves 2 = true →
    ∃ t, exec (.stageRhizoidImage o d) s = .next t ∧ Staged s t 2 o (s.verify o 2) (some d) none) ∧
  (∀ (s : State) (o : SignedObj) (b : OwnerBody), Form s → s.flag 0x00300110 0 = false → s.serves 3 = true →
    ∃ t, exec (.stageOwnerRecord o b) s = .next t ∧ Staged s t 3 o (s.ownerErr o b) none (some b)) ∧
  (∀ (s : State) (n : Nat) (o : SignedObj) (f u : Bool), Form s → s.boot.stageObj = some (n, o) → s.boot.stageErr ≠ 0 → s.boot.stageErr < 16 →
    ∃ t, exec (.stagingComplete f u) s = .next t ∧ StageEnds s t s.boot.stageErr ∧ t.boot.bank1 = s.boot.bank1 ∧
      t.boot.defRhz = s.boot.defRhz ∧ t.boot.slots = s.boot.slots ∧ Kept s t [0x00300110] ∧ t = { s with regs := t.regs, boot := t.boot }) ∧
  (∀ (s : State) (o : SignedObj) (f u : Bool), Form s → s.boot.stageObj = some (1, o) → s.boot.stageErr = 0 → s.rf 0x00300000 0 2 = 1 →
      s.flag 0x00300000 2 = false →
    ∃ t, exec (.stagingComplete f u) s = .next t ∧ StageEnds s t (if f = false then 4 else if u = false then 2 else 0) ∧
      t.boot.bank1 = (if f = true ∧ u = true then some { obj := o, gen := (s.boot.bank0.elim 0 (·.gen) + 1) % 2 ^ 32 } else none) ∧
      Kept s t [0x00300110] ∧ t = { s with regs := t.regs, boot := t.boot }) ∧
  (∀ (s : State) (o : SignedObj) (d : RhzDesign), Form s → s.boot.stageObj = some (2, o) → s.boot.stageErr = 0 → s.boot.stageRhz = some d →
    ∃ t, exec (.stagingComplete true true) s = .next t ∧ StageEnds s t 0 ∧ t.boot.defRhz = some (o, d) ∧ t.boot.bank1 = s.boot.bank1 ∧
      Kept s t [0x00300110] ∧ t = { s with regs := t.regs, boot := t.boot }) ∧
  (∀ (s : State) (o : SignedObj) (b : OwnerBody), Form s → s.boot.stageObj = some (3, o) → s.boot.stageErr = 0 →
      s.boot.stageOwner = some b → s.boot.slots = [] → b.ownerHash ≠ 0 → b.oseq < 2 ^ 32 →
    ∃ t, exec (.stagingComplete true true) s = .next t ∧ StageEnds s t 0 ∧ t.boot.owner = some 0 ∧ t.owned = true ∧
      t.ownerHash = b.ownerHash ∧ (t.rd 0x00300008).toNat = b.oseq ∧ t.boot.vendorMask = b.vendorMask ∧
      t.slot 0 = some { obj := o, body := b, gen := 1, minima := maxMinima b.minima s.minima
                        mac := Config.deviceMac o.digest (blockNats b.oseq 1 (maxMinima b.minima s.minima)) })

/-- Attestation and debug tokens. A report is begun with the state of that instant, waits up to 10 ms for a command of the gateway, and at its end stands whole with its signature, or the
device key is missing; a token is checked, enters debug mode with its permissions at the end of a check that it passes, and LOCK ends
debug mode, clears the hazard log and draws a new challenge. The bytes of signatures and challenges are free values (log 9); which fields
a report holds at which instant is the model's reading (log 13). -/
def Obligations.AttestationTokensAndLock : Prop :=
  (∀ s : State, Reaches s 0x00300240 → s.flag 0x00300244 0 = false → s.boot.started = true →
    ∃ t, exec .attestation s = .next t ∧ t.flag 0x00300244 0 = true ∧
      t.boot = { s.boot with attBody := (if s.flag 0x00300000 4 = true then some s.reportBody else none), attAt := s.time } ∧
      Kept s t [0x00300244] ∧ t = { s with regs := t.regs, boot := t.boot }) ∧
  (∀ s : State, Form s → s.flag 0x00300244 0 = true → s.boot.attBody = none →
    ∃ t, exec .attestationComplete s = .next t ∧ t.rd 0x00300244 = 2 ∧ Kept s t [0x00300244] ∧ t = { s with regs := t.regs }) ∧
  (∀ (s : State) (b body : List Byte), Form s → s.flag 0x00300244 0 = true → s.boot.attBody = some b → s.flag 0x00700008 0 = true →
      s.boot.attAt + 10000000 ≤ s.time → body = b.take 0x164 ++ leBytes 0 12 ++ [0xFF] ++ b.drop 0x171 →
    ∃ t, exec .attestationComplete s = .next t ∧ t.flag 0x00300244 0 = false ∧ t.boot.attBody = none ∧
      t.boot.report = body ++ padTo 16608 ((Config.reportSignature body).take 16608) ∧
      t.rf 0x00300244 16 16 = t.boot.report.length % 65536 ∧ Kept s t [0x00300244] ∧ t = { s with regs := t.regs, boot := t.boot }) ∧
  (∀ (s : State) (b : List Byte), s.boot.attBody = some b → s.flag 0x00700008 0 = true → s.time < s.boot.attAt + 10000000 →
    exec .attestationComplete s = .next s) ∧
  (∀ (s : State) (b body : List Byte), Form s → s.flag 0x00300244 0 = true → s.boot.attBody = some b → s.flag 0x00700008 0 = false →
      (s.cstate = 2 ∨ s.cstate = 3) → s.cap.ctr < 2 ^ 24 →
      body = b.take 0x164 ++ (leBytes s.cap.swid.toNat 4 ++ leBytes s.cap.version.toNat 4 ++
        leBytes (s.cap.ctr + boolNat s.pinSealed * 2 ^ 24 + s.cstate * 2 ^ 25) 4 ++ [0]) ++ b.drop 0x171 →
    ∃ t, exec .attestationComplete s = .next t ∧ t.flag 0x00300244 0 = false ∧ t.boot.attBody = none ∧ t.flag 0x00700008 0 = false ∧
      t.boot.report = body ++ padTo 16608 ((Config.reportSignature body).take 16608) ∧
      Kept s t ([0x00300244, 0x00700008, 0x0010F010] ++ (List.range 4).map fun i => 0x00700040 + 4 * i) ∧
      t = { s with regs := t.regs, boot := t.boot, cap := { s.cap with gw := none }, hostMem := t.hostMem }) ∧
  (∀ (s : State) (o : SignedObj) (b : TokenBody), Reaches s 0x0033004C → s.flag 0x00330050 0 = false → s.boot.started = true →
    ∃ t, exec (.tokenVerify o b) s = .next t ∧ t.flag 0x00330050 0 = true ∧ t.flag 0x00330050 4 = s.flag 0x00330050 4 ∧
      t.dbg = { s.dbg with tok := some (if s.flag 0x00330050 4 = true then 7
        else if (s.rd 0x00330048).toNat = o.objLen then s.tokenStatus o b else 1, b.perms % 4) } ∧
      Kept s t [0x00330050] ∧ t = { s with regs := t.regs, dbg := t.dbg }) ∧
  (∀ (s : State) (perms : Nat), Form s → s.dbg.tok = some (0, perms) → perms < 4 →
    ∃ t, exec .tokenVerifyComplete s = .next t ∧ t.flag 0x00330050 0 = false ∧ t.rf 0x00330050 1 3 = 0 ∧ t.flag 0x00330050 4 = true ∧
      t.rf 0x00330050 5 2 = perms ∧ t.flag 0x00300000 6 = true ∧ Kept s t [0x00330050, 0x00300000] ∧
      t = { s with regs := t.regs, dbg := { s.dbg with tok := none } }) ∧
  (∀ (s : State) (st perms : Nat), Form s → s.dbg.tok = some (st, perms) → 0 < st → st < 8 →
    ∃ t, exec .tokenVerifyComplete s = .next t ∧ t.flag 0x00330050 0 = false ∧ t.rf 0x00330050 1 3 = st ∧
      t.flag 0x00330050 4 = s.flag 0x00330050 4 ∧ Kept s t [0x00330050] ∧ t = { s with regs := t.regs, dbg := { s.dbg with tok := none } }) ∧
  (∀ s : State, Reaches s 0x0033004C → s.dbg.tok = none → s.flag 0x00330050 4 = true →
    ∃ t, exec .lock s = .next t ∧ t.flag 0x00330050 4 = false ∧ t.rf 0x00330050 5 2 = 0 ∧ t.flag 0x00300000 6 = false ∧
      t.rdWide 0x00330000 12 = (Config.challenge (s.dbg.chal + 1)).toNat ∧ (∀ a, hazardRegister a = true → t.rd a = regReset a) ∧
      (∀ a, hazardRegister a = false → a ∉ [0x00330050, 0x00300000] → a < 0x00330000 ∨ 0x00330030 ≤ a → t.rd a = s.rd a) ∧
      t = { s with regs := t.regs, dbg := { s.dbg with chal := s.dbg.chal + 1, hzOld := [] } }) ∧
  (∀ (s : State) (x : Nat × Nat), Reaches s 0x0033004C → s.dbg.tok = some x → s.flag 0x00330050 4 = false →
    ∃ t, exec .lock s = .next t ∧ t.flag 0x00330050 0 = false ∧ t.rf 0x00330050 1 3 = 6 ∧ Kept s t [0x00330050] ∧
      t = { s with regs := t.regs, dbg := { s.dbg with tok := none } })

/-- The self-test and the test access port. BIST refuses a mask outside the testable domains or a domain in use, and otherwise begins its
steps, each of which leaves its memory zero, counts, and at the last ends the test with its verdict. A TAP instruction is in force once
updated: IDCODE shifts out the part's code, EXTEST and CLAMP drive what the boundary register holds, HIGHZ nothing. What a step's failure
records for a line buffer is the model's reading (log 18). -/
def Obligations.SelfTestAndTap : Prop :=
  (∀ (s : State) (st : Nat), Reaches s 0x00330100 → s.flag 0x00330104 0 = false → s.boot.started = true →
      s.bistRefusal (s.rf 0x00330100 0 11) = some st →
    ∃ t, exec .bist s = .next t ∧ t.rf 0x00330104 1 3 = st ∧ t.flag 0x00330104 0 = false ∧ Kept s t [0x00330104] ∧ t = { s with regs := t.regs }) ∧
  (∀ s : State, Reaches s 0x00330100 → s.flag 0x00330104 0 = false → s.boot.started = true →
      s.bistRefusal (s.rf 0x00330100 0 11) = none → bistDoms (s.rf 0x00330100 0 11) ≠ [] →
    ∃ t, exec .bist s = .next t ∧ t.flag 0x00330104 0 = true ∧ (∀ d ∈ bistDoms (s.rf 0x00330100 0 11), t.flag (domReg d + 4) 0 = true) ∧
      t.dbg = { s.dbg with bist := (bistDoms (s.rf 0x00330100 0 11)).flatMap bistSteps, bistBad := false, mask := s.rf 0x00330100 0 11 } ∧
      t.rd 0x1020 = 0 ∧ Kept s t ([0x00330104, 0x1020, 0x1024, 0x1028] ++ domRegs) ∧
      t = { s with regs := t.regs, pwr := t.pwr, dbg := t.dbg }) ∧
  (∀ (s : State) (n : Nat) (rest : List BistStep), Form s → s.dbg.bist = .pc n :: rest → rest ≠ [] →
    ∃ t, exec (.bistStep false) s = .next t ∧ t.dbg = { s.dbg with bist := rest } ∧ (t.rd 0x1020) = s.rd 0x1020 + 1 ∧
      (∀ a, tget 0 t.hbm.bytes a = if pseudoOf a = n then 0 else tget 0 s.hbm.bytes a) ∧ Kept s t [0x1020, 0x1024, 0x1028] ∧
      t = { s with regs := t.regs, hbm := t.hbm, dbg := t.dbg }) ∧
  (∀ (s : State) (n : Nat) (rest : List BistStep), Form s → s.dbg.bist = .stop n :: rest → rest ≠ [] → n < 448 →
    ∃ t, exec (.bistStep false) s = .next t ∧ t.dbg = { s.dbg with bist := rest } ∧ t.atile n = {} ∧ t.mtile n = {} ∧ t.sftile n = {} ∧
      t.sch n = {} ∧ (∀ b < 4096, t.bundleAt n b = 0) ∧ (∀ m, m ≠ n → t.atile m = s.atile m ∧ t.mtile m = s.mtile m ∧ t.sch m = s.sch m) ∧
      t.hbm = s.hbm) ∧
  (∀ (s : State) (n : Nat), Form s → s.dbg.bist = [.line n] →
    ∃ t, exec (.bistStep false) s = .next t ∧ t.dbg = { s.dbg with bist := [], bistBad := false, mask := 0 } ∧ t.flag 0x00330104 0 = false ∧
      t.rf 0x00330104 1 3 = (if s.dbg.bistBad = true then 1 else 0) ∧ Kept s t [0x00330104, 0x1020, 0x1024, 0x1028] ∧
      t = { s with regs := t.regs, dbg := t.dbg }) ∧
  (∀ (s : State) (n : Nat) (rest : List BistStep), Form s → s.dbg.bist = .pc n :: rest → rest ≠ [] → s.rf 0x00330104 16 16 < 16 → n < 64 →
    ∃ t, exec (.bistStep true) s = .next t ∧ t.dbg = { s.dbg with bist := rest, bistBad := true, failedPc := n :: s.dbg.failedPc } ∧
      t.rf 0x00330104 16 16 = s.rf 0x00330104 16 16 + 1 ∧
      t.rd (0x00330140 + 4 * s.rf 0x00330104 16 16) = BitVec.ofNat 32 (512 + 1024 * n)) ∧
  (∀ (s : State) (bits : BitVec 325), (s.pinsHeld = false ∨ s.dbg.live = []) →
    exec (.extest bits) s = .next { s with dbg := { s.dbg with ir := 0, bnd := bits } }) ∧
  (∀ s : State, (s.pinsHeld = false ∨ s.dbg.live = []) →
    exec .idcode s = .next { s with dbg := { s.dbg with ir := 1 }, out := [0x5F, 0x8A, 0x64, 0x19] }) ∧
  (∀ (s : State) (pins : BitVec 325) (bits : Option (BitVec 325)), (s.pinsHeld = false ∨ s.dbg.live = []) →
    exec (.samplePreload pins bits) s = .next { s with dbg := { s.dbg with
      ir := 2, sample := (List.range 325).map (s.cell pins), bnd := bits.getD s.dbg.bnd } }) ∧
  (∀ (s : State) (c : Instr) (opc : Nat), (s.pinsHeld = false ∨ s.dbg.live = []) →
      (c, opc) ∈ [(Instr.highz, 4), (.clamp, 5), (.testLogicReset, 1)] →
    exec c s = .next { s with dbg := { s.dbg with ir := opc } }) ∧
  (∀ (s : State) (opc : Nat), (s.pinsHeld = false ∨ s.dbg.live = []) → opc < 256 → opc ∉ [0, 1, 2, 4, 5] →
    exec (.bypass opc) s = .next { s with dbg := { s.dbg with ir := opc } }) ∧
  (∀ (s : State) (n : Nat), Form s → s.pinsHeld = true → s.answers 9 = true → n < 96 → s.dbg.live = [(n, 2)] → s.lstate ≠ 4 →
      s.rhz.overlaps = [] →
    ∃ t, exec .testLogicReset s = .next t ∧ t.pinIn n = true ∧ t.dbg = { s.dbg with ir := 1, live := [] })

/-! ## Loads and configuration updates -/

namespace Sys2Proof.Claims

open Sys2Proof.Machine

/-- Blocks of 64 bytes of a command's object (R412). -/
def Blocks (c : Cmd) : Nat := (c.arg 0x18 0 32 + 63) / 64

/-- The state once the k-th fetched command has been taken. -/
def Taken (s : State) (k : Nat) : State := { s with host := { s.host with cmds := s.host.cmds.eraseIdx k } }

/-- The state on which the first pass of a load runs: the command taken, and its progress begun. -/
def FirstPass (s : State) (k : Nat) (c : Cmd) : State := (Taken s k).progress 0 0 (2 * Blocks c)

/-- A LOAD of a kind begins, of an image that uses no domain under test and waits for no domain (R431). -/
structure Loads (s : State) (k : Nat) (c : Cmd) (kind : Nat) (obj : SignedObj) (img : Tjl) : Prop where
  form : Form s
  begins : Begins s k 1 c
  kind : c.arg 0x1C 0 2 = kind
  host : c.arg 0x10 0 6 = 0
  free : (Taken s k).loadBlocked img = false
  run : (s.loadDomains c obj img).all s.inRun = true

/-- A pipeline is reloaded by force with its updated configuration: its frame epoch advances, its configuration epoch is the update's, and
the update is over (R256, R257). -/
def Forced (s t : State) (p : Nat) (u : Update) : Prop :=
  t.rf (epochReg p) 0 16 = (s.rf (epochReg p) 0 16 + 1) % 65536 ∧ t.rf (epochReg p) 16 8 = u.epoch ∧ t.flag (epochReg p) 28 = false ∧
    (t.pipeAt p).update = none ∧ t.time = s.time

end Sys2Proof.Claims

/-- LOAD and configuration updates. An image that passes every check makes its pipelines LOADED and completes OK with their mask and the
digest; the first check that fails refuses the command with its code and detail and loads nothing; a kind outside the table is BADARG. An
update arms every stage of its pipelines with a frame and a new epoch, is over once the source is armed, and is forced 250 µs after its
start, or where the source has begun the frame. A LOAD that it accepts waits for the image's domains, with HOST's vote set (R431). A load in one step and the details of refusals are readings of the model (log 23), and so is a timeout before its time that changes
nothing (log 2). -/
def Obligations.LoadsAndUpdates : Prop :=
  (∀ (s : State) (k : Nat) (c : Cmd) (obj : SignedObj) (img : Tjl) (fl : List (List Flip)), Loads s k c 0 obj img →
      (FirstPass s k c).loadCheck (c.arg 0x18 0 32) 0 (c.arg 0x1C 2 1 == 1) obj img = none → (FirstPass s k c).replaced img = [] →
      obj.ratchet = false → (∀ e ∈ img.pipes, e.id < 64) →
    ∃ (t u : State), exec (.load k obj img ⟨false, fl⟩) s = .next t ∧ t = u.complete c 0 0 0 (loadResult obj img) ∧
      (∀ e ∈ img.pipes, u.pstate e.id = 1 ∧ (u.pipeAt e.id).info ≠ none ∧
        u.rf (pipeReg e.id) 8 8 = img.profile % 256 ∧ u.rf (pipeReg e.id) 16 16 = obj.digest.toNat % 65536) ∧ u.rd 0x1000 = u.rd 0x1004 ∧
      t.pending = s.pending ∧ t.cap = s.cap ∧ t.boot = s.boot ∧ t.hostMem = s.hostMem) ∧
  (∀ (s : State) (k code detail : Nat) (c : Cmd) (obj : SignedObj) (img : Tjl) (ch : Bool) (fl : List (List Flip)), Loads s k c 0 obj img →
      (FirstPass s k c).loadCheck (c.arg 0x18 0 32) 0 (c.arg 0x1C 2 1 == 1) obj img = some (code, detail) →
    ∃ t, exec (.load k obj img ⟨ch, fl⟩) s = .next t ∧ Answered s t c 1 code detail [] ∧ t.host.cmds = s.host.cmds.eraseIdx k ∧
      Kept s t [0x1000, 0x1004, 0x1008] ∧ t = { s with regs := t.regs, host := t.host }) ∧
  (∀ (s : State) (k : Nat) (c : Cmd) (obj : SignedObj) (img : Tjl) (ch : Bool) (fl : List (List Flip)), Begins s k 1 c → c.arg 0x1C 0 2 = 3 →
    ∃ t, exec (.load k obj img ⟨ch, fl⟩) s = .next t ∧ Answered s t c 6 0 0 [] ∧ t.host.cmds = s.host.cmds.eraseIdx k ∧
      t = { s with host := t.host }) ∧
  (∀ (s : State) (k : Nat) (c : Cmd) (obj : SignedObj) (img : Tjl) (ch : Bool) (fl : List (List Flip)), Begins s k 1 c → c.arg 0x1C 0 2 = 0 → c.arg 0x10 0 6 = 0 →
      (Taken s k).loadBlocked img = true →
    ∃ t, exec (.load k obj img ⟨ch, fl⟩) s = .next t ∧ Answered s t c 7 0 0 [] ∧ t.host.cmds = s.host.cmds.eraseIdx k ∧
      t = { s with host := t.host }) ∧
  (∀ (s : State) (k : Nat) (c : Cmd) (obj : SignedObj) (img : Tjl) (ch : Bool) (fl : List (List Flip)), Form s → Begins s k 1 c →
      c.arg 0x1C 0 2 = 0 → (s.loadDomains c obj img).all s.inRun = false →
    ∃ t, exec (.load k obj img ⟨ch, fl⟩) s = .next t ∧ t.host = s.host ∧ t.gov = s.gov ∧
      (∀ d ∈ s.loadDomains c obj img, d < 10 → s.inRun d = false → t.flag (domReg d + 4) 0 = true) ∧ Kept s t domRegs) ∧
  (∀ (s : State) (k : Nat) (c : Cmd) (obj : SignedObj) (img : Tjl), Loads s k c 2 obj img → imgIds img ≠ [] → obj.ratchet = false →
      (∀ p ∈ imgIds img, p < 64 ∧ s.pstate p = 2 ∧ (s.pipeAt p).update = none) →
      (FirstPass s k c).updateCheck (c.arg 0x18 0 32) obj img = none →
    ∃ t, exec (.configurationUpdate k obj img) s = .next t ∧ t.host = { s.host with cmds := s.host.cmds.eraseIdx k } ∧
      ∀ p ∈ imgIds img, t.pstate p = 2 ∧ ∃ u, (t.pipeAt p).update = some u ∧ u.cmd = c ∧ u.start = s.time ∧ u.digest = obj.digest ∧
        u.epoch = (s.rf (epochReg p) 16 8 + 1) % 256 ∧ u.mask = maskOf (imgIds img)) ∧
  (∀ (s : State) (k code detail : Nat) (c : Cmd) (obj : SignedObj) (img : Tjl), Loads s k c 2 obj img → imgIds img ≠ [] →
      (∀ p ∈ imgIds img, s.pstate p = 2 ∧ (s.pipeAt p).update = none) →
      (FirstPass s k c).updateCheck (c.arg 0x18 0 32) obj img = some (code, detail) →
    ∃ t, exec (.configurationUpdate k obj img) s = .next t ∧ Answered s t c 1 code detail [] ∧ t.host.cmds = s.host.cmds.eraseIdx k ∧
      Kept s t [0x1000, 0x1004, 0x1008] ∧ t = { s with regs := t.regs, host := t.host }) ∧
  (∀ (s : State) (p f : Nat) (u : Update), Form s → p < 64 → (s.pipeAt p).update = some u → s.time < u.start + 250000 →
      s.sourceFrame p = some f → pastFrame f u.frame = false → u.frame < 16 →
      (∀ x ∈ s.gov.pipes, x.1 ≠ p → ∀ v, x.2.update = some v → v.cmd ≠ u.cmd) →
    ∃ t, exec (.updateArmed p) s = .next t ∧ t.rf (epochReg p) 24 4 = u.frame ∧ t.flag (epochReg p) 28 = true ∧
      t.rf (epochReg p) 0 24 = s.rf (epochReg p) 0 24 ∧ t.rf (pipeReg p) 16 16 = u.digest.toNat % 65536 ∧ (t.pipeAt p).update = none ∧
      Answered s t u.cmd 0 0 0 (leBytes u.mask 8 ++ leBytes u.digest.toNat 16) ∧ Kept s t [epochReg p, pipeReg p, 0x1000, 0x1004, 0x1008] ∧
      t = { s with regs := t.regs, host := t.host, gov := t.gov }) ∧
  (∀ (s : State) (p : Nat) (u : Update), Form s → p < 64 → (s.pipeAt p).update = some u → s.time < u.start + 250000 →
      s.sourceFrame p = none → u.epoch < 256 →
    ∃ t, exec (.updateArmed p) s = .next t ∧ t.rf (epochReg p) 16 8 = u.epoch ∧ t.rf (epochReg p) 0 16 = s.rf (epochReg p) 0 16 ∧
      (t.pipeAt p).update = none ∧ Kept s t [epochReg p, pipeReg p, 0x1000, 0x1004, 0x1008] ∧
      t = { s with regs := t.regs, host := t.host, gov := t.gov }) ∧
  (∀ (s : State) (p f : Nat) (u : Update), Form s → p < 64 → Placed s p → (s.pipeAt p).update = some u → u.epoch < 256 →
      (u.start + 250000 ≤ s.time ∨ (s.sourceFrame p = some f ∧ pastFrame f u.frame = true)) →
    ∃ t, exec (.updateArmed p) s = .next t ∧ Forced s t p u) ∧
  (∀ (s : State) (p : Nat) (u : Update), Form s → p < 64 → Placed s p → (s.pipeAt p).update = some u → u.start + 250000 ≤ s.time →
      u.epoch < 256 →
    ∃ t, exec (.updateArmTimeout p) s = .next t ∧ Forced s t p u) ∧
  (∀ (s : State) (p : Nat) (u : Update), (s.pipeAt p).update = some u → s.time < u.start + 250000 →
    exec (.updateArmTimeout p) s = .next s)
end

