-- ==== Sys2Proof/Laws/Tables.lean ====
section
/-! SUPPORT. Laws of the sparse tables: what a read gives after a write, and that every write keeps the canonical form. -/

namespace Sys2Proof.Laws

open Sys2Proof.Machine

variable {α : Type} [DecidableEq α]

/-- A looser lower bound on the keys. -/
theorem twfFrom_none {d : α} {lo : Option Nat} {t : Tbl α} (h : twfFrom d lo t = true) : twfFrom d none t = true := by
  cases t with
  | nil => rfl
  | cons x r => simp only [twfFrom, Option.all_none, Bool.true_and, Bool.and_eq_true] at h ⊢; exact ⟨h.1.2, h.2⟩

theorem twfFrom_lower {d : α} {b c : Nat} {t : Tbl α} (hbc : b ≤ c) (h : twfFrom d (some c) t = true) :
    twfFrom d (some b) t = true := by
  cases t with
  | nil => rfl
  | cons x r =>
    simp only [twfFrom, Option.all_some, Bool.and_eq_true, decide_eq_true_eq] at h ⊢
    exact ⟨⟨by omega, h.1.2⟩, h.2⟩

/-- A key below every listed key reads as an unlisted one. -/
theorem tget_below {d : α} {b k : Nat} {t : Tbl α} (hk : k ≤ b) (h : twfFrom d (some b) t = true) : tget d t k = d := by
  induction t generalizing b with
  | nil => rfl
  | cons x r ih =>
    obtain ⟨a, w⟩ := x
    simp only [twfFrom, Option.all_some, Bool.and_eq_true, decide_eq_true_eq] at h
    have hne : a ≠ k := by omega
    simp only [tget, hne, if_false]
    exact ih (by omega) h.2

theorem tput_wfFrom {d : α} {t : Tbl α} {k : Nat} {v : α} {lo : Option Nat} (hk : lo.all fun b => decide (b < k))
    (h : twfFrom d lo t = true) : twfFrom d lo (tput d t k v) = true := by
  induction t generalizing lo with
  | nil => by_cases hv : v = d <;> simp_all [tput, twfFrom]
  | cons x r ih =>
    obtain ⟨a, w⟩ := x
    simp only [twfFrom, Bool.and_eq_true, decide_eq_true_eq] at h
    obtain ⟨⟨h1, h2⟩, h3⟩ := h
    simp only [tput]
    split
    · split
      · simp [twfFrom, *]
      · simp [twfFrom, *]
    · split
      · subst k
        split
        · cases lo with
          | none => exact twfFrom_none h3
          | some b =>
            simp only [Option.all_some, decide_eq_true_eq] at h1
            exact twfFrom_lower (by omega) h3
        · simp [twfFrom, *]
      · simp only [twfFrom, Bool.and_eq_true, decide_eq_true_eq]
        exact ⟨⟨h1, h2⟩, ih (by simp only [Option.all_some, decide_eq_true_eq]; omega) h3⟩

/-- A write keeps the canonical form. -/
theorem tput_wf {d : α} {t : Tbl α} {k : Nat} {v : α} (h : twf d t = true) : twf d (tput d t k v) = true :=
  tput_wfFrom (by simp) h

theorem tget_tput_from {d : α} {t : Tbl α} {lo : Option Nat} (h : twfFrom d lo t = true) (k j : Nat) (v : α) :
    tget d (tput d t k v) j = if j = k then v else tget d t j := by
  induction t generalizing lo with
  | nil =>
    simp only [tput]
    split <;> by_cases hj : j = k <;> simp [tget, Ne.symm, *]
  | cons x r ih =>
    obtain ⟨a, w⟩ := x
    simp only [twfFrom, Bool.and_eq_true, decide_eq_true_eq] at h
    obtain ⟨⟨h1, h2⟩, h3⟩ := h
    simp only [tput]
    split
    · rename_i hlt
      have below : tget d r k = d := tget_below (by omega) h3
      have hne : a ≠ k := by omega
      split
      · by_cases hj : j = k
        · subst hj; simp [tget, *]
        · simp [hj]
      · by_cases hj : j = k
        · subst hj; simp [tget]
        · simp [tget, hj, Ne.symm hj]
    · split
      · rename_i heq
        subst heq
        have below : tget d r k = d := tget_below (by omega) h3
        split
        · by_cases hj : j = k
          · subst hj; simp [*]
          · simp [tget, hj, Ne.symm hj]
        · by_cases hj : j = k
          · subst hj; simp [tget]
          · simp [tget, hj, Ne.symm hj]
      · rename_i hne
        by_cases ha : a = j
        · subst ha
          simp [tget, Ne.symm hne]
        · simp only [tget, ha, if_false]
          exact ih h3

/-- A read after a write. -/
theorem tget_tput {d : α} {t : Tbl α} (h : twf d t = true) (k j : Nat) (v : α) :
    tget d (tput d t k v) j = if j = k then v else tget d t j :=
  tget_tput_from h k j v

@[simp] theorem tget_tput_same {d : α} {t : Tbl α} (h : twf d t = true) (k : Nat) (v : α) : tget d (tput d t k v) k = v := by
  simp [tget_tput h]

theorem tget_tput_other {d : α} {t : Tbl α} (h : twf d t = true) {k j : Nat} (v : α) (hj : j ≠ k) :
    tget d (tput d t k v) j = tget d t j := by
  simp [tget_tput h, hj]

/-- Writing bytes keeps the canonical form. -/
theorem putBytes_wf {t : Tbl Byte} {a : Nat} {bs : List Byte} (h : Memory.wf t = true) : Memory.wf (putBytes t a bs) = true := by
  induction bs generalizing t a with
  | nil => exact h
  | cons b bs ih => exact ih (tput_wf h)

/-- A read after a write of bytes: the byte written, or what stood there. -/
theorem tget_putBytes {t : Tbl Byte} (h : Memory.wf t = true) (a : Nat) (bs : List Byte) (j : Nat) :
    tget 0 (putBytes t a bs) j = if a ≤ j ∧ j < a + bs.length then bs.getD (j - a) 0 else tget 0 t j := by
  induction bs generalizing t a with
  | nil => simp [putBytes] <;> omega
  | cons b bs ih =>
    simp only [putBytes, List.length_cons]
    rw [ih (tput_wf h), tget_tput h]
    by_cases h1 : j = a
    · subst h1
      rw [if_neg (by omega), if_pos rfl, if_pos (by omega)]
      simp
    · by_cases h2 : a + 1 ≤ j ∧ j < a + 1 + bs.length
      · have : j - a = (j - (a + 1)) + 1 := by omega
        rw [if_pos h2, if_pos (by omega), this, List.getD_cons_succ]
      · rw [if_neg h2, if_neg h1, if_neg (by omega)]

theorem tputAll_wf {d : α} {t : Tbl α} {kvs : List (Nat × α)} (h : twf d t = true) : twf d (tputAll d t kvs) = true := by
  induction kvs generalizing t with
  | nil => exact h
  | cons x r ih => exact ih (tput_wf h)

/-! ## The register file -/

theorem regWfFrom_none {lo : Option Nat} {t : Tbl Word} (h : regWfFrom lo t = true) : regWfFrom none t = true := by
  cases t with
  | nil => rfl
  | cons x r => simp only [regWfFrom, Option.all_none, Bool.true_and, Bool.and_eq_true] at h ⊢; exact ⟨h.1.2, h.2⟩

theorem regWfFrom_lower {b c : Nat} {t : Tbl Word} (hbc : b ≤ c) (h : regWfFrom (some c) t = true) :
    regWfFrom (some b) t = true := by
  cases t with
  | nil => rfl
  | cons x r =>
    simp only [regWfFrom, Option.all_some, Bool.and_eq_true, decide_eq_true_eq] at h ⊢
    exact ⟨⟨by omega, h.1.2⟩, h.2⟩

theorem regGet_below {b k : Nat} {t : Tbl Word} (hk : k ≤ b) (h : regWfFrom (some b) t = true) : regGet t k = regReset k := by
  induction t generalizing b with
  | nil => rfl
  | cons x r ih =>
    obtain ⟨a, w⟩ := x
    simp only [regWfFrom, Option.all_some, Bool.and_eq_true, decide_eq_true_eq] at h
    have hne : a ≠ k := by omega
    simp only [regGet, hne, if_false]
    exact ih (by omega) h.2

theorem regPut_wfFrom {t : Tbl Word} {k : Nat} {v : Word} {lo : Option Nat} (hk : lo.all fun b => decide (b < k))
    (h : regWfFrom lo t = true) : regWfFrom lo (regPut t k v) = true := by
  induction t generalizing lo with
  | nil =>
    simp only [regPut]
    split
    · rfl
    · simp [regWfFrom, *]
  | cons x r ih =>
    obtain ⟨a, w⟩ := x
    simp only [regWfFrom, Bool.and_eq_true, decide_eq_true_eq] at h
    obtain ⟨⟨h1, h2⟩, h3⟩ := h
    simp only [regPut]
    split
    · split
      · simp [regWfFrom, *]
      · simp [regWfFrom, *]
    · split
      · subst k
        split
        · cases lo with
          | none => exact regWfFrom_none h3
          | some b =>
            simp only [Option.all_some, decide_eq_true_eq] at h1
            exact regWfFrom_lower (by omega) h3
        · simp [regWfFrom, *]
      · simp only [regWfFrom, Bool.and_eq_true, decide_eq_true_eq]
        exact ⟨⟨h1, h2⟩, ih (by simp only [Option.all_some, decide_eq_true_eq]; omega) h3⟩

/-- A register write keeps the canonical form. -/
theorem regPut_wf {t : Tbl Word} {k : Nat} {v : Word} (h : regWf t = true) : regWf (regPut t k v) = true :=
  regPut_wfFrom (by simp) h

theorem regGet_regPut_from {t : Tbl Word} {lo : Option Nat} (h : regWfFrom lo t = true) (k j : Nat) (v : Word) :
    regGet (regPut t k v) j = if j = k then v else regGet t j := by
  induction t generalizing lo with
  | nil =>
    simp only [regPut]
    split <;> by_cases hj : j = k <;> simp [regGet, Ne.symm, *]
  | cons x r ih =>
    obtain ⟨a, w⟩ := x
    simp only [regWfFrom, Bool.and_eq_true, decide_eq_true_eq] at h
    obtain ⟨⟨h1, h2⟩, h3⟩ := h
    simp only [regPut]
    split
    · rename_i hlt
      have below : regGet r k = regReset k := regGet_below (by omega) h3
      have hne : a ≠ k := by omega
      split
      · by_cases hj : j = k
        · subst hj; simp [regGet, *]
        · simp [hj]
      · by_cases hj : j = k
        · subst hj; simp [regGet]
        · simp [regGet, hj, Ne.symm hj]
    · split
      · rename_i heq
        subst heq
        have below : regGet r k = regReset k := regGet_below (by omega) h3
        split
        · by_cases hj : j = k
          · subst hj; simp [*]
          · simp [regGet, hj, Ne.symm hj]
        · by_cases hj : j = k
          · subst hj; simp [regGet]
          · simp [regGet, hj, Ne.symm hj]
      · rename_i hne
        by_cases ha : a = j
        · subst ha
          simp [regGet, Ne.symm hne]
        · simp only [regGet, ha, if_false]
          exact ih h3

/-- A register read after a register write. -/
theorem regGet_regPut {t : Tbl Word} (h : regWf t = true) (k j : Nat) (v : Word) :
    regGet (regPut t k v) j = if j = k then v else regGet t j :=
  regGet_regPut_from h k j v

end Sys2Proof.Laws
end

