-- ==== Sys2Proof/Laws/Fields.lean ====
section
/-! SUPPORT. Laws of bit fields of words and of the register operations: what a field holds after a write of it, and that
everything beside it is unchanged. -/

namespace Sys2Proof.Laws

open Sys2Proof.Machine

theorem getElem_ofNat32 (x i : Nat) (h : i < 32) : (BitVec.ofNat 32 x)[i] = x.testBit i := by
  rw [BitVec.getElem_eq_testBit_toNat, BitVec.toNat_ofNat, Nat.testBit_mod_two_pow]
  simp [h]

/-- Bit by bit, a field write. -/
theorem getLsbD_setBits (w : Word) (lo n v i : Nat) :
    (setBits w lo n v).getLsbD i = if lo ≤ i ∧ i < lo + n then decide (i < 32) && v.testBit (i - lo) else w.getLsbD i := by
  by_cases hi : i < 32
  · by_cases h1 : lo ≤ i
    · have e : ¬ i < lo := by omega
      by_cases h2 : i < lo + n
      · have h3 : i - lo < n := by omega
        simp [setBits, hi, h1, h2, e, h3, getElem_ofNat32, Nat.testBit_two_pow_sub_one, Nat.testBit_mod_two_pow]
      · have h3 : ¬ i - lo < n := by omega
        simp [setBits, hi, h2, e, h3, getElem_ofNat32, Nat.testBit_two_pow_sub_one, Nat.testBit_mod_two_pow]
    · have e : i < lo := by omega
      simp [setBits, hi, h1, e]
  · have : w.getLsbD i = false := BitVec.getLsbD_of_ge w i (by omega)
    simp [setBits, hi, this]

theorem bitOf_setBits (w : Word) (lo n v i : Nat) :
    bitOf (setBits w lo n v) i = if lo ≤ i ∧ i < lo + n then decide (i < 32) && v.testBit (i - lo) else bitOf w i :=
  getLsbD_setBits w lo n v i

/-- Bit by bit, a field read. -/
theorem testBit_bitsOf (w : Word) (lo n j : Nat) : (bitsOf w lo n).testBit j = (decide (j < n) && w.getLsbD (lo + j)) := by
  simp only [bitsOf]
  rw [← BitVec.getLsbD, BitVec.getLsbD_extractLsb']

theorem bitsOf_lt (w : Word) (lo n : Nat) : bitsOf w lo n < 2 ^ n := (w.extractLsb' lo n).isLt

/-- A field holds what was written to it. -/
theorem bitsOf_setBits_same (w : Word) (lo n v : Nat) (h : lo + n ≤ 32) : bitsOf (setBits w lo n v) lo n = v % 2 ^ n := by
  apply Nat.eq_of_testBit_eq
  intro j
  rw [testBit_bitsOf, getLsbD_setBits, Nat.testBit_mod_two_pow]
  by_cases hj : j < n
  · have : lo + j < 32 := by omega
    simp [hj, this]
  · simp [hj]

/-- A field that a write does not overlap keeps its value. -/
theorem bitsOf_setBits_other (w : Word) (lo n v lo' n' : Nat) (h : lo' + n' ≤ lo ∨ lo + n ≤ lo') :
    bitsOf (setBits w lo n v) lo' n' = bitsOf w lo' n' := by
  apply Nat.eq_of_testBit_eq
  intro j
  rw [testBit_bitsOf, testBit_bitsOf, getLsbD_setBits]
  by_cases hj : j < n'
  · have : ¬ (lo ≤ lo' + j ∧ lo' + j < lo + n) := by omega
    simp [this]
  · simp [hj]

/-! ## Registers -/

theorem rd_wr {s : State} (h : regWf s.regs = true) (a b : Nat) (v : Word) :
    (s.wr a v).rd b = if b = a then v else s.rd b :=
  regGet_regPut h a b v

theorem rd_wr_same {s : State} (h : regWf s.regs = true) (a : Nat) (v : Word) : (s.wr a v).rd a = v := by
  rw [rd_wr h, if_pos rfl]

theorem rd_wr_other {s : State} (h : regWf s.regs = true) {a b : Nat} (v : Word) (hb : b ≠ a) :
    (s.wr a v).rd b = s.rd b := by
  rw [rd_wr h, if_neg hb]

theorem wr_wf {s : State} (h : regWf s.regs = true) (a : Nat) (v : Word) : regWf (s.wr a v).regs = true := regPut_wf h

theorem rd_wf {s : State} (h : regWf s.regs = true) (a b lo n v : Nat) :
    (s.wf a lo n v).rd b = if b = a then setBits (s.rd a) lo n v else s.rd b :=
  rd_wr h a b _

theorem wf_wf {s : State} (h : regWf s.regs = true) (a lo n v : Nat) : regWf (s.wf a lo n v).regs = true := wr_wf h a _

/-- A field after it is written. -/
theorem rf_wf_same {s : State} (h : regWf s.regs = true) (a lo n v : Nat) (hw : lo + n ≤ 32) :
    (s.wf a lo n v).rf a lo n = v % 2 ^ n := by
  rw [State.rf, rd_wf h, if_pos rfl, bitsOf_setBits_same _ _ _ _ hw]

/-- Another field of the register written. -/
theorem rf_wf_other {s : State} (h : regWf s.regs = true) (a lo n v lo' n' : Nat) (hd : lo' + n' ≤ lo ∨ lo + n ≤ lo') :
    (s.wf a lo n v).rf a lo' n' = s.rf a lo' n' := by
  rw [State.rf, rd_wf h, if_pos rfl, bitsOf_setBits_other _ _ _ _ _ _ hd, State.rf]

/-- A field of another register. -/
theorem rf_wf_elsewhere {s : State} (h : regWf s.regs = true) {a b : Nat} (lo n v lo' n' : Nat) (hb : b ≠ a) :
    (s.wf a lo n v).rf b lo' n' = s.rf b lo' n' := by
  rw [State.rf, rd_wf h, if_neg hb, State.rf]

theorem flag_wf {s : State} (h : regWf s.regs = true) (a b lo n v i : Nat) :
    (s.wf a lo n v).flag b i
      = if b = a ∧ lo ≤ i ∧ i < lo + n then decide (i < 32) && v.testBit (i - lo) else s.flag b i := by
  unfold State.flag
  rw [rd_wf h]
  by_cases hb : b = a
  · subst hb
    simp only [if_true, true_and]
    exact bitOf_setBits _ _ _ _ _
  · simp [hb]

theorem flag_setFlag {s : State} (h : regWf s.regs = true) (a b i j : Nat) (hi : i < 32) :
    (s.setFlag a i).flag b j = (decide (b = a ∧ j = i) || s.flag b j) := by
  unfold State.setFlag
  rw [flag_wf h]
  by_cases hb : b = a ∧ j = i
  · obtain ⟨rfl, rfl⟩ := hb
    simp [hi]
  · have : ¬ (b = a ∧ i ≤ j ∧ j < i + 1) := by omega
    rw [if_neg this]
    simp [hb]

theorem flag_clrFlag {s : State} (h : regWf s.regs = true) (a b i j : Nat) :
    (s.clrFlag a i).flag b j = (!decide (b = a ∧ j = i) && s.flag b j) := by
  unfold State.clrFlag
  rw [flag_wf h]
  by_cases hb : b = a ∧ j = i
  · obtain ⟨rfl, rfl⟩ := hb
    simp
  · have : ¬ (b = a ∧ i ≤ j ∧ j < i + 1) := by omega
    rw [if_neg this]
    simp [hb]

theorem rd_setFlag_other {s : State} (h : regWf s.regs = true) {a b i : Nat} (hb : b ≠ a) : (s.setFlag a i).rd b = s.rd b := by
  rw [State.setFlag, rd_wf h, if_neg hb]

theorem rd_clrFlag_other {s : State} (h : regWf s.regs = true) {a b i : Nat} (hb : b ≠ a) : (s.clrFlag a i).rd b = s.rd b := by
  rw [State.clrFlag, rd_wf h, if_neg hb]

theorem setFlag_wf {s : State} (h : regWf s.regs = true) (a i : Nat) : regWf (s.setFlag a i).regs = true := wf_wf h _ _ _ _
theorem clrFlag_wf {s : State} (h : regWf s.regs = true) (a i : Nat) : regWf (s.clrFlag a i).regs = true := wf_wf h _ _ _ _

theorem holdAt_le (top v : Nat) : holdAt top v ≤ top := by unfold holdAt; split <;> omega

/-- A counter field after a count: it holds at its top. -/
theorem rf_count_same {s : State} (h : regWf s.regs = true) (a lo n k : Nat) (hw : lo + n ≤ 32) :
    (s.count a lo n k).rf a lo n = holdAt (2 ^ n - 1) (s.rf a lo n + k) := by
  have := holdAt_le (2 ^ n - 1) (s.rf a lo n + k)
  have p : 0 < 2 ^ n := Nat.two_pow_pos n
  rw [State.count, rf_wf_same h _ _ _ _ hw, Nat.mod_eq_of_lt (by omega)]

theorem count_wf {s : State} (h : regWf s.regs = true) (a lo n k : Nat) : regWf (s.count a lo n k).regs = true :=
  wf_wf h _ _ _ _

theorem wrap_wf {s : State} (h : regWf s.regs = true) (a lo n k : Nat) : regWf (s.wrap a lo n k).regs = true :=
  wf_wf h _ _ _ _

theorem rd_count_other {s : State} (h : regWf s.regs = true) {a b : Nat} (lo n k : Nat) (hb : b ≠ a) :
    (s.count a lo n k).rd b = s.rd b := by
  rw [State.count, rd_wf h, if_neg hb]

end Sys2Proof.Laws
end

