-- ==== Sys2Proof/Laws/State.lean ====
section
/-! SUPPORT. For each named update of the state, one lemma per field that it leaves alone, and how the field that it writes reads
afterwards. -/

namespace Sys2Proof.Laws

open Sys2Proof.Machine

variable (s : State)

/-! ## wr -/

@[simp] theorem wr_time (a : Nat) (v : Word) : (s.wr a v).time = s.time := rfl
@[simp] theorem wr_ck (a : Nat) (v : Word) : (s.wr a v).ck = s.ck := rfl
@[simp] theorem wr_out (a : Nat) (v : Word) : (s.wr a v).out = s.out := rfl
@[simp] theorem wr_hbm (a : Nat) (v : Word) : (s.wr a v).hbm = s.hbm := rfl
@[simp] theorem wr_hostMem (a : Nat) (v : Word) : (s.wr a v).hostMem = s.hostMem := rfl
@[simp] theorem wr_pmem (a : Nat) (v : Word) : (s.wr a v).pmem = s.pmem := rfl
@[simp] theorem wr_sched (a : Nat) (v : Word) : (s.wr a v).sched = s.sched := rfl
@[simp] theorem wr_lq (a : Nat) (v : Word) : (s.wr a v).lq = s.lq := rfl
@[simp] theorem wr_mon (a : Nat) (v : Word) : (s.wr a v).mon = s.mon := rfl
@[simp] theorem wr_pair (a : Nat) (v : Word) : (s.wr a v).pair = s.pair := rfl
@[simp] theorem wr_at (a : Nat) (v : Word) : (s.wr a v).at_ = s.at_ := rfl
@[simp] theorem wr_mt (a : Nat) (v : Word) : (s.wr a v).mt = s.mt := rfl
@[simp] theorem wr_sft (a : Nat) (v : Word) : (s.wr a v).sft = s.sft := rfl
@[simp] theorem wr_mesh (a : Nat) (v : Word) : (s.wr a v).mesh = s.mesh := rfl
@[simp] theorem wr_flows (a : Nat) (v : Word) : (s.wr a v).flows = s.flows := rfl
@[simp] theorem wr_txq (a : Nat) (v : Word) : (s.wr a v).txq = s.txq := rfl
@[simp] theorem wr_trace (a : Nat) (v : Word) : (s.wr a v).trace = s.trace := rfl
@[simp] theorem wr_sync (a : Nat) (v : Word) : (s.wr a v).sync = s.sync := rfl
@[simp] theorem wr_notices (a : Nat) (v : Word) : (s.wr a v).notices = s.notices := rfl
@[simp] theorem wr_events (a : Nat) (v : Word) : (s.wr a v).events = s.events := rfl
@[simp] theorem wr_chain (a : Nat) (v : Word) : (s.wr a v).chain = s.chain := rfl
@[simp] theorem wr_reads (a : Nat) (v : Word) : (s.wr a v).reads = s.reads := rfl
@[simp] theorem wr_bucket (a : Nat) (v : Word) : (s.wr a v).bucket = s.bucket := rfl
@[simp] theorem wr_hbpCk (a : Nat) (v : Word) : (s.wr a v).hbpCk = s.hbpCk := rfl
@[simp] theorem wr_probe (a : Nat) (v : Word) : (s.wr a v).probe = s.probe := rfl
@[simp] theorem wr_segs (a : Nat) (v : Word) : (s.wr a v).segs = s.segs := rfl
@[simp] theorem wr_host (a : Nat) (v : Word) : (s.wr a v).host = s.host := rfl
@[simp] theorem wr_gov (a : Nat) (v : Word) : (s.wr a v).gov = s.gov := rfl
@[simp] theorem wr_ingest (a : Nat) (v : Word) : (s.wr a v).ingest = s.ingest := rfl
@[simp] theorem wr_eng (a : Nat) (v : Word) : (s.wr a v).eng = s.eng := rfl
@[simp] theorem wr_boot (a : Nat) (v : Word) : (s.wr a v).boot = s.boot := rfl
@[simp] theorem wr_pwr (a : Nat) (v : Word) : (s.wr a v).pwr = s.pwr := rfl
@[simp] theorem wr_rhz (a : Nat) (v : Word) : (s.wr a v).rhz = s.rhz := rfl
@[simp] theorem wr_cap (a : Nat) (v : Word) : (s.wr a v).cap = s.cap := rfl
@[simp] theorem wr_link (a : Nat) (v : Word) : (s.wr a v).link = s.link := rfl
@[simp] theorem wr_dbg (a : Nat) (v : Word) : (s.wr a v).dbg = s.dbg := rfl
@[simp] theorem wr_free (a : Nat) (v : Word) : (s.wr a v).free = s.free := rfl
@[simp] theorem wr_pending (a : Nat) (v : Word) : (s.wr a v).pending = s.pending := rfl

/-! ## wf -/

@[simp] theorem wf_time (a lo n v : Nat) : (s.wf a lo n v).time = s.time := rfl
@[simp] theorem wf_ck (a lo n v : Nat) : (s.wf a lo n v).ck = s.ck := rfl
@[simp] theorem wf_out (a lo n v : Nat) : (s.wf a lo n v).out = s.out := rfl
@[simp] theorem wf_hbm (a lo n v : Nat) : (s.wf a lo n v).hbm = s.hbm := rfl
@[simp] theorem wf_hostMem (a lo n v : Nat) : (s.wf a lo n v).hostMem = s.hostMem := rfl
@[simp] theorem wf_pmem (a lo n v : Nat) : (s.wf a lo n v).pmem = s.pmem := rfl
@[simp] theorem wf_sched (a lo n v : Nat) : (s.wf a lo n v).sched = s.sched := rfl
@[simp] theorem wf_lq (a lo n v : Nat) : (s.wf a lo n v).lq = s.lq := rfl
@[simp] theorem wf_mon (a lo n v : Nat) : (s.wf a lo n v).mon = s.mon := rfl
@[simp] theorem wf_pair (a lo n v : Nat) : (s.wf a lo n v).pair = s.pair := rfl
@[simp] theorem wf_at (a lo n v : Nat) : (s.wf a lo n v).at_ = s.at_ := rfl
@[simp] theorem wf_mt (a lo n v : Nat) : (s.wf a lo n v).mt = s.mt := rfl
@[simp] theorem wf_sft (a lo n v : Nat) : (s.wf a lo n v).sft = s.sft := rfl
@[simp] theorem wf_mesh (a lo n v : Nat) : (s.wf a lo n v).mesh = s.mesh := rfl
@[simp] theorem wf_flows (a lo n v : Nat) : (s.wf a lo n v).flows = s.flows := rfl
@[simp] theorem wf_txq (a lo n v : Nat) : (s.wf a lo n v).txq = s.txq := rfl
@[simp] theorem wf_trace (a lo n v : Nat) : (s.wf a lo n v).trace = s.trace := rfl
@[simp] theorem wf_sync (a lo n v : Nat) : (s.wf a lo n v).sync = s.sync := rfl
@[simp] theorem wf_notices (a lo n v : Nat) : (s.wf a lo n v).notices = s.notices := rfl
@[simp] theorem wf_events (a lo n v : Nat) : (s.wf a lo n v).events = s.events := rfl
@[simp] theorem wf_chain (a lo n v : Nat) : (s.wf a lo n v).chain = s.chain := rfl
@[simp] theorem wf_reads (a lo n v : Nat) : (s.wf a lo n v).reads = s.reads := rfl
@[simp] theorem wf_bucket (a lo n v : Nat) : (s.wf a lo n v).bucket = s.bucket := rfl
@[simp] theorem wf_hbpCk (a lo n v : Nat) : (s.wf a lo n v).hbpCk = s.hbpCk := rfl
@[simp] theorem wf_probe (a lo n v : Nat) : (s.wf a lo n v).probe = s.probe := rfl
@[simp] theorem wf_segs (a lo n v : Nat) : (s.wf a lo n v).segs = s.segs := rfl
@[simp] theorem wf_host (a lo n v : Nat) : (s.wf a lo n v).host = s.host := rfl
@[simp] theorem wf_gov (a lo n v : Nat) : (s.wf a lo n v).gov = s.gov := rfl
@[simp] theorem wf_ingest (a lo n v : Nat) : (s.wf a lo n v).ingest = s.ingest := rfl
@[simp] theorem wf_eng (a lo n v : Nat) : (s.wf a lo n v).eng = s.eng := rfl
@[simp] theorem wf_boot (a lo n v : Nat) : (s.wf a lo n v).boot = s.boot := rfl
@[simp] theorem wf_pwr (a lo n v : Nat) : (s.wf a lo n v).pwr = s.pwr := rfl
@[simp] theorem wf_rhz (a lo n v : Nat) : (s.wf a lo n v).rhz = s.rhz := rfl
@[simp] theorem wf_cap (a lo n v : Nat) : (s.wf a lo n v).cap = s.cap := rfl
@[simp] theorem wf_link (a lo n v : Nat) : (s.wf a lo n v).link = s.link := rfl
@[simp] theorem wf_dbg (a lo n v : Nat) : (s.wf a lo n v).dbg = s.dbg := rfl
@[simp] theorem wf_free (a lo n v : Nat) : (s.wf a lo n v).free = s.free := rfl
@[simp] theorem wf_pending (a lo n v : Nat) : (s.wf a lo n v).pending = s.pending := rfl

/-! ## setFlag -/

@[simp] theorem setFlag_time (a i : Nat) : (s.setFlag a i).time = s.time := rfl
@[simp] theorem setFlag_ck (a i : Nat) : (s.setFlag a i).ck = s.ck := rfl
@[simp] theorem setFlag_out (a i : Nat) : (s.setFlag a i).out = s.out := rfl
@[simp] theorem setFlag_hbm (a i : Nat) : (s.setFlag a i).hbm = s.hbm := rfl
@[simp] theorem setFlag_hostMem (a i : Nat) : (s.setFlag a i).hostMem = s.hostMem := rfl
@[simp] theorem setFlag_pmem (a i : Nat) : (s.setFlag a i).pmem = s.pmem := rfl
@[simp] theorem setFlag_sched (a i : Nat) : (s.setFlag a i).sched = s.sched := rfl
@[simp] theorem setFlag_lq (a i : Nat) : (s.setFlag a i).lq = s.lq := rfl
@[simp] theorem setFlag_mon (a i : Nat) : (s.setFlag a i).mon = s.mon := rfl
@[simp] theorem setFlag_pair (a i : Nat) : (s.setFlag a i).pair = s.pair := rfl
@[simp] theorem setFlag_at (a i : Nat) : (s.setFlag a i).at_ = s.at_ := rfl
@[simp] theorem setFlag_mt (a i : Nat) : (s.setFlag a i).mt = s.mt := rfl
@[simp] theorem setFlag_sft (a i : Nat) : (s.setFlag a i).sft = s.sft := rfl
@[simp] theorem setFlag_mesh (a i : Nat) : (s.setFlag a i).mesh = s.mesh := rfl
@[simp] theorem setFlag_flows (a i : Nat) : (s.setFlag a i).flows = s.flows := rfl
@[simp] theorem setFlag_txq (a i : Nat) : (s.setFlag a i).txq = s.txq := rfl
@[simp] theorem setFlag_trace (a i : Nat) : (s.setFlag a i).trace = s.trace := rfl
@[simp] theorem setFlag_sync (a i : Nat) : (s.setFlag a i).sync = s.sync := rfl
@[simp] theorem setFlag_notices (a i : Nat) : (s.setFlag a i).notices = s.notices := rfl
@[simp] theorem setFlag_events (a i : Nat) : (s.setFlag a i).events = s.events := rfl
@[simp] theorem setFlag_chain (a i : Nat) : (s.setFlag a i).chain = s.chain := rfl
@[simp] theorem setFlag_reads (a i : Nat) : (s.setFlag a i).reads = s.reads := rfl
@[simp] theorem setFlag_bucket (a i : Nat) : (s.setFlag a i).bucket = s.bucket := rfl
@[simp] theorem setFlag_hbpCk (a i : Nat) : (s.setFlag a i).hbpCk = s.hbpCk := rfl
@[simp] theorem setFlag_probe (a i : Nat) : (s.setFlag a i).probe = s.probe := rfl
@[simp] theorem setFlag_segs (a i : Nat) : (s.setFlag a i).segs = s.segs := rfl
@[simp] theorem setFlag_host (a i : Nat) : (s.setFlag a i).host = s.host := rfl
@[simp] theorem setFlag_gov (a i : Nat) : (s.setFlag a i).gov = s.gov := rfl
@[simp] theorem setFlag_ingest (a i : Nat) : (s.setFlag a i).ingest = s.ingest := rfl
@[simp] theorem setFlag_eng (a i : Nat) : (s.setFlag a i).eng = s.eng := rfl
@[simp] theorem setFlag_boot (a i : Nat) : (s.setFlag a i).boot = s.boot := rfl
@[simp] theorem setFlag_pwr (a i : Nat) : (s.setFlag a i).pwr = s.pwr := rfl
@[simp] theorem setFlag_rhz (a i : Nat) : (s.setFlag a i).rhz = s.rhz := rfl
@[simp] theorem setFlag_cap (a i : Nat) : (s.setFlag a i).cap = s.cap := rfl
@[simp] theorem setFlag_link (a i : Nat) : (s.setFlag a i).link = s.link := rfl
@[simp] theorem setFlag_dbg (a i : Nat) : (s.setFlag a i).dbg = s.dbg := rfl
@[simp] theorem setFlag_free (a i : Nat) : (s.setFlag a i).free = s.free := rfl
@[simp] theorem setFlag_pending (a i : Nat) : (s.setFlag a i).pending = s.pending := rfl

/-! ## clrFlag -/

@[simp] theorem clrFlag_time (a i : Nat) : (s.clrFlag a i).time = s.time := rfl
@[simp] theorem clrFlag_ck (a i : Nat) : (s.clrFlag a i).ck = s.ck := rfl
@[simp] theorem clrFlag_out (a i : Nat) : (s.clrFlag a i).out = s.out := rfl
@[simp] theorem clrFlag_hbm (a i : Nat) : (s.clrFlag a i).hbm = s.hbm := rfl
@[simp] theorem clrFlag_hostMem (a i : Nat) : (s.clrFlag a i).hostMem = s.hostMem := rfl
@[simp] theorem clrFlag_pmem (a i : Nat) : (s.clrFlag a i).pmem = s.pmem := rfl
@[simp] theorem clrFlag_sched (a i : Nat) : (s.clrFlag a i).sched = s.sched := rfl
@[simp] theorem clrFlag_lq (a i : Nat) : (s.clrFlag a i).lq = s.lq := rfl
@[simp] theorem clrFlag_mon (a i : Nat) : (s.clrFlag a i).mon = s.mon := rfl
@[simp] theorem clrFlag_pair (a i : Nat) : (s.clrFlag a i).pair = s.pair := rfl
@[simp] theorem clrFlag_at (a i : Nat) : (s.clrFlag a i).at_ = s.at_ := rfl
@[simp] theorem clrFlag_mt (a i : Nat) : (s.clrFlag a i).mt = s.mt := rfl
@[simp] theorem clrFlag_sft (a i : Nat) : (s.clrFlag a i).sft = s.sft := rfl
@[simp] theorem clrFlag_mesh (a i : Nat) : (s.clrFlag a i).mesh = s.mesh := rfl
@[simp] theorem clrFlag_flows (a i : Nat) : (s.clrFlag a i).flows = s.flows := rfl
@[simp] theorem clrFlag_txq (a i : Nat) : (s.clrFlag a i).txq = s.txq := rfl
@[simp] theorem clrFlag_trace (a i : Nat) : (s.clrFlag a i).trace = s.trace := rfl
@[simp] theorem clrFlag_sync (a i : Nat) : (s.clrFlag a i).sync = s.sync := rfl
@[simp] theorem clrFlag_notices (a i : Nat) : (s.clrFlag a i).notices = s.notices := rfl
@[simp] theorem clrFlag_events (a i : Nat) : (s.clrFlag a i).events = s.events := rfl
@[simp] theorem clrFlag_chain (a i : Nat) : (s.clrFlag a i).chain = s.chain := rfl
@[simp] theorem clrFlag_reads (a i : Nat) : (s.clrFlag a i).reads = s.reads := rfl
@[simp] theorem clrFlag_bucket (a i : Nat) : (s.clrFlag a i).bucket = s.bucket := rfl
@[simp] theorem clrFlag_hbpCk (a i : Nat) : (s.clrFlag a i).hbpCk = s.hbpCk := rfl
@[simp] theorem clrFlag_probe (a i : Nat) : (s.clrFlag a i).probe = s.probe := rfl
@[simp] theorem clrFlag_segs (a i : Nat) : (s.clrFlag a i).segs = s.segs := rfl
@[simp] theorem clrFlag_host (a i : Nat) : (s.clrFlag a i).host = s.host := rfl
@[simp] theorem clrFlag_gov (a i : Nat) : (s.clrFlag a i).gov = s.gov := rfl
@[simp] theorem clrFlag_ingest (a i : Nat) : (s.clrFlag a i).ingest = s.ingest := rfl
@[simp] theorem clrFlag_eng (a i : Nat) : (s.clrFlag a i).eng = s.eng := rfl
@[simp] theorem clrFlag_boot (a i : Nat) : (s.clrFlag a i).boot = s.boot := rfl
@[simp] theorem clrFlag_pwr (a i : Nat) : (s.clrFlag a i).pwr = s.pwr := rfl
@[simp] theorem clrFlag_rhz (a i : Nat) : (s.clrFlag a i).rhz = s.rhz := rfl
@[simp] theorem clrFlag_cap (a i : Nat) : (s.clrFlag a i).cap = s.cap := rfl
@[simp] theorem clrFlag_link (a i : Nat) : (s.clrFlag a i).link = s.link := rfl
@[simp] theorem clrFlag_dbg (a i : Nat) : (s.clrFlag a i).dbg = s.dbg := rfl
@[simp] theorem clrFlag_free (a i : Nat) : (s.clrFlag a i).free = s.free := rfl
@[simp] theorem clrFlag_pending (a i : Nat) : (s.clrFlag a i).pending = s.pending := rfl

/-! ## count -/

@[simp] theorem count_time (a lo n k : Nat) : (s.count a lo n k).time = s.time := rfl
@[simp] theorem count_ck (a lo n k : Nat) : (s.count a lo n k).ck = s.ck := rfl
@[simp] theorem count_out (a lo n k : Nat) : (s.count a lo n k).out = s.out := rfl
@[simp] theorem count_hbm (a lo n k : Nat) : (s.count a lo n k).hbm = s.hbm := rfl
@[simp] theorem count_hostMem (a lo n k : Nat) : (s.count a lo n k).hostMem = s.hostMem := rfl
@[simp] theorem count_pmem (a lo n k : Nat) : (s.count a lo n k).pmem = s.pmem := rfl
@[simp] theorem count_sched (a lo n k : Nat) : (s.count a lo n k).sched = s.sched := rfl
@[simp] theorem count_lq (a lo n k : Nat) : (s.count a lo n k).lq = s.lq := rfl
@[simp] theorem count_mon (a lo n k : Nat) : (s.count a lo n k).mon = s.mon := rfl
@[simp] theorem count_pair (a lo n k : Nat) : (s.count a lo n k).pair = s.pair := rfl
@[simp] theorem count_at (a lo n k : Nat) : (s.count a lo n k).at_ = s.at_ := rfl
@[simp] theorem count_mt (a lo n k : Nat) : (s.count a lo n k).mt = s.mt := rfl
@[simp] theorem count_sft (a lo n k : Nat) : (s.count a lo n k).sft = s.sft := rfl
@[simp] theorem count_mesh (a lo n k : Nat) : (s.count a lo n k).mesh = s.mesh := rfl
@[simp] theorem count_flows (a lo n k : Nat) : (s.count a lo n k).flows = s.flows := rfl
@[simp] theorem count_txq (a lo n k : Nat) : (s.count a lo n k).txq = s.txq := rfl
@[simp] theorem count_trace (a lo n k : Nat) : (s.count a lo n k).trace = s.trace := rfl
@[simp] theorem count_sync (a lo n k : Nat) : (s.count a lo n k).sync = s.sync := rfl
@[simp] theorem count_notices (a lo n k : Nat) : (s.count a lo n k).notices = s.notices := rfl
@[simp] theorem count_events (a lo n k : Nat) : (s.count a lo n k).events = s.events := rfl
@[simp] theorem count_chain (a lo n k : Nat) : (s.count a lo n k).chain = s.chain := rfl
@[simp] theorem count_reads (a lo n k : Nat) : (s.count a lo n k).reads = s.reads := rfl
@[simp] theorem count_bucket (a lo n k : Nat) : (s.count a lo n k).bucket = s.bucket := rfl
@[simp] theorem count_hbpCk (a lo n k : Nat) : (s.count a lo n k).hbpCk = s.hbpCk := rfl
@[simp] theorem count_probe (a lo n k : Nat) : (s.count a lo n k).probe = s.probe := rfl
@[simp] theorem count_segs (a lo n k : Nat) : (s.count a lo n k).segs = s.segs := rfl
@[simp] theorem count_host (a lo n k : Nat) : (s.count a lo n k).host = s.host := rfl
@[simp] theorem count_gov (a lo n k : Nat) : (s.count a lo n k).gov = s.gov := rfl
@[simp] theorem count_ingest (a lo n k : Nat) : (s.count a lo n k).ingest = s.ingest := rfl
@[simp] theorem count_eng (a lo n k : Nat) : (s.count a lo n k).eng = s.eng := rfl
@[simp] theorem count_boot (a lo n k : Nat) : (s.count a lo n k).boot = s.boot := rfl
@[simp] theorem count_pwr (a lo n k : Nat) : (s.count a lo n k).pwr = s.pwr := rfl
@[simp] theorem count_rhz (a lo n k : Nat) : (s.count a lo n k).rhz = s.rhz := rfl
@[simp] theorem count_cap (a lo n k : Nat) : (s.count a lo n k).cap = s.cap := rfl
@[simp] theorem count_link (a lo n k : Nat) : (s.count a lo n k).link = s.link := rfl
@[simp] theorem count_dbg (a lo n k : Nat) : (s.count a lo n k).dbg = s.dbg := rfl
@[simp] theorem count_free (a lo n k : Nat) : (s.count a lo n k).free = s.free := rfl
@[simp] theorem count_pending (a lo n k : Nat) : (s.count a lo n k).pending = s.pending := rfl

/-! ## wrap -/

@[simp] theorem wrap_time (a lo n k : Nat) : (s.wrap a lo n k).time = s.time := rfl
@[simp] theorem wrap_ck (a lo n k : Nat) : (s.wrap a lo n k).ck = s.ck := rfl
@[simp] theorem wrap_out (a lo n k : Nat) : (s.wrap a lo n k).out = s.out := rfl
@[simp] theorem wrap_hbm (a lo n k : Nat) : (s.wrap a lo n k).hbm = s.hbm := rfl
@[simp] theorem wrap_hostMem (a lo n k : Nat) : (s.wrap a lo n k).hostMem = s.hostMem := rfl
@[simp] theorem wrap_pmem (a lo n k : Nat) : (s.wrap a lo n k).pmem = s.pmem := rfl
@[simp] theorem wrap_sched (a lo n k : Nat) : (s.wrap a lo n k).sched = s.sched := rfl
@[simp] theorem wrap_lq (a lo n k : Nat) : (s.wrap a lo n k).lq = s.lq := rfl
@[simp] theorem wrap_mon (a lo n k : Nat) : (s.wrap a lo n k).mon = s.mon := rfl
@[simp] theorem wrap_pair (a lo n k : Nat) : (s.wrap a lo n k).pair = s.pair := rfl
@[simp] theorem wrap_at (a lo n k : Nat) : (s.wrap a lo n k).at_ = s.at_ := rfl
@[simp] theorem wrap_mt (a lo n k : Nat) : (s.wrap a lo n k).mt = s.mt := rfl
@[simp] theorem wrap_sft (a lo n k : Nat) : (s.wrap a lo n k).sft = s.sft := rfl
@[simp] theorem wrap_mesh (a lo n k : Nat) : (s.wrap a lo n k).mesh = s.mesh := rfl
@[simp] theorem wrap_flows (a lo n k : Nat) : (s.wrap a lo n k).flows = s.flows := rfl
@[simp] theorem wrap_txq (a lo n k : Nat) : (s.wrap a lo n k).txq = s.txq := rfl
@[simp] theorem wrap_trace (a lo n k : Nat) : (s.wrap a lo n k).trace = s.trace := rfl
@[simp] theorem wrap_sync (a lo n k : Nat) : (s.wrap a lo n k).sync = s.sync := rfl
@[simp] theorem wrap_notices (a lo n k : Nat) : (s.wrap a lo n k).notices = s.notices := rfl
@[simp] theorem wrap_events (a lo n k : Nat) : (s.wrap a lo n k).events = s.events := rfl
@[simp] theorem wrap_chain (a lo n k : Nat) : (s.wrap a lo n k).chain = s.chain := rfl
@[simp] theorem wrap_reads (a lo n k : Nat) : (s.wrap a lo n k).reads = s.reads := rfl
@[simp] theorem wrap_bucket (a lo n k : Nat) : (s.wrap a lo n k).bucket = s.bucket := rfl
@[simp] theorem wrap_hbpCk (a lo n k : Nat) : (s.wrap a lo n k).hbpCk = s.hbpCk := rfl
@[simp] theorem wrap_probe (a lo n k : Nat) : (s.wrap a lo n k).probe = s.probe := rfl
@[simp] theorem wrap_segs (a lo n k : Nat) : (s.wrap a lo n k).segs = s.segs := rfl
@[simp] theorem wrap_host (a lo n k : Nat) : (s.wrap a lo n k).host = s.host := rfl
@[simp] theorem wrap_gov (a lo n k : Nat) : (s.wrap a lo n k).gov = s.gov := rfl
@[simp] theorem wrap_ingest (a lo n k : Nat) : (s.wrap a lo n k).ingest = s.ingest := rfl
@[simp] theorem wrap_eng (a lo n k : Nat) : (s.wrap a lo n k).eng = s.eng := rfl
@[simp] theorem wrap_boot (a lo n k : Nat) : (s.wrap a lo n k).boot = s.boot := rfl
@[simp] theorem wrap_pwr (a lo n k : Nat) : (s.wrap a lo n k).pwr = s.pwr := rfl
@[simp] theorem wrap_rhz (a lo n k : Nat) : (s.wrap a lo n k).rhz = s.rhz := rfl
@[simp] theorem wrap_cap (a lo n k : Nat) : (s.wrap a lo n k).cap = s.cap := rfl
@[simp] theorem wrap_link (a lo n k : Nat) : (s.wrap a lo n k).link = s.link := rfl
@[simp] theorem wrap_dbg (a lo n k : Nat) : (s.wrap a lo n k).dbg = s.dbg := rfl
@[simp] theorem wrap_free (a lo n k : Nat) : (s.wrap a lo n k).free = s.free := rfl
@[simp] theorem wrap_pending (a lo n k : Nat) : (s.wrap a lo n k).pending = s.pending := rfl

/-! ## event -/

@[simp] theorem event_regs (c st v : Nat) (p : Option Nat) : (s.event c st v p).regs = s.regs := rfl
@[simp] theorem event_time (c st v : Nat) (p : Option Nat) : (s.event c st v p).time = s.time := rfl
@[simp] theorem event_ck (c st v : Nat) (p : Option Nat) : (s.event c st v p).ck = s.ck := rfl
@[simp] theorem event_out (c st v : Nat) (p : Option Nat) : (s.event c st v p).out = s.out := rfl
@[simp] theorem event_hbm (c st v : Nat) (p : Option Nat) : (s.event c st v p).hbm = s.hbm := rfl
@[simp] theorem event_hostMem (c st v : Nat) (p : Option Nat) : (s.event c st v p).hostMem = s.hostMem := rfl
@[simp] theorem event_pmem (c st v : Nat) (p : Option Nat) : (s.event c st v p).pmem = s.pmem := rfl
@[simp] theorem event_sched (c st v : Nat) (p : Option Nat) : (s.event c st v p).sched = s.sched := rfl
@[simp] theorem event_lq (c st v : Nat) (p : Option Nat) : (s.event c st v p).lq = s.lq := rfl
@[simp] theorem event_mon (c st v : Nat) (p : Option Nat) : (s.event c st v p).mon = s.mon := rfl
@[simp] theorem event_pair (c st v : Nat) (p : Option Nat) : (s.event c st v p).pair = s.pair := rfl
@[simp] theorem event_at (c st v : Nat) (p : Option Nat) : (s.event c st v p).at_ = s.at_ := rfl
@[simp] theorem event_mt (c st v : Nat) (p : Option Nat) : (s.event c st v p).mt = s.mt := rfl
@[simp] theorem event_sft (c st v : Nat) (p : Option Nat) : (s.event c st v p).sft = s.sft := rfl
@[simp] theorem event_flows (c st v : Nat) (p : Option Nat) : (s.event c st v p).flows = s.flows := rfl
@[simp] theorem event_txq (c st v : Nat) (p : Option Nat) : (s.event c st v p).txq = s.txq := rfl
@[simp] theorem event_trace (c st v : Nat) (p : Option Nat) : (s.event c st v p).trace = s.trace := rfl
@[simp] theorem event_sync (c st v : Nat) (p : Option Nat) : (s.event c st v p).sync = s.sync := rfl
@[simp] theorem event_notices (c st v : Nat) (p : Option Nat) : (s.event c st v p).notices = s.notices := rfl
@[simp] theorem event_events (c st v : Nat) (p : Option Nat) : (s.event c st v p).events = s.events := rfl
@[simp] theorem event_chain (c st v : Nat) (p : Option Nat) : (s.event c st v p).chain = s.chain := rfl
@[simp] theorem event_reads (c st v : Nat) (p : Option Nat) : (s.event c st v p).reads = s.reads := rfl
@[simp] theorem event_bucket (c st v : Nat) (p : Option Nat) : (s.event c st v p).bucket = s.bucket := rfl
@[simp] theorem event_hbpCk (c st v : Nat) (p : Option Nat) : (s.event c st v p).hbpCk = s.hbpCk := rfl
@[simp] theorem event_probe (c st v : Nat) (p : Option Nat) : (s.event c st v p).probe = s.probe := rfl
@[simp] theorem event_segs (c st v : Nat) (p : Option Nat) : (s.event c st v p).segs = s.segs := rfl
@[simp] theorem event_host (c st v : Nat) (p : Option Nat) : (s.event c st v p).host = s.host := rfl
@[simp] theorem event_gov (c st v : Nat) (p : Option Nat) : (s.event c st v p).gov = s.gov := rfl
@[simp] theorem event_ingest (c st v : Nat) (p : Option Nat) : (s.event c st v p).ingest = s.ingest := rfl
@[simp] theorem event_eng (c st v : Nat) (p : Option Nat) : (s.event c st v p).eng = s.eng := rfl
@[simp] theorem event_boot (c st v : Nat) (p : Option Nat) : (s.event c st v p).boot = s.boot := rfl
@[simp] theorem event_pwr (c st v : Nat) (p : Option Nat) : (s.event c st v p).pwr = s.pwr := rfl
@[simp] theorem event_rhz (c st v : Nat) (p : Option Nat) : (s.event c st v p).rhz = s.rhz := rfl
@[simp] theorem event_cap (c st v : Nat) (p : Option Nat) : (s.event c st v p).cap = s.cap := rfl
@[simp] theorem event_link (c st v : Nat) (p : Option Nat) : (s.event c st v p).link = s.link := rfl
@[simp] theorem event_dbg (c st v : Nat) (p : Option Nat) : (s.event c st v p).dbg = s.dbg := rfl
@[simp] theorem event_free (c st v : Nat) (p : Option Nat) : (s.event c st v p).free = s.free := rfl
@[simp] theorem event_pending (c st v : Nat) (p : Option Nat) : (s.event c st v p).pending = s.pending := rfl

/-! ## notice -/

/-- A notice becomes flits of the mesh, one for each engine, and changes nothing else. -/
theorem notice_mesh (st : Nat) (k : NoticeKind) (p : Nat) (t : Option Tag) :
    s.notice st k p t = { s with mesh := (s.notice st k p t).mesh } := by
  unfold State.notice
  generalize s.noticeStops p = l
  induction l generalizing s with
  | nil => rfl
  | cons d l ih => rw [List.foldl_cons, ih]; rfl

@[simp] theorem notice_regs (st : Nat) (k : NoticeKind) (p : Nat) (t : Option Tag) : (s.notice st k p t).regs = s.regs := by rw [notice_mesh]
@[simp] theorem notice_time (st : Nat) (k : NoticeKind) (p : Nat) (t : Option Tag) : (s.notice st k p t).time = s.time := by rw [notice_mesh]
@[simp] theorem notice_ck (st : Nat) (k : NoticeKind) (p : Nat) (t : Option Tag) : (s.notice st k p t).ck = s.ck := by rw [notice_mesh]
@[simp] theorem notice_out (st : Nat) (k : NoticeKind) (p : Nat) (t : Option Tag) : (s.notice st k p t).out = s.out := by rw [notice_mesh]
@[simp] theorem notice_hbm (st : Nat) (k : NoticeKind) (p : Nat) (t : Option Tag) : (s.notice st k p t).hbm = s.hbm := by rw [notice_mesh]
@[simp] theorem notice_hostMem (st : Nat) (k : NoticeKind) (p : Nat) (t : Option Tag) : (s.notice st k p t).hostMem = s.hostMem := by rw [notice_mesh]
@[simp] theorem notice_pmem (st : Nat) (k : NoticeKind) (p : Nat) (t : Option Tag) : (s.notice st k p t).pmem = s.pmem := by rw [notice_mesh]
@[simp] theorem notice_sched (st : Nat) (k : NoticeKind) (p : Nat) (t : Option Tag) : (s.notice st k p t).sched = s.sched := by rw [notice_mesh]
@[simp] theorem notice_lq (st : Nat) (k : NoticeKind) (p : Nat) (t : Option Tag) : (s.notice st k p t).lq = s.lq := by rw [notice_mesh]
@[simp] theorem notice_mon (st : Nat) (k : NoticeKind) (p : Nat) (t : Option Tag) : (s.notice st k p t).mon = s.mon := by rw [notice_mesh]
@[simp] theorem notice_pair (st : Nat) (k : NoticeKind) (p : Nat) (t : Option Tag) : (s.notice st k p t).pair = s.pair := by rw [notice_mesh]
@[simp] theorem notice_at (st : Nat) (k : NoticeKind) (p : Nat) (t : Option Tag) : (s.notice st k p t).at_ = s.at_ := by rw [notice_mesh]
@[simp] theorem notice_mt (st : Nat) (k : NoticeKind) (p : Nat) (t : Option Tag) : (s.notice st k p t).mt = s.mt := by rw [notice_mesh]
@[simp] theorem notice_sft (st : Nat) (k : NoticeKind) (p : Nat) (t : Option Tag) : (s.notice st k p t).sft = s.sft := by rw [notice_mesh]
@[simp] theorem notice_flows (st : Nat) (k : NoticeKind) (p : Nat) (t : Option Tag) : (s.notice st k p t).flows = s.flows := by rw [notice_mesh]
@[simp] theorem notice_txq (st : Nat) (k : NoticeKind) (p : Nat) (t : Option Tag) : (s.notice st k p t).txq = s.txq := by rw [notice_mesh]
@[simp] theorem notice_trace (st : Nat) (k : NoticeKind) (p : Nat) (t : Option Tag) : (s.notice st k p t).trace = s.trace := by rw [notice_mesh]
@[simp] theorem notice_sync (st : Nat) (k : NoticeKind) (p : Nat) (t : Option Tag) : (s.notice st k p t).sync = s.sync := by rw [notice_mesh]
@[simp] theorem notice_notices (st : Nat) (k : NoticeKind) (p : Nat) (t : Option Tag) : (s.notice st k p t).notices = s.notices := by rw [notice_mesh]
@[simp] theorem notice_events (st : Nat) (k : NoticeKind) (p : Nat) (t : Option Tag) : (s.notice st k p t).events = s.events := by rw [notice_mesh]
@[simp] theorem notice_chain (st : Nat) (k : NoticeKind) (p : Nat) (t : Option Tag) : (s.notice st k p t).chain = s.chain := by rw [notice_mesh]
@[simp] theorem notice_reads (st : Nat) (k : NoticeKind) (p : Nat) (t : Option Tag) : (s.notice st k p t).reads = s.reads := by rw [notice_mesh]
@[simp] theorem notice_bucket (st : Nat) (k : NoticeKind) (p : Nat) (t : Option Tag) : (s.notice st k p t).bucket = s.bucket := by rw [notice_mesh]
@[simp] theorem notice_hbpCk (st : Nat) (k : NoticeKind) (p : Nat) (t : Option Tag) : (s.notice st k p t).hbpCk = s.hbpCk := by rw [notice_mesh]
@[simp] theorem notice_probe (st : Nat) (k : NoticeKind) (p : Nat) (t : Option Tag) : (s.notice st k p t).probe = s.probe := by rw [notice_mesh]
@[simp] theorem notice_segs (st : Nat) (k : NoticeKind) (p : Nat) (t : Option Tag) : (s.notice st k p t).segs = s.segs := by rw [notice_mesh]
@[simp] theorem notice_host (st : Nat) (k : NoticeKind) (p : Nat) (t : Option Tag) : (s.notice st k p t).host = s.host := by rw [notice_mesh]
@[simp] theorem notice_gov (st : Nat) (k : NoticeKind) (p : Nat) (t : Option Tag) : (s.notice st k p t).gov = s.gov := by rw [notice_mesh]
@[simp] theorem notice_ingest (st : Nat) (k : NoticeKind) (p : Nat) (t : Option Tag) : (s.notice st k p t).ingest = s.ingest := by rw [notice_mesh]
@[simp] theorem notice_eng (st : Nat) (k : NoticeKind) (p : Nat) (t : Option Tag) : (s.notice st k p t).eng = s.eng := by rw [notice_mesh]
@[simp] theorem notice_boot (st : Nat) (k : NoticeKind) (p : Nat) (t : Option Tag) : (s.notice st k p t).boot = s.boot := by rw [notice_mesh]
@[simp] theorem notice_pwr (st : Nat) (k : NoticeKind) (p : Nat) (t : Option Tag) : (s.notice st k p t).pwr = s.pwr := by rw [notice_mesh]
@[simp] theorem notice_rhz (st : Nat) (k : NoticeKind) (p : Nat) (t : Option Tag) : (s.notice st k p t).rhz = s.rhz := by rw [notice_mesh]
@[simp] theorem notice_cap (st : Nat) (k : NoticeKind) (p : Nat) (t : Option Tag) : (s.notice st k p t).cap = s.cap := by rw [notice_mesh]
@[simp] theorem notice_link (st : Nat) (k : NoticeKind) (p : Nat) (t : Option Tag) : (s.notice st k p t).link = s.link := by rw [notice_mesh]
@[simp] theorem notice_dbg (st : Nat) (k : NoticeKind) (p : Nat) (t : Option Tag) : (s.notice st k p t).dbg = s.dbg := by rw [notice_mesh]
@[simp] theorem notice_free (st : Nat) (k : NoticeKind) (p : Nat) (t : Option Tag) : (s.notice st k p t).free = s.free := by rw [notice_mesh]
@[simp] theorem notice_pending (st : Nat) (k : NoticeKind) (p : Nat) (t : Option Tag) : (s.notice st k p t).pending = s.pending := by rw [notice_mesh]

/-! ## sync1 -/

@[simp] theorem sync1_regs (m : SyncMsg) : (s.sync1 m).regs = s.regs := rfl
@[simp] theorem sync1_time (m : SyncMsg) : (s.sync1 m).time = s.time := rfl
@[simp] theorem sync1_ck (m : SyncMsg) : (s.sync1 m).ck = s.ck := rfl
@[simp] theorem sync1_out (m : SyncMsg) : (s.sync1 m).out = s.out := rfl
@[simp] theorem sync1_hbm (m : SyncMsg) : (s.sync1 m).hbm = s.hbm := rfl
@[simp] theorem sync1_hostMem (m : SyncMsg) : (s.sync1 m).hostMem = s.hostMem := rfl
@[simp] theorem sync1_pmem (m : SyncMsg) : (s.sync1 m).pmem = s.pmem := rfl
@[simp] theorem sync1_sched (m : SyncMsg) : (s.sync1 m).sched = s.sched := rfl
@[simp] theorem sync1_lq (m : SyncMsg) : (s.sync1 m).lq = s.lq := rfl
@[simp] theorem sync1_mon (m : SyncMsg) : (s.sync1 m).mon = s.mon := rfl
@[simp] theorem sync1_pair (m : SyncMsg) : (s.sync1 m).pair = s.pair := rfl
@[simp] theorem sync1_at (m : SyncMsg) : (s.sync1 m).at_ = s.at_ := rfl
@[simp] theorem sync1_mt (m : SyncMsg) : (s.sync1 m).mt = s.mt := rfl
@[simp] theorem sync1_sft (m : SyncMsg) : (s.sync1 m).sft = s.sft := rfl
@[simp] theorem sync1_flows (m : SyncMsg) : (s.sync1 m).flows = s.flows := rfl
@[simp] theorem sync1_txq (m : SyncMsg) : (s.sync1 m).txq = s.txq := rfl
@[simp] theorem sync1_trace (m : SyncMsg) : (s.sync1 m).trace = s.trace := rfl
@[simp] theorem sync1_sync (m : SyncMsg) : (s.sync1 m).sync = s.sync := rfl
@[simp] theorem sync1_notices (m : SyncMsg) : (s.sync1 m).notices = s.notices := rfl
@[simp] theorem sync1_events (m : SyncMsg) : (s.sync1 m).events = s.events := rfl
@[simp] theorem sync1_chain (m : SyncMsg) : (s.sync1 m).chain = s.chain := rfl
@[simp] theorem sync1_reads (m : SyncMsg) : (s.sync1 m).reads = s.reads := rfl
@[simp] theorem sync1_bucket (m : SyncMsg) : (s.sync1 m).bucket = s.bucket := rfl
@[simp] theorem sync1_hbpCk (m : SyncMsg) : (s.sync1 m).hbpCk = s.hbpCk := rfl
@[simp] theorem sync1_probe (m : SyncMsg) : (s.sync1 m).probe = s.probe := rfl
@[simp] theorem sync1_segs (m : SyncMsg) : (s.sync1 m).segs = s.segs := rfl
@[simp] theorem sync1_host (m : SyncMsg) : (s.sync1 m).host = s.host := rfl
@[simp] theorem sync1_gov (m : SyncMsg) : (s.sync1 m).gov = s.gov := rfl
@[simp] theorem sync1_ingest (m : SyncMsg) : (s.sync1 m).ingest = s.ingest := rfl
@[simp] theorem sync1_eng (m : SyncMsg) : (s.sync1 m).eng = s.eng := rfl
@[simp] theorem sync1_boot (m : SyncMsg) : (s.sync1 m).boot = s.boot := rfl
@[simp] theorem sync1_pwr (m : SyncMsg) : (s.sync1 m).pwr = s.pwr := rfl
@[simp] theorem sync1_rhz (m : SyncMsg) : (s.sync1 m).rhz = s.rhz := rfl
@[simp] theorem sync1_cap (m : SyncMsg) : (s.sync1 m).cap = s.cap := rfl
@[simp] theorem sync1_link (m : SyncMsg) : (s.sync1 m).link = s.link := rfl
@[simp] theorem sync1_dbg (m : SyncMsg) : (s.sync1 m).dbg = s.dbg := rfl
@[simp] theorem sync1_free (m : SyncMsg) : (s.sync1 m).free = s.free := rfl
@[simp] theorem sync1_pending (m : SyncMsg) : (s.sync1 m).pending = s.pending := rfl

/-! ## bump -/

@[simp] theorem bump_regs : (s.bump).regs = s.regs := rfl
@[simp] theorem bump_time : (s.bump).time = s.time := rfl
@[simp] theorem bump_ck : (s.bump).ck = s.ck := rfl
@[simp] theorem bump_out : (s.bump).out = s.out := rfl
@[simp] theorem bump_hbm : (s.bump).hbm = s.hbm := rfl
@[simp] theorem bump_hostMem : (s.bump).hostMem = s.hostMem := rfl
@[simp] theorem bump_pmem : (s.bump).pmem = s.pmem := rfl
@[simp] theorem bump_sched : (s.bump).sched = s.sched := rfl
@[simp] theorem bump_lq : (s.bump).lq = s.lq := rfl
@[simp] theorem bump_mon : (s.bump).mon = s.mon := rfl
@[simp] theorem bump_pair : (s.bump).pair = s.pair := rfl
@[simp] theorem bump_at : (s.bump).at_ = s.at_ := rfl
@[simp] theorem bump_mt : (s.bump).mt = s.mt := rfl
@[simp] theorem bump_sft : (s.bump).sft = s.sft := rfl
@[simp] theorem bump_mesh : (s.bump).mesh = s.mesh := rfl
@[simp] theorem bump_flows : (s.bump).flows = s.flows := rfl
@[simp] theorem bump_txq : (s.bump).txq = s.txq := rfl
@[simp] theorem bump_trace : (s.bump).trace = s.trace := rfl
@[simp] theorem bump_sync : (s.bump).sync = s.sync := rfl
@[simp] theorem bump_notices : (s.bump).notices = s.notices := rfl
@[simp] theorem bump_events : (s.bump).events = s.events := rfl
@[simp] theorem bump_chain : (s.bump).chain = s.chain := rfl
@[simp] theorem bump_reads : (s.bump).reads = s.reads := rfl
@[simp] theorem bump_bucket : (s.bump).bucket = s.bucket := rfl
@[simp] theorem bump_hbpCk : (s.bump).hbpCk = s.hbpCk := rfl
@[simp] theorem bump_probe : (s.bump).probe = s.probe := rfl
@[simp] theorem bump_segs : (s.bump).segs = s.segs := rfl
@[simp] theorem bump_host : (s.bump).host = s.host := rfl
@[simp] theorem bump_gov : (s.bump).gov = s.gov := rfl
@[simp] theorem bump_ingest : (s.bump).ingest = s.ingest := rfl
@[simp] theorem bump_eng : (s.bump).eng = s.eng := rfl
@[simp] theorem bump_boot : (s.bump).boot = s.boot := rfl
@[simp] theorem bump_pwr : (s.bump).pwr = s.pwr := rfl
@[simp] theorem bump_rhz : (s.bump).rhz = s.rhz := rfl
@[simp] theorem bump_cap : (s.bump).cap = s.cap := rfl
@[simp] theorem bump_link : (s.bump).link = s.link := rfl
@[simp] theorem bump_dbg : (s.bump).dbg = s.dbg := rfl
@[simp] theorem bump_pending : (s.bump).pending = s.pending := rfl

/-! ## setSch -/

@[simp] theorem setSch_regs (st : Nat) (x : Sched) : (s.setSch st x).regs = s.regs := rfl
@[simp] theorem setSch_time (st : Nat) (x : Sched) : (s.setSch st x).time = s.time := rfl
@[simp] theorem setSch_ck (st : Nat) (x : Sched) : (s.setSch st x).ck = s.ck := rfl
@[simp] theorem setSch_out (st : Nat) (x : Sched) : (s.setSch st x).out = s.out := rfl
@[simp] theorem setSch_hbm (st : Nat) (x : Sched) : (s.setSch st x).hbm = s.hbm := rfl
@[simp] theorem setSch_hostMem (st : Nat) (x : Sched) : (s.setSch st x).hostMem = s.hostMem := rfl
@[simp] theorem setSch_pmem (st : Nat) (x : Sched) : (s.setSch st x).pmem = s.pmem := rfl
@[simp] theorem setSch_lq (st : Nat) (x : Sched) : (s.setSch st x).lq = s.lq := rfl
@[simp] theorem setSch_mon (st : Nat) (x : Sched) : (s.setSch st x).mon = s.mon := rfl
@[simp] theorem setSch_pair (st : Nat) (x : Sched) : (s.setSch st x).pair = s.pair := rfl
@[simp] theorem setSch_at (st : Nat) (x : Sched) : (s.setSch st x).at_ = s.at_ := rfl
@[simp] theorem setSch_mt (st : Nat) (x : Sched) : (s.setSch st x).mt = s.mt := rfl
@[simp] theorem setSch_sft (st : Nat) (x : Sched) : (s.setSch st x).sft = s.sft := rfl
@[simp] theorem setSch_mesh (st : Nat) (x : Sched) : (s.setSch st x).mesh = s.mesh := rfl
@[simp] theorem setSch_flows (st : Nat) (x : Sched) : (s.setSch st x).flows = s.flows := rfl
@[simp] theorem setSch_txq (st : Nat) (x : Sched) : (s.setSch st x).txq = s.txq := rfl
@[simp] theorem setSch_trace (st : Nat) (x : Sched) : (s.setSch st x).trace = s.trace := rfl
@[simp] theorem setSch_sync (st : Nat) (x : Sched) : (s.setSch st x).sync = s.sync := rfl
@[simp] theorem setSch_notices (st : Nat) (x : Sched) : (s.setSch st x).notices = s.notices := rfl
@[simp] theorem setSch_events (st : Nat) (x : Sched) : (s.setSch st x).events = s.events := rfl
@[simp] theorem setSch_chain (st : Nat) (x : Sched) : (s.setSch st x).chain = s.chain := rfl
@[simp] theorem setSch_reads (st : Nat) (x : Sched) : (s.setSch st x).reads = s.reads := rfl
@[simp] theorem setSch_bucket (st : Nat) (x : Sched) : (s.setSch st x).bucket = s.bucket := rfl
@[simp] theorem setSch_hbpCk (st : Nat) (x : Sched) : (s.setSch st x).hbpCk = s.hbpCk := rfl
@[simp] theorem setSch_probe (st : Nat) (x : Sched) : (s.setSch st x).probe = s.probe := rfl
@[simp] theorem setSch_segs (st : Nat) (x : Sched) : (s.setSch st x).segs = s.segs := rfl
@[simp] theorem setSch_host (st : Nat) (x : Sched) : (s.setSch st x).host = s.host := rfl
@[simp] theorem setSch_gov (st : Nat) (x : Sched) : (s.setSch st x).gov = s.gov := rfl
@[simp] theorem setSch_ingest (st : Nat) (x : Sched) : (s.setSch st x).ingest = s.ingest := rfl
@[simp] theorem setSch_eng (st : Nat) (x : Sched) : (s.setSch st x).eng = s.eng := rfl
@[simp] theorem setSch_boot (st : Nat) (x : Sched) : (s.setSch st x).boot = s.boot := rfl
@[simp] theorem setSch_pwr (st : Nat) (x : Sched) : (s.setSch st x).pwr = s.pwr := rfl
@[simp] theorem setSch_rhz (st : Nat) (x : Sched) : (s.setSch st x).rhz = s.rhz := rfl
@[simp] theorem setSch_cap (st : Nat) (x : Sched) : (s.setSch st x).cap = s.cap := rfl
@[simp] theorem setSch_link (st : Nat) (x : Sched) : (s.setSch st x).link = s.link := rfl
@[simp] theorem setSch_dbg (st : Nat) (x : Sched) : (s.setSch st x).dbg = s.dbg := rfl
@[simp] theorem setSch_free (st : Nat) (x : Sched) : (s.setSch st x).free = s.free := rfl
@[simp] theorem setSch_pending (st : Nat) (x : Sched) : (s.setSch st x).pending = s.pending := rfl

/-! ## setAt -/

@[simp] theorem setAt_regs (st : Nat) (x : At) : (s.setAt st x).regs = s.regs := rfl
@[simp] theorem setAt_time (st : Nat) (x : At) : (s.setAt st x).time = s.time := rfl
@[simp] theorem setAt_ck (st : Nat) (x : At) : (s.setAt st x).ck = s.ck := rfl
@[simp] theorem setAt_out (st : Nat) (x : At) : (s.setAt st x).out = s.out := rfl
@[simp] theorem setAt_hbm (st : Nat) (x : At) : (s.setAt st x).hbm = s.hbm := rfl
@[simp] theorem setAt_hostMem (st : Nat) (x : At) : (s.setAt st x).hostMem = s.hostMem := rfl
@[simp] theorem setAt_pmem (st : Nat) (x : At) : (s.setAt st x).pmem = s.pmem := rfl
@[simp] theorem setAt_sched (st : Nat) (x : At) : (s.setAt st x).sched = s.sched := rfl
@[simp] theorem setAt_lq (st : Nat) (x : At) : (s.setAt st x).lq = s.lq := rfl
@[simp] theorem setAt_mon (st : Nat) (x : At) : (s.setAt st x).mon = s.mon := rfl
@[simp] theorem setAt_pair (st : Nat) (x : At) : (s.setAt st x).pair = s.pair := rfl
@[simp] theorem setAt_mt (st : Nat) (x : At) : (s.setAt st x).mt = s.mt := rfl
@[simp] theorem setAt_sft (st : Nat) (x : At) : (s.setAt st x).sft = s.sft := rfl
@[simp] theorem setAt_mesh (st : Nat) (x : At) : (s.setAt st x).mesh = s.mesh := rfl
@[simp] theorem setAt_flows (st : Nat) (x : At) : (s.setAt st x).flows = s.flows := rfl
@[simp] theorem setAt_txq (st : Nat) (x : At) : (s.setAt st x).txq = s.txq := rfl
@[simp] theorem setAt_trace (st : Nat) (x : At) : (s.setAt st x).trace = s.trace := rfl
@[simp] theorem setAt_sync (st : Nat) (x : At) : (s.setAt st x).sync = s.sync := rfl
@[simp] theorem setAt_notices (st : Nat) (x : At) : (s.setAt st x).notices = s.notices := rfl
@[simp] theorem setAt_events (st : Nat) (x : At) : (s.setAt st x).events = s.events := rfl
@[simp] theorem setAt_chain (st : Nat) (x : At) : (s.setAt st x).chain = s.chain := rfl
@[simp] theorem setAt_reads (st : Nat) (x : At) : (s.setAt st x).reads = s.reads := rfl
@[simp] theorem setAt_bucket (st : Nat) (x : At) : (s.setAt st x).bucket = s.bucket := rfl
@[simp] theorem setAt_hbpCk (st : Nat) (x : At) : (s.setAt st x).hbpCk = s.hbpCk := rfl
@[simp] theorem setAt_probe (st : Nat) (x : At) : (s.setAt st x).probe = s.probe := rfl
@[simp] theorem setAt_segs (st : Nat) (x : At) : (s.setAt st x).segs = s.segs := rfl
@[simp] theorem setAt_host (st : Nat) (x : At) : (s.setAt st x).host = s.host := rfl
@[simp] theorem setAt_gov (st : Nat) (x : At) : (s.setAt st x).gov = s.gov := rfl
@[simp] theorem setAt_ingest (st : Nat) (x : At) : (s.setAt st x).ingest = s.ingest := rfl
@[simp] theorem setAt_eng (st : Nat) (x : At) : (s.setAt st x).eng = s.eng := rfl
@[simp] theorem setAt_boot (st : Nat) (x : At) : (s.setAt st x).boot = s.boot := rfl
@[simp] theorem setAt_pwr (st : Nat) (x : At) : (s.setAt st x).pwr = s.pwr := rfl
@[simp] theorem setAt_rhz (st : Nat) (x : At) : (s.setAt st x).rhz = s.rhz := rfl
@[simp] theorem setAt_cap (st : Nat) (x : At) : (s.setAt st x).cap = s.cap := rfl
@[simp] theorem setAt_link (st : Nat) (x : At) : (s.setAt st x).link = s.link := rfl
@[simp] theorem setAt_dbg (st : Nat) (x : At) : (s.setAt st x).dbg = s.dbg := rfl
@[simp] theorem setAt_free (st : Nat) (x : At) : (s.setAt st x).free = s.free := rfl
@[simp] theorem setAt_pending (st : Nat) (x : At) : (s.setAt st x).pending = s.pending := rfl

/-! ## setMt -/

@[simp] theorem setMt_regs (st : Nat) (x : Mt) : (s.setMt st x).regs = s.regs := rfl
@[simp] theorem setMt_time (st : Nat) (x : Mt) : (s.setMt st x).time = s.time := rfl
@[simp] theorem setMt_ck (st : Nat) (x : Mt) : (s.setMt st x).ck = s.ck := rfl
@[simp] theorem setMt_out (st : Nat) (x : Mt) : (s.setMt st x).out = s.out := rfl
@[simp] theorem setMt_hbm (st : Nat) (x : Mt) : (s.setMt st x).hbm = s.hbm := rfl
@[simp] theorem setMt_hostMem (st : Nat) (x : Mt) : (s.setMt st x).hostMem = s.hostMem := rfl
@[simp] theorem setMt_pmem (st : Nat) (x : Mt) : (s.setMt st x).pmem = s.pmem := rfl
@[simp] theorem setMt_sched (st : Nat) (x : Mt) : (s.setMt st x).sched = s.sched := rfl
@[simp] theorem setMt_lq (st : Nat) (x : Mt) : (s.setMt st x).lq = s.lq := rfl
@[simp] theorem setMt_mon (st : Nat) (x : Mt) : (s.setMt st x).mon = s.mon := rfl
@[simp] theorem setMt_pair (st : Nat) (x : Mt) : (s.setMt st x).pair = s.pair := rfl
@[simp] theorem setMt_at (st : Nat) (x : Mt) : (s.setMt st x).at_ = s.at_ := rfl
@[simp] theorem setMt_sft (st : Nat) (x : Mt) : (s.setMt st x).sft = s.sft := rfl
@[simp] theorem setMt_mesh (st : Nat) (x : Mt) : (s.setMt st x).mesh = s.mesh := rfl
@[simp] theorem setMt_flows (st : Nat) (x : Mt) : (s.setMt st x).flows = s.flows := rfl
@[simp] theorem setMt_txq (st : Nat) (x : Mt) : (s.setMt st x).txq = s.txq := rfl
@[simp] theorem setMt_trace (st : Nat) (x : Mt) : (s.setMt st x).trace = s.trace := rfl
@[simp] theorem setMt_sync (st : Nat) (x : Mt) : (s.setMt st x).sync = s.sync := rfl
@[simp] theorem setMt_notices (st : Nat) (x : Mt) : (s.setMt st x).notices = s.notices := rfl
@[simp] theorem setMt_events (st : Nat) (x : Mt) : (s.setMt st x).events = s.events := rfl
@[simp] theorem setMt_chain (st : Nat) (x : Mt) : (s.setMt st x).chain = s.chain := rfl
@[simp] theorem setMt_reads (st : Nat) (x : Mt) : (s.setMt st x).reads = s.reads := rfl
@[simp] theorem setMt_bucket (st : Nat) (x : Mt) : (s.setMt st x).bucket = s.bucket := rfl
@[simp] theorem setMt_hbpCk (st : Nat) (x : Mt) : (s.setMt st x).hbpCk = s.hbpCk := rfl
@[simp] theorem setMt_probe (st : Nat) (x : Mt) : (s.setMt st x).probe = s.probe := rfl
@[simp] theorem setMt_segs (st : Nat) (x : Mt) : (s.setMt st x).segs = s.segs := rfl
@[simp] theorem setMt_host (st : Nat) (x : Mt) : (s.setMt st x).host = s.host := rfl
@[simp] theorem setMt_gov (st : Nat) (x : Mt) : (s.setMt st x).gov = s.gov := rfl
@[simp] theorem setMt_ingest (st : Nat) (x : Mt) : (s.setMt st x).ingest = s.ingest := rfl
@[simp] theorem setMt_eng (st : Nat) (x : Mt) : (s.setMt st x).eng = s.eng := rfl
@[simp] theorem setMt_boot (st : Nat) (x : Mt) : (s.setMt st x).boot = s.boot := rfl
@[simp] theorem setMt_pwr (st : Nat) (x : Mt) : (s.setMt st x).pwr = s.pwr := rfl
@[simp] theorem setMt_rhz (st : Nat) (x : Mt) : (s.setMt st x).rhz = s.rhz := rfl
@[simp] theorem setMt_cap (st : Nat) (x : Mt) : (s.setMt st x).cap = s.cap := rfl
@[simp] theorem setMt_link (st : Nat) (x : Mt) : (s.setMt st x).link = s.link := rfl
@[simp] theorem setMt_dbg (st : Nat) (x : Mt) : (s.setMt st x).dbg = s.dbg := rfl
@[simp] theorem setMt_free (st : Nat) (x : Mt) : (s.setMt st x).free = s.free := rfl
@[simp] theorem setMt_pending (st : Nat) (x : Mt) : (s.setMt st x).pending = s.pending := rfl

/-! ## setSft -/

@[simp] theorem setSft_regs (st : Nat) (x : Sft) : (s.setSft st x).regs = s.regs := rfl
@[simp] theorem setSft_time (st : Nat) (x : Sft) : (s.setSft st x).time = s.time := rfl
@[simp] theorem setSft_ck (st : Nat) (x : Sft) : (s.setSft st x).ck = s.ck := rfl
@[simp] theorem setSft_out (st : Nat) (x : Sft) : (s.setSft st x).out = s.out := rfl
@[simp] theorem setSft_hbm (st : Nat) (x : Sft) : (s.setSft st x).hbm = s.hbm := rfl
@[simp] theorem setSft_hostMem (st : Nat) (x : Sft) : (s.setSft st x).hostMem = s.hostMem := rfl
@[simp] theorem setSft_pmem (st : Nat) (x : Sft) : (s.setSft st x).pmem = s.pmem := rfl
@[simp] theorem setSft_sched (st : Nat) (x : Sft) : (s.setSft st x).sched = s.sched := rfl
@[simp] theorem setSft_lq (st : Nat) (x : Sft) : (s.setSft st x).lq = s.lq := rfl
@[simp] theorem setSft_mon (st : Nat) (x : Sft) : (s.setSft st x).mon = s.mon := rfl
@[simp] theorem setSft_pair (st : Nat) (x : Sft) : (s.setSft st x).pair = s.pair := rfl
@[simp] theorem setSft_at (st : Nat) (x : Sft) : (s.setSft st x).at_ = s.at_ := rfl
@[simp] theorem setSft_mt (st : Nat) (x : Sft) : (s.setSft st x).mt = s.mt := rfl
@[simp] theorem setSft_mesh (st : Nat) (x : Sft) : (s.setSft st x).mesh = s.mesh := rfl
@[simp] theorem setSft_flows (st : Nat) (x : Sft) : (s.setSft st x).flows = s.flows := rfl
@[simp] theorem setSft_txq (st : Nat) (x : Sft) : (s.setSft st x).txq = s.txq := rfl
@[simp] theorem setSft_trace (st : Nat) (x : Sft) : (s.setSft st x).trace = s.trace := rfl
@[simp] theorem setSft_sync (st : Nat) (x : Sft) : (s.setSft st x).sync = s.sync := rfl
@[simp] theorem setSft_notices (st : Nat) (x : Sft) : (s.setSft st x).notices = s.notices := rfl
@[simp] theorem setSft_events (st : Nat) (x : Sft) : (s.setSft st x).events = s.events := rfl
@[simp] theorem setSft_chain (st : Nat) (x : Sft) : (s.setSft st x).chain = s.chain := rfl
@[simp] theorem setSft_reads (st : Nat) (x : Sft) : (s.setSft st x).reads = s.reads := rfl
@[simp] theorem setSft_bucket (st : Nat) (x : Sft) : (s.setSft st x).bucket = s.bucket := rfl
@[simp] theorem setSft_hbpCk (st : Nat) (x : Sft) : (s.setSft st x).hbpCk = s.hbpCk := rfl
@[simp] theorem setSft_probe (st : Nat) (x : Sft) : (s.setSft st x).probe = s.probe := rfl
@[simp] theorem setSft_segs (st : Nat) (x : Sft) : (s.setSft st x).segs = s.segs := rfl
@[simp] theorem setSft_host (st : Nat) (x : Sft) : (s.setSft st x).host = s.host := rfl
@[simp] theorem setSft_gov (st : Nat) (x : Sft) : (s.setSft st x).gov = s.gov := rfl
@[simp] theorem setSft_ingest (st : Nat) (x : Sft) : (s.setSft st x).ingest = s.ingest := rfl
@[simp] theorem setSft_eng (st : Nat) (x : Sft) : (s.setSft st x).eng = s.eng := rfl
@[simp] theorem setSft_boot (st : Nat) (x : Sft) : (s.setSft st x).boot = s.boot := rfl
@[simp] theorem setSft_pwr (st : Nat) (x : Sft) : (s.setSft st x).pwr = s.pwr := rfl
@[simp] theorem setSft_rhz (st : Nat) (x : Sft) : (s.setSft st x).rhz = s.rhz := rfl
@[simp] theorem setSft_cap (st : Nat) (x : Sft) : (s.setSft st x).cap = s.cap := rfl
@[simp] theorem setSft_link (st : Nat) (x : Sft) : (s.setSft st x).link = s.link := rfl
@[simp] theorem setSft_dbg (st : Nat) (x : Sft) : (s.setSft st x).dbg = s.dbg := rfl
@[simp] theorem setSft_free (st : Nat) (x : Sft) : (s.setSft st x).free = s.free := rfl
@[simp] theorem setSft_pending (st : Nat) (x : Sft) : (s.setSft st x).pending = s.pending := rfl

/-! ## setLq -/

@[simp] theorem setLq_regs (st q : Nat) (x : LandQ) : (s.setLq st q x).regs = s.regs := rfl
@[simp] theorem setLq_time (st q : Nat) (x : LandQ) : (s.setLq st q x).time = s.time := rfl
@[simp] theorem setLq_ck (st q : Nat) (x : LandQ) : (s.setLq st q x).ck = s.ck := rfl
@[simp] theorem setLq_out (st q : Nat) (x : LandQ) : (s.setLq st q x).out = s.out := rfl
@[simp] theorem setLq_hbm (st q : Nat) (x : LandQ) : (s.setLq st q x).hbm = s.hbm := rfl
@[simp] theorem setLq_hostMem (st q : Nat) (x : LandQ) : (s.setLq st q x).hostMem = s.hostMem := rfl
@[simp] theorem setLq_pmem (st q : Nat) (x : LandQ) : (s.setLq st q x).pmem = s.pmem := rfl
@[simp] theorem setLq_sched (st q : Nat) (x : LandQ) : (s.setLq st q x).sched = s.sched := rfl
@[simp] theorem setLq_mon (st q : Nat) (x : LandQ) : (s.setLq st q x).mon = s.mon := rfl
@[simp] theorem setLq_pair (st q : Nat) (x : LandQ) : (s.setLq st q x).pair = s.pair := rfl
@[simp] theorem setLq_at (st q : Nat) (x : LandQ) : (s.setLq st q x).at_ = s.at_ := rfl
@[simp] theorem setLq_mt (st q : Nat) (x : LandQ) : (s.setLq st q x).mt = s.mt := rfl
@[simp] theorem setLq_sft (st q : Nat) (x : LandQ) : (s.setLq st q x).sft = s.sft := rfl
@[simp] theorem setLq_mesh (st q : Nat) (x : LandQ) : (s.setLq st q x).mesh = s.mesh := rfl
@[simp] theorem setLq_flows (st q : Nat) (x : LandQ) : (s.setLq st q x).flows = s.flows := rfl
@[simp] theorem setLq_txq (st q : Nat) (x : LandQ) : (s.setLq st q x).txq = s.txq := rfl
@[simp] theorem setLq_trace (st q : Nat) (x : LandQ) : (s.setLq st q x).trace = s.trace := rfl
@[simp] theorem setLq_sync (st q : Nat) (x : LandQ) : (s.setLq st q x).sync = s.sync := rfl
@[simp] theorem setLq_notices (st q : Nat) (x : LandQ) : (s.setLq st q x).notices = s.notices := rfl
@[simp] theorem setLq_events (st q : Nat) (x : LandQ) : (s.setLq st q x).events = s.events := rfl
@[simp] theorem setLq_chain (st q : Nat) (x : LandQ) : (s.setLq st q x).chain = s.chain := rfl
@[simp] theorem setLq_reads (st q : Nat) (x : LandQ) : (s.setLq st q x).reads = s.reads := rfl
@[simp] theorem setLq_bucket (st q : Nat) (x : LandQ) : (s.setLq st q x).bucket = s.bucket := rfl
@[simp] theorem setLq_hbpCk (st q : Nat) (x : LandQ) : (s.setLq st q x).hbpCk = s.hbpCk := rfl
@[simp] theorem setLq_probe (st q : Nat) (x : LandQ) : (s.setLq st q x).probe = s.probe := rfl
@[simp] theorem setLq_segs (st q : Nat) (x : LandQ) : (s.setLq st q x).segs = s.segs := rfl
@[simp] theorem setLq_host (st q : Nat) (x : LandQ) : (s.setLq st q x).host = s.host := rfl
@[simp] theorem setLq_gov (st q : Nat) (x : LandQ) : (s.setLq st q x).gov = s.gov := rfl
@[simp] theorem setLq_ingest (st q : Nat) (x : LandQ) : (s.setLq st q x).ingest = s.ingest := rfl
@[simp] theorem setLq_eng (st q : Nat) (x : LandQ) : (s.setLq st q x).eng = s.eng := rfl
@[simp] theorem setLq_boot (st q : Nat) (x : LandQ) : (s.setLq st q x).boot = s.boot := rfl
@[simp] theorem setLq_pwr (st q : Nat) (x : LandQ) : (s.setLq st q x).pwr = s.pwr := rfl
@[simp] theorem setLq_rhz (st q : Nat) (x : LandQ) : (s.setLq st q x).rhz = s.rhz := rfl
@[simp] theorem setLq_cap (st q : Nat) (x : LandQ) : (s.setLq st q x).cap = s.cap := rfl
@[simp] theorem setLq_link (st q : Nat) (x : LandQ) : (s.setLq st q x).link = s.link := rfl
@[simp] theorem setLq_dbg (st q : Nat) (x : LandQ) : (s.setLq st q x).dbg = s.dbg := rfl
@[simp] theorem setLq_free (st q : Nat) (x : LandQ) : (s.setLq st q x).free = s.free := rfl
@[simp] theorem setLq_pending (st q : Nat) (x : LandQ) : (s.setLq st q x).pending = s.pending := rfl

/-! ## setMon -/

@[simp] theorem setMon_regs (st n : Nat) (x : Mon) : (s.setMon st n x).regs = s.regs := rfl
@[simp] theorem setMon_time (st n : Nat) (x : Mon) : (s.setMon st n x).time = s.time := rfl
@[simp] theorem setMon_ck (st n : Nat) (x : Mon) : (s.setMon st n x).ck = s.ck := rfl
@[simp] theorem setMon_out (st n : Nat) (x : Mon) : (s.setMon st n x).out = s.out := rfl
@[simp] theorem setMon_hbm (st n : Nat) (x : Mon) : (s.setMon st n x).hbm = s.hbm := rfl
@[simp] theorem setMon_hostMem (st n : Nat) (x : Mon) : (s.setMon st n x).hostMem = s.hostMem := rfl
@[simp] theorem setMon_pmem (st n : Nat) (x : Mon) : (s.setMon st n x).pmem = s.pmem := rfl
@[simp] theorem setMon_sched (st n : Nat) (x : Mon) : (s.setMon st n x).sched = s.sched := rfl
@[simp] theorem setMon_lq (st n : Nat) (x : Mon) : (s.setMon st n x).lq = s.lq := rfl
@[simp] theorem setMon_pair (st n : Nat) (x : Mon) : (s.setMon st n x).pair = s.pair := rfl
@[simp] theorem setMon_at (st n : Nat) (x : Mon) : (s.setMon st n x).at_ = s.at_ := rfl
@[simp] theorem setMon_mt (st n : Nat) (x : Mon) : (s.setMon st n x).mt = s.mt := rfl
@[simp] theorem setMon_sft (st n : Nat) (x : Mon) : (s.setMon st n x).sft = s.sft := rfl
@[simp] theorem setMon_mesh (st n : Nat) (x : Mon) : (s.setMon st n x).mesh = s.mesh := rfl
@[simp] theorem setMon_flows (st n : Nat) (x : Mon) : (s.setMon st n x).flows = s.flows := rfl
@[simp] theorem setMon_txq (st n : Nat) (x : Mon) : (s.setMon st n x).txq = s.txq := rfl
@[simp] theorem setMon_trace (st n : Nat) (x : Mon) : (s.setMon st n x).trace = s.trace := rfl
@[simp] theorem setMon_sync (st n : Nat) (x : Mon) : (s.setMon st n x).sync = s.sync := rfl
@[simp] theorem setMon_notices (st n : Nat) (x : Mon) : (s.setMon st n x).notices = s.notices := rfl
@[simp] theorem setMon_events (st n : Nat) (x : Mon) : (s.setMon st n x).events = s.events := rfl
@[simp] theorem setMon_chain (st n : Nat) (x : Mon) : (s.setMon st n x).chain = s.chain := rfl
@[simp] theorem setMon_reads (st n : Nat) (x : Mon) : (s.setMon st n x).reads = s.reads := rfl
@[simp] theorem setMon_bucket (st n : Nat) (x : Mon) : (s.setMon st n x).bucket = s.bucket := rfl
@[simp] theorem setMon_hbpCk (st n : Nat) (x : Mon) : (s.setMon st n x).hbpCk = s.hbpCk := rfl
@[simp] theorem setMon_probe (st n : Nat) (x : Mon) : (s.setMon st n x).probe = s.probe := rfl
@[simp] theorem setMon_segs (st n : Nat) (x : Mon) : (s.setMon st n x).segs = s.segs := rfl
@[simp] theorem setMon_host (st n : Nat) (x : Mon) : (s.setMon st n x).host = s.host := rfl
@[simp] theorem setMon_gov (st n : Nat) (x : Mon) : (s.setMon st n x).gov = s.gov := rfl
@[simp] theorem setMon_ingest (st n : Nat) (x : Mon) : (s.setMon st n x).ingest = s.ingest := rfl
@[simp] theorem setMon_eng (st n : Nat) (x : Mon) : (s.setMon st n x).eng = s.eng := rfl
@[simp] theorem setMon_boot (st n : Nat) (x : Mon) : (s.setMon st n x).boot = s.boot := rfl
@[simp] theorem setMon_pwr (st n : Nat) (x : Mon) : (s.setMon st n x).pwr = s.pwr := rfl
@[simp] theorem setMon_rhz (st n : Nat) (x : Mon) : (s.setMon st n x).rhz = s.rhz := rfl
@[simp] theorem setMon_cap (st n : Nat) (x : Mon) : (s.setMon st n x).cap = s.cap := rfl
@[simp] theorem setMon_link (st n : Nat) (x : Mon) : (s.setMon st n x).link = s.link := rfl
@[simp] theorem setMon_dbg (st n : Nat) (x : Mon) : (s.setMon st n x).dbg = s.dbg := rfl
@[simp] theorem setMon_free (st n : Nat) (x : Mon) : (s.setMon st n x).free = s.free := rfl
@[simp] theorem setMon_pending (st n : Nat) (x : Mon) : (s.setMon st n x).pending = s.pending := rfl

/-! ## setPair -/

@[simp] theorem setPair_regs (st : Nat) (x : Option Pairing) : (s.setPair st x).regs = s.regs := rfl
@[simp] theorem setPair_time (st : Nat) (x : Option Pairing) : (s.setPair st x).time = s.time := rfl
@[simp] theorem setPair_ck (st : Nat) (x : Option Pairing) : (s.setPair st x).ck = s.ck := rfl
@[simp] theorem setPair_out (st : Nat) (x : Option Pairing) : (s.setPair st x).out = s.out := rfl
@[simp] theorem setPair_hbm (st : Nat) (x : Option Pairing) : (s.setPair st x).hbm = s.hbm := rfl
@[simp] theorem setPair_hostMem (st : Nat) (x : Option Pairing) : (s.setPair st x).hostMem = s.hostMem := rfl
@[simp] theorem setPair_pmem (st : Nat) (x : Option Pairing) : (s.setPair st x).pmem = s.pmem := rfl
@[simp] theorem setPair_sched (st : Nat) (x : Option Pairing) : (s.setPair st x).sched = s.sched := rfl
@[simp] theorem setPair_lq (st : Nat) (x : Option Pairing) : (s.setPair st x).lq = s.lq := rfl
@[simp] theorem setPair_mon (st : Nat) (x : Option Pairing) : (s.setPair st x).mon = s.mon := rfl
@[simp] theorem setPair_at (st : Nat) (x : Option Pairing) : (s.setPair st x).at_ = s.at_ := rfl
@[simp] theorem setPair_mt (st : Nat) (x : Option Pairing) : (s.setPair st x).mt = s.mt := rfl
@[simp] theorem setPair_sft (st : Nat) (x : Option Pairing) : (s.setPair st x).sft = s.sft := rfl
@[simp] theorem setPair_mesh (st : Nat) (x : Option Pairing) : (s.setPair st x).mesh = s.mesh := rfl
@[simp] theorem setPair_flows (st : Nat) (x : Option Pairing) : (s.setPair st x).flows = s.flows := rfl
@[simp] theorem setPair_txq (st : Nat) (x : Option Pairing) : (s.setPair st x).txq = s.txq := rfl
@[simp] theorem setPair_trace (st : Nat) (x : Option Pairing) : (s.setPair st x).trace = s.trace := rfl
@[simp] theorem setPair_sync (st : Nat) (x : Option Pairing) : (s.setPair st x).sync = s.sync := rfl
@[simp] theorem setPair_notices (st : Nat) (x : Option Pairing) : (s.setPair st x).notices = s.notices := rfl
@[simp] theorem setPair_events (st : Nat) (x : Option Pairing) : (s.setPair st x).events = s.events := rfl
@[simp] theorem setPair_chain (st : Nat) (x : Option Pairing) : (s.setPair st x).chain = s.chain := rfl
@[simp] theorem setPair_reads (st : Nat) (x : Option Pairing) : (s.setPair st x).reads = s.reads := rfl
@[simp] theorem setPair_bucket (st : Nat) (x : Option Pairing) : (s.setPair st x).bucket = s.bucket := rfl
@[simp] theorem setPair_hbpCk (st : Nat) (x : Option Pairing) : (s.setPair st x).hbpCk = s.hbpCk := rfl
@[simp] theorem setPair_probe (st : Nat) (x : Option Pairing) : (s.setPair st x).probe = s.probe := rfl
@[simp] theorem setPair_segs (st : Nat) (x : Option Pairing) : (s.setPair st x).segs = s.segs := rfl
@[simp] theorem setPair_host (st : Nat) (x : Option Pairing) : (s.setPair st x).host = s.host := rfl
@[simp] theorem setPair_gov (st : Nat) (x : Option Pairing) : (s.setPair st x).gov = s.gov := rfl
@[simp] theorem setPair_ingest (st : Nat) (x : Option Pairing) : (s.setPair st x).ingest = s.ingest := rfl
@[simp] theorem setPair_eng (st : Nat) (x : Option Pairing) : (s.setPair st x).eng = s.eng := rfl
@[simp] theorem setPair_boot (st : Nat) (x : Option Pairing) : (s.setPair st x).boot = s.boot := rfl
@[simp] theorem setPair_pwr (st : Nat) (x : Option Pairing) : (s.setPair st x).pwr = s.pwr := rfl
@[simp] theorem setPair_rhz (st : Nat) (x : Option Pairing) : (s.setPair st x).rhz = s.rhz := rfl
@[simp] theorem setPair_cap (st : Nat) (x : Option Pairing) : (s.setPair st x).cap = s.cap := rfl
@[simp] theorem setPair_link (st : Nat) (x : Option Pairing) : (s.setPair st x).link = s.link := rfl
@[simp] theorem setPair_dbg (st : Nat) (x : Option Pairing) : (s.setPair st x).dbg = s.dbg := rfl
@[simp] theorem setPair_free (st : Nat) (x : Option Pairing) : (s.setPair st x).free = s.free := rfl
@[simp] theorem setPair_pending (st : Nat) (x : Option Pairing) : (s.setPair st x).pending = s.pending := rfl

/-! ## hbmPut -/

@[simp] theorem hbmPut_regs (a : Nat) (bs : List Byte) : (s.hbmPut a bs).regs = s.regs := rfl
@[simp] theorem hbmPut_time (a : Nat) (bs : List Byte) : (s.hbmPut a bs).time = s.time := rfl
@[simp] theorem hbmPut_ck (a : Nat) (bs : List Byte) : (s.hbmPut a bs).ck = s.ck := rfl
@[simp] theorem hbmPut_out (a : Nat) (bs : List Byte) : (s.hbmPut a bs).out = s.out := rfl
@[simp] theorem hbmPut_hostMem (a : Nat) (bs : List Byte) : (s.hbmPut a bs).hostMem = s.hostMem := rfl
@[simp] theorem hbmPut_pmem (a : Nat) (bs : List Byte) : (s.hbmPut a bs).pmem = s.pmem := rfl
@[simp] theorem hbmPut_sched (a : Nat) (bs : List Byte) : (s.hbmPut a bs).sched = s.sched := rfl
@[simp] theorem hbmPut_lq (a : Nat) (bs : List Byte) : (s.hbmPut a bs).lq = s.lq := rfl
@[simp] theorem hbmPut_mon (a : Nat) (bs : List Byte) : (s.hbmPut a bs).mon = s.mon := rfl
@[simp] theorem hbmPut_pair (a : Nat) (bs : List Byte) : (s.hbmPut a bs).pair = s.pair := rfl
@[simp] theorem hbmPut_at (a : Nat) (bs : List Byte) : (s.hbmPut a bs).at_ = s.at_ := rfl
@[simp] theorem hbmPut_mt (a : Nat) (bs : List Byte) : (s.hbmPut a bs).mt = s.mt := rfl
@[simp] theorem hbmPut_sft (a : Nat) (bs : List Byte) : (s.hbmPut a bs).sft = s.sft := rfl
@[simp] theorem hbmPut_mesh (a : Nat) (bs : List Byte) : (s.hbmPut a bs).mesh = s.mesh := rfl
@[simp] theorem hbmPut_flows (a : Nat) (bs : List Byte) : (s.hbmPut a bs).flows = s.flows := rfl
@[simp] theorem hbmPut_txq (a : Nat) (bs : List Byte) : (s.hbmPut a bs).txq = s.txq := rfl
@[simp] theorem hbmPut_trace (a : Nat) (bs : List Byte) : (s.hbmPut a bs).trace = s.trace := rfl
@[simp] theorem hbmPut_sync (a : Nat) (bs : List Byte) : (s.hbmPut a bs).sync = s.sync := rfl
@[simp] theorem hbmPut_notices (a : Nat) (bs : List Byte) : (s.hbmPut a bs).notices = s.notices := rfl
@[simp] theorem hbmPut_events (a : Nat) (bs : List Byte) : (s.hbmPut a bs).events = s.events := rfl
@[simp] theorem hbmPut_chain (a : Nat) (bs : List Byte) : (s.hbmPut a bs).chain = s.chain := rfl
@[simp] theorem hbmPut_reads (a : Nat) (bs : List Byte) : (s.hbmPut a bs).reads = s.reads := rfl
@[simp] theorem hbmPut_bucket (a : Nat) (bs : List Byte) : (s.hbmPut a bs).bucket = s.bucket := rfl
@[simp] theorem hbmPut_hbpCk (a : Nat) (bs : List Byte) : (s.hbmPut a bs).hbpCk = s.hbpCk := rfl
@[simp] theorem hbmPut_probe (a : Nat) (bs : List Byte) : (s.hbmPut a bs).probe = s.probe := rfl
@[simp] theorem hbmPut_segs (a : Nat) (bs : List Byte) : (s.hbmPut a bs).segs = s.segs := rfl
@[simp] theorem hbmPut_host (a : Nat) (bs : List Byte) : (s.hbmPut a bs).host = s.host := rfl
@[simp] theorem hbmPut_gov (a : Nat) (bs : List Byte) : (s.hbmPut a bs).gov = s.gov := rfl
@[simp] theorem hbmPut_ingest (a : Nat) (bs : List Byte) : (s.hbmPut a bs).ingest = s.ingest := rfl
@[simp] theorem hbmPut_eng (a : Nat) (bs : List Byte) : (s.hbmPut a bs).eng = s.eng := rfl
@[simp] theorem hbmPut_boot (a : Nat) (bs : List Byte) : (s.hbmPut a bs).boot = s.boot := rfl
@[simp] theorem hbmPut_pwr (a : Nat) (bs : List Byte) : (s.hbmPut a bs).pwr = s.pwr := rfl
@[simp] theorem hbmPut_rhz (a : Nat) (bs : List Byte) : (s.hbmPut a bs).rhz = s.rhz := rfl
@[simp] theorem hbmPut_cap (a : Nat) (bs : List Byte) : (s.hbmPut a bs).cap = s.cap := rfl
@[simp] theorem hbmPut_link (a : Nat) (bs : List Byte) : (s.hbmPut a bs).link = s.link := rfl
@[simp] theorem hbmPut_dbg (a : Nat) (bs : List Byte) : (s.hbmPut a bs).dbg = s.dbg := rfl
@[simp] theorem hbmPut_free (a : Nat) (bs : List Byte) : (s.hbmPut a bs).free = s.free := rfl
@[simp] theorem hbmPut_pending (a : Nat) (bs : List Byte) : (s.hbmPut a bs).pending = s.pending := rfl

/-! ## hostPut -/

@[simp] theorem hostPut_regs (a : Nat) (bs : List Byte) : (s.hostPut a bs).regs = s.regs := rfl
@[simp] theorem hostPut_time (a : Nat) (bs : List Byte) : (s.hostPut a bs).time = s.time := rfl
@[simp] theorem hostPut_ck (a : Nat) (bs : List Byte) : (s.hostPut a bs).ck = s.ck := rfl
@[simp] theorem hostPut_out (a : Nat) (bs : List Byte) : (s.hostPut a bs).out = s.out := rfl
@[simp] theorem hostPut_hbm (a : Nat) (bs : List Byte) : (s.hostPut a bs).hbm = s.hbm := rfl
@[simp] theorem hostPut_pmem (a : Nat) (bs : List Byte) : (s.hostPut a bs).pmem = s.pmem := rfl
@[simp] theorem hostPut_sched (a : Nat) (bs : List Byte) : (s.hostPut a bs).sched = s.sched := rfl
@[simp] theorem hostPut_lq (a : Nat) (bs : List Byte) : (s.hostPut a bs).lq = s.lq := rfl
@[simp] theorem hostPut_mon (a : Nat) (bs : List Byte) : (s.hostPut a bs).mon = s.mon := rfl
@[simp] theorem hostPut_pair (a : Nat) (bs : List Byte) : (s.hostPut a bs).pair = s.pair := rfl
@[simp] theorem hostPut_at (a : Nat) (bs : List Byte) : (s.hostPut a bs).at_ = s.at_ := rfl
@[simp] theorem hostPut_mt (a : Nat) (bs : List Byte) : (s.hostPut a bs).mt = s.mt := rfl
@[simp] theorem hostPut_sft (a : Nat) (bs : List Byte) : (s.hostPut a bs).sft = s.sft := rfl
@[simp] theorem hostPut_mesh (a : Nat) (bs : List Byte) : (s.hostPut a bs).mesh = s.mesh := rfl
@[simp] theorem hostPut_flows (a : Nat) (bs : List Byte) : (s.hostPut a bs).flows = s.flows := rfl
@[simp] theorem hostPut_txq (a : Nat) (bs : List Byte) : (s.hostPut a bs).txq = s.txq := rfl
@[simp] theorem hostPut_trace (a : Nat) (bs : List Byte) : (s.hostPut a bs).trace = s.trace := rfl
@[simp] theorem hostPut_sync (a : Nat) (bs : List Byte) : (s.hostPut a bs).sync = s.sync := rfl
@[simp] theorem hostPut_notices (a : Nat) (bs : List Byte) : (s.hostPut a bs).notices = s.notices := rfl
@[simp] theorem hostPut_events (a : Nat) (bs : List Byte) : (s.hostPut a bs).events = s.events := rfl
@[simp] theorem hostPut_chain (a : Nat) (bs : List Byte) : (s.hostPut a bs).chain = s.chain := rfl
@[simp] theorem hostPut_reads (a : Nat) (bs : List Byte) : (s.hostPut a bs).reads = s.reads := rfl
@[simp] theorem hostPut_bucket (a : Nat) (bs : List Byte) : (s.hostPut a bs).bucket = s.bucket := rfl
@[simp] theorem hostPut_hbpCk (a : Nat) (bs : List Byte) : (s.hostPut a bs).hbpCk = s.hbpCk := rfl
@[simp] theorem hostPut_probe (a : Nat) (bs : List Byte) : (s.hostPut a bs).probe = s.probe := rfl
@[simp] theorem hostPut_segs (a : Nat) (bs : List Byte) : (s.hostPut a bs).segs = s.segs := rfl
@[simp] theorem hostPut_host (a : Nat) (bs : List Byte) : (s.hostPut a bs).host = s.host := rfl
@[simp] theorem hostPut_gov (a : Nat) (bs : List Byte) : (s.hostPut a bs).gov = s.gov := rfl
@[simp] theorem hostPut_ingest (a : Nat) (bs : List Byte) : (s.hostPut a bs).ingest = s.ingest := rfl
@[simp] theorem hostPut_eng (a : Nat) (bs : List Byte) : (s.hostPut a bs).eng = s.eng := rfl
@[simp] theorem hostPut_boot (a : Nat) (bs : List Byte) : (s.hostPut a bs).boot = s.boot := rfl
@[simp] theorem hostPut_pwr (a : Nat) (bs : List Byte) : (s.hostPut a bs).pwr = s.pwr := rfl
@[simp] theorem hostPut_rhz (a : Nat) (bs : List Byte) : (s.hostPut a bs).rhz = s.rhz := rfl
@[simp] theorem hostPut_cap (a : Nat) (bs : List Byte) : (s.hostPut a bs).cap = s.cap := rfl
@[simp] theorem hostPut_link (a : Nat) (bs : List Byte) : (s.hostPut a bs).link = s.link := rfl
@[simp] theorem hostPut_dbg (a : Nat) (bs : List Byte) : (s.hostPut a bs).dbg = s.dbg := rfl
@[simp] theorem hostPut_free (a : Nat) (bs : List Byte) : (s.hostPut a bs).free = s.free := rfl
@[simp] theorem hostPut_pending (a : Nat) (bs : List Byte) : (s.hostPut a bs).pending = s.pending := rfl

/-! ## setPipe -/

@[simp] theorem setPipe_regs (p : Nat) (x : Pipe) : (s.setPipe p x).regs = s.regs := rfl
@[simp] theorem setPipe_time (p : Nat) (x : Pipe) : (s.setPipe p x).time = s.time := rfl
@[simp] theorem setPipe_ck (p : Nat) (x : Pipe) : (s.setPipe p x).ck = s.ck := rfl
@[simp] theorem setPipe_out (p : Nat) (x : Pipe) : (s.setPipe p x).out = s.out := rfl
@[simp] theorem setPipe_hbm (p : Nat) (x : Pipe) : (s.setPipe p x).hbm = s.hbm := rfl
@[simp] theorem setPipe_hostMem (p : Nat) (x : Pipe) : (s.setPipe p x).hostMem = s.hostMem := rfl
@[simp] theorem setPipe_pmem (p : Nat) (x : Pipe) : (s.setPipe p x).pmem = s.pmem := rfl
@[simp] theorem setPipe_sched (p : Nat) (x : Pipe) : (s.setPipe p x).sched = s.sched := rfl
@[simp] theorem setPipe_lq (p : Nat) (x : Pipe) : (s.setPipe p x).lq = s.lq := rfl
@[simp] theorem setPipe_mon (p : Nat) (x : Pipe) : (s.setPipe p x).mon = s.mon := rfl
@[simp] theorem setPipe_pair (p : Nat) (x : Pipe) : (s.setPipe p x).pair = s.pair := rfl
@[simp] theorem setPipe_at (p : Nat) (x : Pipe) : (s.setPipe p x).at_ = s.at_ := rfl
@[simp] theorem setPipe_mt (p : Nat) (x : Pipe) : (s.setPipe p x).mt = s.mt := rfl
@[simp] theorem setPipe_sft (p : Nat) (x : Pipe) : (s.setPipe p x).sft = s.sft := rfl
@[simp] theorem setPipe_mesh (p : Nat) (x : Pipe) : (s.setPipe p x).mesh = s.mesh := rfl
@[simp] theorem setPipe_flows (p : Nat) (x : Pipe) : (s.setPipe p x).flows = s.flows := rfl
@[simp] theorem setPipe_txq (p : Nat) (x : Pipe) : (s.setPipe p x).txq = s.txq := rfl
@[simp] theorem setPipe_trace (p : Nat) (x : Pipe) : (s.setPipe p x).trace = s.trace := rfl
@[simp] theorem setPipe_sync (p : Nat) (x : Pipe) : (s.setPipe p x).sync = s.sync := rfl
@[simp] theorem setPipe_notices (p : Nat) (x : Pipe) : (s.setPipe p x).notices = s.notices := rfl
@[simp] theorem setPipe_events (p : Nat) (x : Pipe) : (s.setPipe p x).events = s.events := rfl
@[simp] theorem setPipe_chain (p : Nat) (x : Pipe) : (s.setPipe p x).chain = s.chain := rfl
@[simp] theorem setPipe_reads (p : Nat) (x : Pipe) : (s.setPipe p x).reads = s.reads := rfl
@[simp] theorem setPipe_bucket (p : Nat) (x : Pipe) : (s.setPipe p x).bucket = s.bucket := rfl
@[simp] theorem setPipe_hbpCk (p : Nat) (x : Pipe) : (s.setPipe p x).hbpCk = s.hbpCk := rfl
@[simp] theorem setPipe_probe (p : Nat) (x : Pipe) : (s.setPipe p x).probe = s.probe := rfl
@[simp] theorem setPipe_segs (p : Nat) (x : Pipe) : (s.setPipe p x).segs = s.segs := rfl
@[simp] theorem setPipe_host (p : Nat) (x : Pipe) : (s.setPipe p x).host = s.host := rfl
@[simp] theorem setPipe_ingest (p : Nat) (x : Pipe) : (s.setPipe p x).ingest = s.ingest := rfl
@[simp] theorem setPipe_eng (p : Nat) (x : Pipe) : (s.setPipe p x).eng = s.eng := rfl
@[simp] theorem setPipe_boot (p : Nat) (x : Pipe) : (s.setPipe p x).boot = s.boot := rfl
@[simp] theorem setPipe_pwr (p : Nat) (x : Pipe) : (s.setPipe p x).pwr = s.pwr := rfl
@[simp] theorem setPipe_rhz (p : Nat) (x : Pipe) : (s.setPipe p x).rhz = s.rhz := rfl
@[simp] theorem setPipe_cap (p : Nat) (x : Pipe) : (s.setPipe p x).cap = s.cap := rfl
@[simp] theorem setPipe_link (p : Nat) (x : Pipe) : (s.setPipe p x).link = s.link := rfl
@[simp] theorem setPipe_dbg (p : Nat) (x : Pipe) : (s.setPipe p x).dbg = s.dbg := rfl
@[simp] theorem setPipe_free (p : Nat) (x : Pipe) : (s.setPipe p x).free = s.free := rfl
@[simp] theorem setPipe_pending (p : Nat) (x : Pipe) : (s.setPipe p x).pending = s.pending := rfl

end Sys2Proof.Laws
end

