-- ==== Sys2Proof/Safety.lean ====
section
/-! DEFINITION. What counts as a safe run: no step of it ends in a fault or a refusal. -/

namespace Sys2Proof

/-- A run of `k` steps reaches a state. -/
def SafeRun (s : Machine.State) (k : Nat) : Prop := ∃ t, core.run k s = .next t

end Sys2Proof
end

