-- ==== Sys2Proof/Tests/Slice0.lean ====
section
/-! SUPPORT. Tests: ill-formed commands that the check refuses, the worked examples of the manual, a command that the queue runs,
and for every clause of every statement a state and operands that meet its hypotheses together. -/

open Sys2Proof Sys2Proof.Machine Sys2Proof.Claims

namespace Sys2Proof.Tests

/-- The canonical form as a test. -/
def formB (s : State) : Bool :=
  regWf s.regs && Memory.wf s.hbm.bytes && Memory.wf s.hostMem && twf 0 s.pmem && twf {} s.sched && twf {} s.lq && twf {} s.mon &&
    twf none s.pair && twf {} s.at_ && twf {} s.mt && twf {} s.sft && twf {} s.eng && twf {} s.gov.pipes

theorem form_of (s : State) (h : formB s = true) : Form s := by
  simp only [formB, Bool.and_eq_true] at h
  obtain ⟨⟨⟨⟨⟨⟨⟨⟨⟨⟨⟨⟨a, b⟩, c⟩, d⟩, e⟩, f⟩, g⟩, i⟩, j⟩, k⟩, l⟩, m⟩, n⟩ := h
  exact ⟨a, b, c, d, e, f, g, i, j, k, l, m, n⟩

/-- A state with registers written. -/
def mk (ws : List (Nat × Word)) (s : State := {}) : State := { s with regs := ws.foldl (fun t w => regPut t w.1 w.2) s.regs }

/-! ### States, images and operands of the tests -/

set_option Elab.async false
set_option linter.unusedVariables false

/-- A bundle of a format with its repeat field, its three slots and its CTL slot (R136). -/

def bnd (f r i0 i1 i2 c : Nat) : Bundle := BitVec.ofNat 128 (f * 2 ^ 124 + r * 2 ^ 118 + i0 * 2 ^ 88 + i1 * 2 ^ 58 + i2 * 2 ^ 28 + c)

/-- A CTL slot (R145). -/

def ctl (op rest : Nat) : Nat := op * 2 ^ 24 + rest

/-- A tile that runs, with a bundle at pc 0. -/

def runs (n : Nat) (b : Bundle) (ws : List (Nat × Word) := []) (s : State := {}) : State :=
  mk ((reg n 0xD004, 1) :: ws) { s with pmem := tput 0 s.pmem (n * 4096) b }

/-- A flit of tag 5 in a landing queue. -/

def lf : LFlit := { tag := 5, payload := 0x0102 }

/-- A tile in the block of tag 5, with a flit in landing queue 0, that runs a bundle with one slot. -/

def popper (n : Nat) (b : Bundle) (ws : List (Nat × Word) := []) (s : State := {}) : State :=
  runs n b ((reg n 0x0218, 0x30005) :: ws) { s with lq := [(n * 8, { q := [lf] })] }

def cbn : Payload := payloadOf ((List.range 64).map fun i => BitVec.ofNat 8 (3*i+1))

def strmS (lim : Nat) (x : Strm) (st : Word) : State :=
  mk [(reg 32 0x2000, 0x1000), (reg 32 0x2004, 0x70000), (reg 32 0x2010, 0x04000002), (reg 32 0x1000, BitVec.ofNat 32 (lim * 65536 + 1)), (reg 32 0x2404, st)]
    { mt := if x = {} then [] else [(32, { strm := [(0, x)] })] }

def hread (adm : Bool) : FRead := { stop := 32, slot := 0, el := 0, n := 3, addr := 0x1000, key := 0, admitted := adm }

def retS : State :=
  mk [(reg 32 0x2000, 0x1000), (reg 32 0x2004, 0x40000), (reg 32 0x2010, 0x00100040), (reg 32 0x1000, 0x00100001), (reg 32 0x2404, 0x101), (0x0300040C, 1)]
    { mt := [(32, { strm := [(0, { next := 3, resvEnd := 64, resv := 1 })] })], reads := [hread true], hbm := { bytes := [(0x1000, 7), (0x1002, 9)] } }

def mflit (dst q op : Nat) : Flit :=
  { dst := dst, src := 33, rsv := true, vc := false, typ := 0, dstQ := q, op := op, tag := 5, epoch := 0, flow := 9, payload := 0x0201, hdrErr := 0, par := 0, entered := 0 }

def ringS (f : Flit) : State := mk [(reg 32 0x3100, 0x00200007), (reg 32 0x310C, 100)] { mesh := { into := [(32, f)] } }

def gb : Gather := { x0 := 64, n := 2, bytes := [(0, 7), (64, 8)], full := true, ends := false }

def gbS (x : Writer) : State := mk [(reg 32 0x3100, 0x00100501), (reg 32 0x3104, 0x11010005), (reg 32 0x3108, 0x00020003)] { mt := [(32, { wrt := [(0, x)] })] }

def bufS : State :=
  mk [(reg 32 0x2000, 0x1000), (reg 32 0x2004, 0x70000), (reg 32 0x200C, 0xC0), (reg 32 0x2010, 0x04000002), (reg 32 0x1020, 0x00100003), (reg 32 0x1030, 2), (reg 32 0x2404, 1)]
    { mt := [(32, { qx := [(1, { slots := [17, 18], tags := [3, 4] })] })] }

def spl (rest : List SpCell) : Spill :=
  { seg := 1, base := 0x2000, cells := 4, wr := 1, rd := 0, writing := { cell := 9, sent := some (5, 0x77) } :: rest, staged := [{ cell := 10 }], headLast := 3, acks := 1 }

def spr : Spill := { seg := 1, base := 0x2000, cells := 4, wr := 3, rd := 0, writing := [], staged := [], headLast := 3, entered := true, asked := 2 }

def spS (p : Spill) : State := mk [(qReg 32 3 0, 0x00800001)] { mt := [(32, { free := [7, 8], qx := [(3, { spill := some p })] })], hbm := { bytes := [(0x2040, 5), (0x2140, 0x55)] } }

def mfly (x : Flit) (stop l e : Nat) : Flying := { flit := x, stop := stop, link := l, enter := e }

def slotsS (s : State) : State := mk [(reg 33 0x0508, 0xFFFFFFFF), (reg 33 0xF000, 0x8009), (reg 34 0xF000, 0x8009), (reg 33 0xF004, 0x8009), (reg 33 0xF008, 0x8009), (reg 33 0xF00C, 0x8009), (reg 33 0xF010, 0x8009), (reg 33 0xF014, 0x8009), (reg 34 0xF010, 0x8009), (reg 34 0xF014, 0x8009)] s

def chm (grp a b n : Nat) : ChainMsg := { mtype := 0x5C, firstPos := a, lastPos := b, group := grp, wsGran := 2, ngran := n, sigEn := true, syncObj := 7, syncAdd := 3, msgId := 1, data := [(0, 5), (1023, 6)] }
/-- An unreserved flit on the last link of its way. -/

def lastHop (stop l : Nat) (u : UFlit) : UFlit := { u with stop := stop, place := .link 4 l 3 }

def trR : TraceRec := { hdr := 5, stop := 33, point := 0, ck := 9, time := 11 }

def ent (opc cid seq target pipe extra : Nat) : Payload :=
  BitVec.ofNat 512 (opc + cid * 2 ^ 16 + seq * 2 ^ 32 + (target + pipe * 256) * 2 ^ 64 + extra * 2 ^ 128)

def hc (opc : Nat) (pipe : Nat := 1) (extra : Nat := 0) : Cmd := { origin := 0, ring := 0, entry := ent opc 3 4 0 pipe extra }

def inf1 (stops : List Nat) : PipeInfo :=
  { entry := { bytes := [(0, 1), (0x1C, 8), (0x20, 2)] }, doms := [1], stops := stops, jobs := [], cams := [], regions := [], syncInit := [(9, 7)], ends := [], signals := [], skew := [], channels := false, peers := [], digest := 0 }

def pipeS (st : Nat) (x : Pipe) (ws : List (Nat × Word) := []) (cmds : List Cmd := []) : State :=
  mk ((0x00101008, 1) :: (pipeReg 1, BitVec.ofNat 32 st) :: ws)
    { host := { cmds := cmds }, gov := { pipes := tput {} [] 1 x }, boot := { started := true }, ck := 9000 }

def pS2 (x : Pipe) (ws : List (Nat × Word)) (s : State) : State :=
  mk ((0x00101008, 1) :: (pipeReg 1, 2) :: ws) { s with gov := { pipes := tput {} [] 1 x }, boot := { started := true } }

def own (n : Nat) : Nat × Word := (reg n 4, 0x80000001)

def ringS2 (kind : Nat) (ws : List (Nat × Word)) (s : State := {}) : State := mk ((ringReg kind 3 + 8, 1) :: ws) s

def rec7 : Rec := { ring := 3, data := 0x77 }

def ev (code : Nat) : Event := { code := code, stop := 33, value := 6, pipe := some 1 }

def wds (ws : List Nat) : List Byte := ws.flatMap fun w => leBytes w 4

def engS (stop : Nat) (q : List LFlit) (desc : List Nat) (j : EJob) (ws : List (Nat × Word) := []) (recs : List EngRec := []) : State :=
  mk ((jobReg stop 2 0, 0x40000003) :: (reg stop 0x0500, 0x80000221) :: (reg stop 0x0504, 7) :: ws)
    { eng := [(stop, { sram := putBytes [] 0 (wds desc), jobs := [(2, j)], recs := recs })]
      lq := if q = [] then [] else [(stop * 8, { q := q })] }

def czF : List Nat := [0, 0x00020002, 2, 0, 0x00640000, 4, 0, 0x8000, 0, 0x4000]

def czL : List Nat := [1, 0x00020002, 2, 3, 0x00640000, 4, 0, 0x8000, 0, 0x4000]

def rawI : RawIn := { frame := 1, lines := [0, 1], latest := 2, part := none, ended := true, oy := 0 }

def czJob : EJob := { granted := [0], raw := some rawI }

def lfe (op : Nat) : LFlit := { op := op, tag := 0x1005, epoch := 0, payload := 0x030201 }

def soD (fn keep : Nat) : List Nat := [fn, keep * 2 ^ 15, 0, 8, 0, 0, 0, 0, 0x8000, 0x4000]

def bx (n : Nat) (sc : Int) : Box := { num := n, score := sc, cls := 0, cx := 16, cy := 16, w := 16, h := 16, th := 0 }

def rg (fr : Nat) (cl : Option Nat) (bs ks : List Box) : Region :=
  { frame := fr, epoch := 0, cfgEpoch := 0, boxes := bs, decoded := 2, surplus := 0, cpy := 0, closed := cl, kept := ks, left := 0, pFirst := 3, pNext := 5, next := 0, fl := 0 }

def stp : Stamp := { frame := 1, camera := 0, lines := 64, time := 5, status := 0, marks := [3, 4] }

def soJob (rs : List Region) : EJob := { tag := some 0x1005, regions := rs, stamps := [stp] }

def notS : State := mk [(jobReg 418 2 0, 3)] { notices := [{ kind := .error, pipe := 1, tag := none, dst := 418 }], gov := { pipes := [(1, { info := some { inf1 [] with jobs := [{ stop := 418, slot := 2, pipe := 1, desc := 0 }] } })] } }

def dv : Dlv := { d := 1, cfg := 0x8043, cred := 0x00640009, live := true }

def frm1 : Frame := { seq := 3, cfg := 0x00400001, frm := 4, ring := 1, geom := 0x00010002, idx := 1, dlv := [{ d := 1, cfg := 0x1041, cred := 0x00640009, live := true }] }

def li0 : LineIn := { time := 5, pos := 2, vals := [(9, 0)], unsync := false }

def camS (x : Cam) (ws : List (Nat × Word) := []) : State := mk ((camReg 2 0, 0x00400001) :: (camReg 2 4, 4) :: ws) { ingest := { cams := tput {} [] 2 x } }

def fsw : FsWrite := { addr := 0x2000, data := [1, 0, 3], line := some (3, 0), last := true, final := none }

def gvb : GvBlock := { block := 7, size := 2, bytes := [], got := [] }

def gvf : GvspFrame := { mac := 0, ip := 0, udp := 0, size := 100, gvsp := true, ext := false, part := 1, image := true, block := 7, packet := 2, data := [5, 6] }

def injC : Cmd := { origin := 0, ring := 0, entry := ent 5 3 4 0 0 (2 + 2 * 2 ^ 128) }

def dsg : RhzDesign := { frames := 3, blocks := [], cells := [(5, { noCell with initQ := true })], wires := [], hops := [(1, { src := 0, reg := true, clk := 0, init := true })], rams := [], tris := [], pins := [], selects := [], trig := [], tscSrc := [], gclk := [], gclkWire := [], loadctl := 0, qcfg := [], gregOut := [], voteWires := [], refuseWires := [], capWire := 0, bankV := 0, badFrame := none }

def dsg0 : RhzDesign := { dsg with cells := [], hops := [] }
/-- The header of a signed object of this part (R445). -/

def hdrBytes (itype sv bodyLen digest : Nat) : List Byte :=
  leBytes 0x31484A54 4 ++ leBytes 1 2 ++ leBytes itype 2 ++ leBytes 0 4 ++ leBytes sv 4 ++ leBytes bodyLen 8 ++ leBytes 0 4 ++ leBytes 0x9648 2 ++
    leBytes 2 1 ++ List.replicate 17 0 ++ leBytes digest 48

def hdrOf (itype sv bodyLen digest : Nat) : Tbl Byte := putBytes [] 0 (hdrBytes itype sv bodyLen digest)

def robj : SignedObj := { header := hdrOf 2 0 64 0x55, objLen := 0x1000 + 64 + 16384, keyHash := 0, rsaOk := true, slhOk := true, digestOk := true }

def ldc : Cmd := { origin := 0, ring := 0, entry := ent 1 3 4 0 0 ((0x1000 + 64 + 16384) * 2 ^ 64 + 2 ^ 96) }

def rlod : RhzLoad := { cmd := some ldc, obj := robj, img := dsg }

def capc : Cmd := { origin := 0, ring := 0, entry := ent 9 3 4 0 0 0 }

def fabS (st : Nat) (x : RhzSt) (ws : List (Nat × Word) := []) : State :=
  mk ((0x00101008, 1) :: (0x00600000, BitVec.ofNat 32 st) :: ws) { rhz := x, boot := { started := true }, dbg := { ir := 1 } }

def nav (s : State) (d : RhzDesign) : State := s.sweep d

def cgS (st arg : Nat) (x : CapSt) (ws : List (Nat × Word) := []) : State :=
  mk ((cgwState, BitVec.ofNat 32 st) :: (0x00700004, BitVec.ofNat 32 arg) :: ws) { cap := x }

def logE : BitVec 256 := commitBits (entryBits 3 1 2 7 5 1 1 1 9 3 4)

def capWin0 : CapWin := { start := 5, check := 6, tick := 7, params := [], ctr := 1, unsealed := false, loss := false }

def pfacts : ParcelFacts :=
  { work := [.store 5 [1, 2], .sram 3 [4]], points := [{ x := 0, y := 0, z := 10 }, { x := 100, y := 0, z := 0 }, { x := 100, y := 50, z := 0 }, { x := 0, y := 50, z := 0 }], notSeparated := false, blocks := [0], words := [3] }

def cver : Verdict := { keyHash := Config.capsuleKey 0, rsaOk := true, slhOk := true, digestOk := true }

def cimg : CapImage := { size := 0x1000 + 64 + 16384, verdict := cver, version := 9, memNeed := 100, factory := [(256, 1)] }
/-- A bank of the NOR with a sound header at its start. -/

def norB (b : Nat) : Tbl Byte := ((hdrBytes 5 0 64 0x55 ++ List.replicate 4000 0).zipIdx).map fun (x : Byte × Nat) => (b * 0x400000 + x.2, x.1)
theorem capsule_ok (o : SignedObj) (k : o.keyHash = Config.capsuleKey 0) (h : objVerify o 5 true 0 = none) : capsuleVerify o = none := by
  simp [capsuleVerify, k, h]
/-- A record with its CRC. -/

def okRec : Payload := 77 + (BitVec.ofNat 512 (crc16 ((payloadBytes 77).take 60)) <<< 480)

def pgv : GvspFrame := { gvf with packet := 1, data := [1, 0, 2, 0, 3, 0, 4, 0] }

def pblk : CapBlock := { gv := { block := 7, size := 8, bytes := [], got := [] }, points := 4, lines := 2 }

def lkS (st : Nat) (x : Port := {}) (ws : List (Nat × Word) := []) (s : State := {}) : State :=
  mk ((rihReg 2 0, BitVec.ofNat 32 st) :: (0x00101008, 1) :: ws) { s with link := { s.link with ports := tput {} [] 2 x } }

def lfl (ls ty : Nat) : LinkFlit := { lseq := ls, lack := 0, ltype := ty, chan := 3, flit := { noFlit with payload := 5 }, control := none }
/-- The 640 bits of a link flit of payload 5 with an even parity in each word. -/

def lwd (ls ty : Nat) (c : Option Control := none) : LinkWord :=
  { bits := BitVec.ofNat 640 (5 + (ls + ty * 2 ^ 24 + 3 * 2 ^ 26) * 2 ^ 608), chk := 0, control := c }

def ck2 (off : Nat) : Nat := chanReg 67 off

def jc (extra : Nat) : Cmd := { origin := 0, ring := 0, entry := ent 8 3 4 0 0 extra }

def joi : JoinInfo := { devId := 5, port := 3, serial := 9, digest := 0, profile := 2, firmware := 0, protocol := Config.unstated 323 0, stepOk := false, hasUp := false, runs := false, declaredLost := false, hasLeft := false }

def org : Origin := { serial := 9, hb := 3, hops := 0, port := 2, parent := 0 }

def dflit : Flit := { noFlit with tag := 5, payload := 9 }

def dmS (d ph : Nat) (x : Pwr := {}) (ws : List (Nat × Word) := []) (s : State := {}) : State :=
  mk ((domReg d, BitVec.ofNat 32 ph) :: (domReg d + 4, 0) :: ws) { s with pwr := x, dbg := { ir := 1 } }
/-- A part at an operating point in which pipeline 1 wants 5/16 of the frequency of tile 33. -/

def isl (op : Word) : State :=
  { mk [(0x00200600, op), own 33, (pipeReg 1, 2)] with gov := { pipes := [(1, { info := some { inf1 [33] with entry := { bytes := [(0, 1), (1, 5)] } } })] } }

def bt (s : State) : State := { s with boot := { started := true } }

def sobj (ty : Nat) : SignedObj := { robj with header := hdrOf ty 7 64 0x55 }

def vobj : SignedObj := { sobj 1 with keyHash := Config.vendorKey 0 }

def obody : OwnerBody := { bytes := putBytes [] 0 (leBytes 1 4 ++ leBytes 6 4 ++ leBytes 0 8 ++ leBytes 0x77 48 ++ [1, 2, 3, 4].flatMap (fun m => leBytes m 4) ++ [3]) }

def btS (ws : List (Nat × Word)) (b : Boot := {}) (d : Dbg := {}) : State := mk ws { boot := b, dbg := d }

def tbody : TokenBody := { bytes := putBytes [] 0 (leBytes 1 4 ++ leBytes 3 4) }

/-- An image of pipeline 1 without units: its kind, the format of its manifest and its domain. -/

def limgM (kind fmt dom : Nat) : Tjl :=
  { dir := [[(0, 1)]], manifest := putBytes (putBytes [] 0x54 (leBytes 2 4)) 0 (leBytes fmt 2 ++ leBytes 1 1 ++ leBytes kind 1 ++ leBytes 0x9648 2 ++ leBytes 2 2 ++ leBytes 2 8 ++ leBytes 0 1 ++ leBytes dom 1)
    formErr := none, digestErr := none, peers := [], blocksFit := true, pipes := [{ bytes := [(0, 1), (0x1C, 8), (0x20, 2)] }], stops := [], weights := [], flows := [], jobs := [], sram := [], hbm := [], globals := [], skew := [], ends := [], signals := [], syncInit := [(9, 7)], regions := [] }

def limg : Tjl := limgM 0 1 5

def limgT : Tjl := { limg with manifest := putBytes limg.manifest 0x40 (leBytes 1 2), stops := [{ stop := 33, pipe := 1, regs := [], program := [], bar2 := [], workBytes := 0 }] }

def llen : Nat := 0x1000 + 64 + 16384

def lcmd (kind : Nat) : Cmd := { origin := 0, ring := 0, entry := ent 1 3 4 0 0 (llen * 2 ^ 64 + kind * 2 ^ 96) }

def ldS (kind : Nat) (ws : List (Nat × Word)) (s : State := {}) : State :=
  mk ((0x00101008, 1) :: (0x00300000, 9) :: (0x00700014, 2) :: ws) { s with host := { s.host with cmds := [lcmd kind] }, boot := { started := true } }

def upS (cams : List Nat) (ws : List (Nat × Word)) (u : Update) (tm : Nat) : State :=
  mk ((0x00101008, 1) :: (pipeReg 1, 2) :: ws) { gov := { pipes := [(1, { info := some { inf1 [33, 32, 0] with cams := cams }, update := some u })] }, time := tm }

def upd (f : Nat) : Update := { frame := f, epoch := 7, start := 100, cmd := lcmd 2, mask := 2, digest := 0x55 }

def lob : SignedObj := sobj 4

/-- Two states of the fabric compared field by field, which the kernel does without deep recursion. -/

def rhzSame (a b : RhzSt) : Bool :=
  a.design == b.design && a.q == b.q && a.hop == b.hop && a.ram == b.ram && a.ramOut == b.ramOut && a.tri == b.tri &&
    a.gclk == b.gclk && a.lv == b.lv && a.acc == b.acc && a.overlaps == b.overlaps && a.counted == b.counted &&
    a.bits == b.bits && a.greg == b.greg && a.gin == b.gin && a.queues == b.queues && a.popped == b.popped && a.tsc == b.tsc &&
    a.qd == b.qd && a.trigEdges == b.trigEdges && a.tscEdges == b.tscEdges && a.tscPin == b.tscPin && a.wait == b.wait && a.frameAt == b.frameAt && a.tscLv == b.tscLv && a.voteLv == b.voteLv &&
    a.load == b.load && a.latched == b.latched && a.halting == b.halting && a.relReq == b.relReq && a.digest == b.digest &&
    a.snap == b.snap && a.bank33 == b.bank33 && a.pads == b.pads

theorem rhz_eq (a b : RhzSt) (h : rhzSame a b = true) : a = b := by
  cases a; cases b; simp_all [rhzSame]

/-! ### Ill-formed commands: one for each check of `wellFormed` -/

theorem test_ill_formed_refused_1 : ([
    .stopComplete 64, .cancelHalted 64, .cancelDrained 64, .cancelRestart 64, .inject 0 [List.replicate 65537 0], .updateArmed 64,
    .updateArmTimeout 64, .sqTailWrite 64 0, .commandFetch 64 none, .forwardedCommand 16 0 0, .forwardedCommand 0 64 0, .completionWrite
    64 false, .cqHeadWrite 64 0, .rrHeadWrite 64 0, .recordWrite 64 false, .ringEnable 3 0 0, .ringEnable 0 64 0, .ringDisable 3 0 0,
    .ringDisable 0 64 0, .interruptCoalesceTimeout 3 0, .interruptCoalesceTimeout 0 64, .registerWrite (2 ^ 26) 0 4, .registerWrite 0 0 2,
    .registerWrite 6 0 4, .bar2Read (2 ^ 36) 1, .bar2Write (2 ^ 36) [1], .get (2 ^ 16), .set (2 ^ 16), .voteW1c 11 0, .hostHandleReturn 33
    0, .go 448, .halt 448, .cancelAcknowledged 448, .nop 448] : List Instr).all (fun i => !wellFormed i) = true := by decide +kernel

theorem test_ill_formed_refused_2 : ([
    .literal 448, .loop 448, .loopc 448, .sig 448, .rst 448, .waits 448, .arm 448, .waita 448, .waitq 448, .waith 448, .cadd 448,
    .endSchedule 448, .waitSatisfied 448, .waitWatchdog 448, .vec 32, .loadw 32, .drop 32, .sendv 32, .expand 33, .expanderFlush 33,
    .fetch 33 none, .fetch 32 (some 16), .shalt 33 none, .shalt 32 (some 16), .hpop 33, .hret 33, .sendq 33, .senda 33, .sendb 33, .cvta
    33, .cvtb 33, .raw 33, .ldv 33, .add 33] : List Instr).all (fun i => !wellFormed i) = true := by decide +kernel

theorem test_ill_formed_refused_3 : ([
    .mul 33, .max 33, .tbl 33, .softmax 33, .lnorm 33, .gnStat 33, .gnApply 33, .maxpool 33, .avgpool 33, .resizeN 33, .resizeB 33, .topk
    33, .dwconv 33, .nsend 33, .stv 33, .sendm 33, .cmonTagRead 448 0, .cmonTagRead 0 8, .cmonLostRead 448 0, .cmonLostRead 0 8, .push 33,
    .pushEop 33, .pushAbort 33, .fetchReserve 33 0, .fetchReserve 32 16, .fetchReadIssue 33, .hbmReadAdmit 16, .ringWriterFlit 33,
    .ringWriterCellWrite 33 0, .ringWriterCellWrite 32 4, .landingQueueArrival 448, .epochChange 448 0, .epochChange 416 8,
    .probePeriodExpiry 64] : List Instr).all (fun i => !wellFormed i) = true := by decide +kernel

theorem test_ill_formed_refused_4 : ([
    .quiescenceProbe 64, .probeSecondWave 64, .spillWriteAck 33 0, .spillWriteAck 32 64, .restoreReturn 33 0, .restoreReturn 32 64,
    .injectionFifoEntry 448 0, .injectionFifoEntry 0 16, .injectionDepart 448 0, .injectionDepart 0 16, .flitHop ⟨0, [608]⟩,
    .arrivalBufferEntry ⟨0, [608]⟩, .arrivalBufferDepart 448, .traceRecordWrite 2, .syuValWrite 65536 0, .syuAddWrite 65536 0,
    .crozierFirst 418 0, .crozierFirst 416 8, .crozierLast 418 0, .crozierLast 416 8, .sorusDetect 416 0, .sorusDetect 418 8, .sorusPass
    416 0, .sorusPass 418 8, .regionClose 416 0, .regionClose 418 8, .regionRecords 416 0, .regionRecords 418 8, .lineStart 32,
    .lineComplete 32 ⟨[], [], []⟩ 0, .lineComplete 0 ⟨[], [], []⟩ 512, .lineComplete 0 ⟨[], [16], []⟩ 0, .lineComplete 0 ⟨[], [], [32768]⟩
    0, .frameStoreWriteAck 32] : List Instr).all (fun i => !wellFormed i) = true := by decide +kernel

theorem test_ill_formed_refused_5 : ([
    .triggerEdge 16 false, .triggerPacketSent 16, .gvspPacket 2 gvf, .gvspPacket 0 { gvf with mac := 2 ^ 48 }, .gvspPacket 0
    { gvf with udp := 65536 }, .gvspPacket 0 { gvf with part := 3 }, .cxpControlPacket 16 [], .ctlTxWrite 16 0, .ctlRxRead 16,
    .gatewayRegisterWrite 16 0, .fabricQueuePush 2 0, .fabricQueuePop 1, .hostQueuePop 2, .hostQueuePush 1 0, .quadratureTransition 8
    false false, .zEdge 8, .timestampCapture 8 false, .tscEventRead 8, .pinHoldWrite 96 0, .cgwCommandRefused (2 ^ 32), .imageData 0
    (List.replicate 4093 0), .badServiceFrame false 256, .profilePacket ⟨2, gvf⟩ ⟨0, 0, 0⟩, .profilePacket ⟨0, { gvf with mac := 2 ^ 48 }⟩
    ⟨0, 0, 0⟩, .profilePacket ⟨0, { gvf with udp := 65536 }⟩ ⟨0, 0, 0⟩, .profilePacket ⟨0, { gvf with part := 3 }⟩ ⟨0, 0, 0⟩,
    .capsuleEncoderTransition 16 false false, .parcelWindowOpen 8, .parcelWindowClose 8 pfacts, .signalDetect 8, .trainingLock 8,
    .trainingTimeout 8, .trainRetry 8, .lockLost 8] : List Instr).all (fun i => !wellFormed i) = true := by decide +kernel

theorem test_ill_formed_refused_6 : ([
    .joinExchange 8 joi (List.replicate 4 (0, 0, 0, 0)), .joinExchange 0 { joi with devId := 16 } (List.replicate 4 (0, 0, 0, 0)),
    .joinExchange 0 joi [], .codewordReceive 8 0 0 [], .codewordReceive 0 513 0 [], .codewordReceive 0 0 33 [], .codewordReceive 0 0 0
    (List.replicate 9 (lwd 0 0)), .nak 8 0, .goBackTimeout 8, .leaveNotice ⟨8, 0⟩, .leaveNotice ⟨0, 16⟩, .heartbeatReceive 8 0 0 0 0 0,
    .heartbeatReceive 0 16 0 0 0 0, .peerLost 16, .channelTransmit 8 0, .channelTransmit 0 32, .linkCredit 8 0, .linkCredit 0 32,
    .channelReceiveDepart 8 0, .channelReceiveDepart 0 32, .creditObjectReread 8 0, .creditObjectReread 0 32, .domainEntry 11,
    .quiesceDrained 11, .quiesceTimeout 11, .entryStepComplete 11, .domainExit 11, .exitComplete 11, .supplyFailure 11, .faultClear 11,
    .padRelease 11, .wakePortWrite 128 [], .wakePortRead 128, .rhizoidWakePin 96 false] : List Instr).all (fun i => !wellFormed i) = true := by decide +kernel

theorem test_ill_formed_refused_7 : ([
    .rihamWake 8, .operatingPointChange 4, .throttle 448 1, .throttle 0 0, .throttle 0 17, .clockLost 5, .clockReturn 5, .thermalTrip 4,
    .hzLostRead 448, .bypass 256, .bypass 5, .fabricActiveClockEdge 4 false false, .rhzPinInputEdge 96 false, .pllLockChange 4 false,
    .cxpLinkUpChange 16 false] : List Instr).all (fun i => !wellFormed i) = true := by decide +kernel

theorem test_well_formed_taken : ([.go 33, .vec 33, .expand 32, .dwconv 0, .crozierFirst 416 7, .sorusDetect 418 7, .cxpLinkUpChange 15 true, .throttle 447 16] :
    List Instr).all wellFormed = true := by decide +kernel

/-! ### Worked examples of the manual -/

/-- R29, worked example: v = 1,728 with m = 0x6000, s = 20 is a tie at 40.5 and rounds to 40. -/
theorem test_narrow_tie_to_even : narrowAcc 1903 false (-175) 0x6000 20 12 0 255 = ⟨52, .inRange 16384, false⟩ := by decide +kernel

theorem test_narrow_negative_tie : narrowAcc (-1728) false 0 0x6000 20 12 0 255 = ⟨0, .low, false⟩ := by decide +kernel

theorem test_narrow_top_code : narrowAcc 422 false 0 0x5000 16 (-5) (-128) 127 = ⟨127, .inRange 1024, false⟩ := by decide +kernel

theorem test_narrow_past_the_top : narrowAcc 426 false 0 0x5000 16 (-5) (-128) 127 = ⟨127, .high, false⟩ := by decide +kernel

/-- R37, worked example: the eight rows of the table, with `out_scale` = 0.5. -/
theorem test_narrow_fp : ([0x40A00000, 0x40E00000, 0xBF800000, 0x43960000, 0x7F800000, 0xFF800000, 0x7FC00000, 0x00080000] : List Word).map
      (fun x => ((narrowFp x 0x3F000000 7 (-128) 127).y, (narrowFp x 0x3F000000 7 (-128) 127).cas)) =
    [(9, .inRange 16384), (11, .inRange 16384), (7, .inRange 16384), (127, .high), (127, .high), (-128, .low), (7, .nan), (7, .inRange 0)] := by
  decide +kernel

/-- R82, worked example: a sigmoid segment, `x_lo` = -8, `inv_step` = 16, and the code of x = 0.1 at scale 256. -/
def sigmoidTable (off : Nat) : Word :=
  if off = 0 then 0xC1000000 else if off = 4 then 0x41800000 else if off = 0x20 + 8 * 129 then 0x3F03FFAB
  else if off = 0x24 + 8 * 129 then 0x3C7F6AED else 0

theorem test_sigmoid_segment : narrowFp (tblEval sigmoidTable 0x3DCCCCCD) 0x43800000 0 0 255 = ⟨134, .inRange 10000, false⟩ := by
  decide +kernel

/-- R79, worked example: a residual join at two scales. -/
theorem test_residual_join : fadd (fofCode 45 (-3) 0x4000 20) (fofCode 200 128 0x6000 21) = 0x3FCC0000 ∧
    narrowFp 0x3FCC0000 0x42200000 (-10) (-128) 127 = ⟨54, .inRange 4096, false⟩ ∧
    narrowFp (fadd (fofCode (-128) (-3) 0x4000 20) (fofCode 0 128 0x6000 21)) 0x42200000 (-10) (-128) 127 = ⟨-128, .low, false⟩ := by
  decide +kernel

/-- R118, worked example: a stripe with a top halo. -/
def stripe : Desc :=
  { base := 0x120000000, esize := 1, ndim := 2, pad := 1, padValue := 0x80, epoch := 0, drain := 0, dstQ := 0, toBuf := false, freeQ := 0,
    pktDim := 0, tagBase := 0, counts := [1024, 64, 1, 1, 1, 1], strides := [1, 8192, 0, 0, 0, 0], off0 := 0, lim0 := 8192, off1 := -2,
    lim1 := 2048 }

theorem test_stripe_with_halo : stripe.pktCells = 16 ∧ stripe.addr 0 = none ∧ stripe.addr 2047 = none ∧
    stripe.addr 2048 = some 0x120000000 ∧ stripe.addr 3072 = some 0x120002000 := by decide +kernel

/-- R122, worked example: the keys of three slots; memory tile 37 is stop 203. -/
theorem test_stream_keys : [streamKey 48 2048, streamKey 30 1024, streamKey 24 1024] = [96, 120, 96] ∧ streamNo 203 2 = 594 := by
  decide +kernel

/-- R136, worked example of a pass: its bundles and slots. -/
theorem test_bundle_fields : bSlot 0x000141D4000000000000000000000000 0 = 0x0141D400 ∧
    bRepeat 0x0F814000000000000000000000000000 = 62 ∧ bSlot 0x0F814000000000000000000000000000 0 = 0x01400000 ∧
    bSlot 0x0F800000000000000013000280000000 2 = 0x01300028 ∧ bSlot 0x00000000000000000013004280000000 2 = 0x01300428 := by
  decide +kernel

/-- R145, worked example of a ring: its WAITS and its SIG. -/
theorem test_ctl_fields : 0x51004C7 / 2 ^ 24 = ctlWaits ∧ ctlObj 0x51004C7 = 4100 ∧ incOf (0x51004C7 % 8) = 64 ∧
    0x3100540 / 2 ^ 24 = ctlSig ∧ ctlObj 0x3100540 = 4101 ∧ syuOf 4100 = 0 := by decide +kernel

/-- R7, R9: stop (17, 3) lies on die B; the host stop is 426. -/
theorem test_stops : dieOf 113 = 1 ∧ kindOf 426 = .hst ∧ hstStop = 13 * 32 + 10 := by decide +kernel

/-- R274, R275, worked example: one rotated label. -/
def labelDesc : SorDesc :=
  { fn := 0, head := true, na := 1, wide := false, rot := true, agnostic := false, ownOnly := false, ncls := 1, clsOff := 8, boxOff := 0,
    fSigned := false, astride := 9, st := 8, lineScale := 0, keepMax := 10, scoreMin := 0, thr := 0x8000, lqIn := 0, lqStamp := 1, rtCrop := 0,
    ring := 0, cropEn := false, cropMask := 0, lim := 0, obj := 0, x0 := -512000, xpitch := 125000, pbase := 0 }

def labelEngine : Engine :=
  { sram := putBytes (putBytes (putBytes [] 2112 [0, 0, 1, 0]) 0 ((List.range 5).flatMap fun f => [128, 0, 0, 0, 0, 0x40, (if f = 4 then 0x16 else 0x14), 0])) 40
      [0, 0x14, 0, 0x0A] }

def label0 : Box := labelDesc.box labelEngine (payloadOf (pad64 [160, 96, 128, 128, 192])) 0 1000 150 0 (7, 0)

theorem test_label_box : label0 = { num := 0, score := 7, cls := 0, cx := 128128, cy := 19200, w := 5120, h := 2560, th := 256 } := by
  decide +kernel

theorem test_label_vertices : label0.vertices.head? = some (126848, 21760) ∧ area2 label0.vertices = 26214400 ∧
    area2 ((edgesOf { label0 with cx := 128768 }.vertices).foldl clipBy label0.vertices) = 19660800 ∧
    overlaps 0x8000 label0 { label0 with cx := 128768 } = true := by decide +kernel

/-- R280, worked example: the place of a line between two marks. -/
def labelStamp : Stamp :=
  { frame := 0, camera := 0, lines := 2048, time := 0, status := 0, marks := List.replicate 18 0 ++ [7340000, 7340512] ++ List.replicate 13 0 }

theorem test_stamp_place : labelStamp.s256 19200 = 1879138304 := by decide +kernel

/-- R300, worked example: line 300 of frame 1,000. -/
def ringFrame : Frame := { seq := 1000, cfg := 0, frm := 1024, ring := 0x640000, geom := 0x00C000A0 }

theorem test_line_address : ringFrame.lineAt 0 = 0x65E003000 ∧ ringFrame.lineAt 300 = 0x65E387000 := by decide +kernel

/-- R349, worked example: indication on a 5 mm belt. -/
theorem test_indication : [612500, 402496, 297500].map (fun v => indicate v 5) = [610, 400, 300] := by decide +kernel

/-- R354, worked example: a tick as time base. -/
theorem test_tick_time : State.tickTime ((State.wrWide {} 0x00700020 9000000000 2).wrWide 0x00700028 1731000000000000 2) 9000012500 =
    1731000000500000 := by decide +kernel

/-- R328, worked example: the heartbeat that part 9 must send next. -/
theorem test_heartbeat_due : Origin.due { serial := 0, hb := 50000, hops := 3, port := 0, parent := 0 } = 5000136000 := by decide +kernel

/-- R485, worked example: dies A and stack A. -/
theorem test_bist_steps : ((bistDoms 0x0A).flatMap bistSteps).length = 238 := by decide +kernel

theorem test_bist_progress : (State.progress {} 2 219 238).rd 0x1028 = 920 := by decide +kernel

/-- R315, worked example of a lost codeword: eight flits ahead are dropped, and one NAK names 100. -/
theorem test_ahead_nak : (State.codeword (lkS 3 { signal := true } [(rihReg 2 4, 100 * 2 ^ 16)]) 2 0
      ((List.range 8).map fun i => lwd (108 + i) 0)).rd (rihReg 2 0x10) = 8 * 2 ^ 16 := by decide +kernel

theorem test_duplicates_dropped : (State.codeword (lkS 3 { signal := true } [(rihReg 2 4, 116 * 2 ^ 16)]) 2 0
      ((List.range 8).map fun i => lwd (100 + i) 0)).rd (rihReg 2 0x10) = 8 := by decide +kernel

/-! ### States and operands that meet the hypotheses of each clause of each statement -/

theorem test_witness_EmptyQueueTicks :
    (∃ (s : State), Quiet s ∧ s.cstate = 0) :=
  ⟨{}, by constructor <;> first | decide +kernel | exact form_of _ (by decide +kernel), by decide +kernel⟩

theorem test_witness_StepKeepsCanonicalForm :
    (∃ (s t : State), Form s ∧ step s = .next t) :=
  ⟨{}, { time := 1, ck := 1 }, form_of _ (by decide +kernel), rfl⟩

theorem test_witness_SchedulesStartAndStop :
    (∃ (s : State) (stop : Nat), Form s ∧ isTile stop = true ∧ (s.schState stop = 0 ∨ s.schState stop = 3 ∨ s.schState stop = 5)) ∧ (∃ (s
    : State) (stop : Nat), s.schState stop ≠ 0 ∧ s.schState stop ≠ 3 ∧ s.schState stop ≠ 5) ∧ (∃ (s : State) (stop : Nat), Form s ∧ isTile
    stop = true ∧ s.schState stop = 2) ∧ (∃ (s : State) (stop : Nat), Running s stop ∧ NoSlots s stop ∧ literalWrites (s.nextBundle stop)
    = [] ∧ isWaitOp (bCtlOp (s.nextBundle stop)) = false) ∧ (∃ (s : State) (stop : Nat), s.schState stop ≠ 1 ∧ s.schState stop ≠ 2) ∧ (∃
    (s : State) (stop k : Nat) (r : Reply), Form s ∧ s.sync.replies[k]? = some r ∧ r.stop = stop ∧ r.ack = true ∧ s.replyReady k = true ∧
    (∀ j < k, ∀ x, s.sync.replies[j]? = some x → x.stop = stop → x.ack = true → s.replyReady j = false)) :=
  ⟨⟨mk [(reg 33 0xD000, 0x00050000), (reg 33 0xD200, 7), (reg 33 0xD004, 3)], 33, form_of _ (by decide +kernel), by decide +kernel⟩,
  ⟨mk [(reg 33 0xD004, 1)], 33, by decide +kernel⟩, ⟨mk [(reg 33 0xD004, 0x52)] { sched := [(33, { reqs := [4] })] }, 33,
  form_of _ (by decide +kernel), by decide +kernel⟩, ⟨runs 33 0, 33, ⟨form_of _ (by decide +kernel), by decide +kernel, by decide +kernel,
  by decide +kernel, by unfold Still; decide +kernel, by decide +kernel, by decide +kernel⟩, by unfold NoSlots; decide +kernel,
  by decide +kernel⟩, ⟨{}, 33, by decide +kernel⟩, ⟨mk [(reg 33 0xD004,
  4)] { sched := [(33, { cancels := [(4, 9)] })], sync := { replies := [{ stop := 33, slot := 4, obj := 9, ack := true }] } }, 33, 0,
  { stop := 33, slot := 4, obj := 9, ack := true }, form_of _ (by decide +kernel), by decide +kernel⟩⟩

theorem test_witness_PlainControlOperations :
    (∃ (s : State) (stop : Nat), Running s stop ∧ NoSlots s stop ∧ bFormat (s.nextBundle stop) ≠ 2 ∧ bCtlOp (s.nextBundle stop) = 0) ∧ (∃
    (s : State) (stop : Nat), Running s stop ∧ bFormat (s.nextBundle stop) = 2 ∧ bCtlOp (s.nextBundle stop) = 0) ∧ (∃ (s : State) (stop :
    Nat), Running s stop ∧ NoSlots s stop ∧ LastIssue s stop ∧ bCtlOp (s.nextBundle stop) = 3) ∧ (∃ (s : State) (stop : Nat), Running s
    stop ∧ NoSlots s stop ∧ LastIssue s stop ∧ bCtlOp (s.nextBundle stop) = 4) ∧ (∃ (s : State) (stop : Nat), Running s stop ∧ NoSlots s
    stop ∧ LastIssue s stop ∧ bCtlOp (s.nextBundle stop) = 10 ∧ (∀ w ∈ literalWrites (s.nextBundle stop), w.1 ≠ osel (bCtl (s.nextBundle
    stop)) 19 5)) :=
  ⟨⟨runs 33 (bnd 0 1 0 0 0 0), 33, ⟨form_of _ (by decide +kernel), by decide +kernel, by decide +kernel, by decide +kernel,
  by unfold Still; decide +kernel, by decide +kernel, by decide +kernel⟩, by unfold NoSlots; decide +kernel, by decide +kernel⟩,
  ⟨runs 33 (BitVec.ofNat 128 (2 * 2 ^ 124 + 2 ^ 107 + 3 * 2 ^ 108 + 5 * 2 ^ 113 + 77 * 2 ^ 28 + 88 * 2 ^ 60)), 33,
  ⟨form_of _ (by decide +kernel), by decide +kernel, by decide +kernel, by decide +kernel, by unfold Still; decide +kernel,
  by decide +kernel, by decide +kernel⟩, by decide +kernel⟩, ⟨runs 33 (bnd 0 0 0 0 0 (ctl 3 (9 * 256 + 2))), 33,
  ⟨form_of _ (by decide +kernel), by decide +kernel, by decide +kernel, by decide +kernel, by unfold Still; decide +kernel,
  by decide +kernel, by decide +kernel⟩, by unfold NoSlots; decide +kernel, by unfold LastIssue; decide +kernel, by decide +kernel⟩,
  ⟨runs 33 (bnd 0 0 0 0 0 (ctl 4 (9 * 256))), 33, ⟨form_of _ (by decide +kernel), by decide +kernel, by decide +kernel, by decide +kernel,
  by unfold Still; decide +kernel, by decide +kernel, by decide +kernel⟩, by unfold NoSlots; decide +kernel,
  by unfold LastIssue; decide +kernel, by decide +kernel⟩, ⟨runs 33 (bnd 0 0 0 0 0 (ctl 10 (4 * 2 ^ 19 + 0x7FFFF))), 33,
  ⟨form_of _ (by decide +kernel), by decide +kernel, by decide +kernel, by decide +kernel, by unfold Still; decide +kernel,
  by decide +kernel, by decide +kernel⟩, by unfold NoSlots; decide +kernel, by unfold LastIssue; decide +kernel, by decide +kernel⟩⟩

theorem test_witness_Loops :
    (∃ (s : State) (stop n : Nat), Running s stop ∧ NoSlots s stop ∧ LastIssue s stop ∧ bCtlOp (s.nextBundle stop) = 1 ∧ s.depth stop < 4
    ∧ s.pcOf stop < 4095 ∧ s.loopCount stop (s.nextBundle stop) = n) ∧ (∃ (s : State) (stop n : Nat), Running s stop ∧ NoSlots s stop ∧
    LastIssue s stop ∧ bCtlOp (s.nextBundle stop) = 2 ∧ s.depth stop < 4 ∧ s.pcOf stop < 4095 ∧ s.rf (reg stop (0xD100 + 4 * osel (bCtl
    (s.nextBundle stop)) 0 5)) 0 20 = n) ∧ (∃ (s : State) (stop d n : Nat), Running s stop ∧ NoSlots s stop ∧ LastIssue s stop ∧ bFormat
    (s.nextBundle stop) ≠ 2 ∧ bCtlOp (s.nextBundle stop) = 0 ∧ s.depth stop = d + 1 ∧ d < 4 ∧ s.rf (reg stop (0xD204 + 8 * d)) 16 12 =
    s.pcOf stop ∧ s.rf (reg stop (0xD200 + 8 * d)) 0 20 = n) ∧ (∃ (s : State) (stop : Nat), Running s stop ∧ NoSlots s stop ∧ LastIssue s
    stop ∧ bFormat (s.nextBundle stop) ≠ 2 ∧ bCtlOp (s.nextBundle stop) = 11) :=
  ⟨⟨runs 33 (bnd 0 0 0 0 0 (ctl 1 (2 * 2 ^ 12 + 5))), 33, 5, ⟨form_of _ (by decide +kernel), by decide +kernel, by decide +kernel,
  by decide +kernel, by unfold Still; decide +kernel, by decide +kernel, by decide +kernel⟩, by unfold NoSlots; decide +kernel,
  by unfold LastIssue; decide +kernel, by decide +kernel⟩, ⟨runs 33 (bnd 0 0 0 0 0 (ctl 2 (2 * 2 ^ 12 + 2))) [(reg 33 0xD108, 3)], 33, 3,
  ⟨form_of _ (by decide +kernel), by decide +kernel, by decide +kernel, by decide +kernel, by unfold Still; decide +kernel,
  by decide +kernel, by decide +kernel⟩, by unfold NoSlots; decide +kernel, by unfold LastIssue; decide +kernel, by decide +kernel⟩,
  ⟨runs 33 (bnd 0 0 0 0 0 0) [(reg 33 0xD004, 0x100001), (reg 33 0xD200, 0x80000002)], 33, 0, 2, ⟨form_of _ (by decide +kernel),
  by decide +kernel, by decide +kernel, by decide +kernel, by unfold Still; decide +kernel, by decide +kernel, by decide +kernel⟩,
  by unfold NoSlots; decide +kernel, by unfold LastIssue; decide +kernel, by decide +kernel⟩, ⟨runs 33 (bnd 0 0 0 0 0 (ctl 11 0)), 33,
  ⟨form_of _ (by decide +kernel), by decide +kernel, by decide +kernel, by decide +kernel, by unfold Still; decide +kernel,
  by decide +kernel, by decide +kernel⟩, by unfold NoSlots; decide +kernel, by unfold LastIssue; decide +kernel, by decide +kernel⟩⟩

theorem test_witness_WaitsFreezeOrPass :
    (∃ (s : State) (stop : Nat), Running s stop ∧ (s.sch stop).rep = 0 ∧ bCtlOp (s.nextBundle stop) = 5 ∧ (s.sch stop).hid ≠ 2) ∧ (∃ (s :
    State) (stop k : Nat), Running s stop ∧ NoSlots s stop ∧ LastIssue s stop ∧ (s.sch stop).rep = 0 ∧ bCtlOp (s.nextBundle stop) = 7 ∧
    osel (bCtl (s.nextBundle stop)) 0 2 = k ∧ s.rf (reg stop (0xD240 + 4 * k)) 16 2 ≠ 1 ∧ k ∉ (s.sch stop).fresh) ∧ (∃ (s : State) (stop k
    : Nat), Running s stop ∧ (s.sch stop).rep = 0 ∧ bCtlOp (s.nextBundle stop) = 7 ∧ osel (bCtl (s.nextBundle stop)) 0 2 = k ∧ (s.rf (reg
    stop (0xD240 + 4 * k)) 16 2 = 1 ∨ k ∈ (s.sch stop).fresh)) ∧ (∃ (s : State) (stop : Nat), Running s stop ∧ NoSlots s stop ∧ LastIssue
    s stop ∧ (s.sch stop).rep = 0 ∧ bCtlOp (s.nextBundle stop) = 8) ∧ (∃ (s : State) (stop : Nat), Running s stop ∧ NoSlots s stop ∧
    LastIssue s stop ∧ (s.sch stop).rep = 0 ∧ bCtlOp (s.nextBundle stop) = 9 ∧ kindOf stop = .mt) ∧ (∃ (s : State) (stop k cr : Nat),
    Running s stop ∧ NoSlots s stop ∧ LastIssue s stop ∧ literalWrites (s.nextBundle stop) = [] ∧ bCtlOp (s.nextBundle stop) = 6 ∧ osel
    (bCtl (s.nextBundle stop)) 22 2 = k ∧ 24 + osel (bCtl (s.nextBundle stop)) 3 3 = cr) :=
  ⟨⟨runs 33 (bnd 0 0 0 0 0 (ctl 5 (9 * 256 + 8))) [(reg 33 0xD104, 7)], 33, ⟨form_of _ (by decide +kernel), by decide +kernel,
  by decide +kernel, by decide +kernel, by unfold Still; decide +kernel, by decide +kernel, by decide +kernel⟩, by decide +kernel⟩,
  ⟨runs 33 (bnd 0 0 0 0 0 (ctl 7 1)) [(reg 33 0xD244, 0x20000)], 33, 1, ⟨form_of _ (by decide +kernel), by decide +kernel,
  by decide +kernel, by decide +kernel, by unfold Still; decide +kernel, by decide +kernel, by decide +kernel⟩,
  by unfold NoSlots; decide +kernel, by unfold LastIssue; decide +kernel, by decide +kernel⟩,
  ⟨runs 33 (bnd 0 0 0 0 0 (ctl 7 1)) [(reg 33 0xD244, 0x10000)], 33, 1, ⟨form_of _ (by decide +kernel), by decide +kernel,
  by decide +kernel, by decide +kernel, by unfold Still; decide +kernel, by decide +kernel, by decide +kernel⟩, by decide +kernel⟩,
  ⟨runs 33 (bnd 0 0 0 0 0 (ctl 8 1)), 33, ⟨form_of _ (by decide +kernel), by decide +kernel, by decide +kernel, by decide +kernel,
  by unfold Still; decide +kernel, by decide +kernel, by decide +kernel⟩, by unfold NoSlots; decide +kernel,
  by unfold LastIssue; decide +kernel, by decide +kernel⟩, ⟨runs 32 (bnd 0 0 0 0 0 (ctl 9 0)), 32, ⟨form_of _ (by decide +kernel),
  by decide +kernel, by decide +kernel, by decide +kernel, by unfold Still; decide +kernel, by decide +kernel, by decide +kernel⟩,
  by unfold NoSlots; decide +kernel, by unfold LastIssue; decide +kernel, by decide +kernel⟩,
  ⟨runs 33 (bnd 0 0 0 0 0 (ctl 6 (3 * 2 ^ 22 + 9 * 64 + 1 * 8 + 1))), 33, 3, 25, ⟨form_of _ (by decide +kernel), by decide +kernel,
  by decide +kernel, by decide +kernel, by unfold Still; decide +kernel, by decide +kernel, by decide +kernel⟩,
  by unfold NoSlots; decide +kernel, by unfold LastIssue; decide +kernel, by decide +kernel⟩⟩

theorem test_witness_WaitsEnd :
    (∃ (s : State) (k : Nat) (r : Reply), Form s ∧ s.sync.replies[k]? = some r ∧ r.ack = false ∧ s.replyReady k = true ∧ isTile r.stop =
    true ∧ (r.slot, r.obj) ∉ (s.sch r.stop).cancels ∧ r.slot < 4 ∧ s.schState r.stop ≤ 3 ∧ s.rf (reg r.stop (0xD240 + 4 * r.slot)) 16 2 =
    1) ∧ (∃ (s : State) (k : Nat) (r : Reply), Form s ∧ s.sync.replies[k]? = some r ∧ r.ack = false ∧ s.replyReady k = true ∧ isTile
    r.stop = true ∧ (r.slot, r.obj) ∉ (s.sch r.stop).cancels ∧ r.slot = 4 ∧ s.schState r.stop ≤ 3 ∧ (s.sch r.stop).hid = 1) ∧ (∃ (s :
    State) (k : Nat) (r : Reply), Form s ∧ s.sync.replies[k]? = some r ∧ r.ack = false ∧ s.replyReady k = true ∧ isTile r.stop = true ∧
    ((r.slot, r.obj) ∈ (s.sch r.stop).cancels ∨ (4 ≤ s.schState r.stop ∧ s.schState r.stop ≤ 6))) ∧ (∃ (s : State) (stop : Nat), Form s ∧
    isTile stop = true ∧ Still s stop ∧ s.inFlight stop = false ∧ s.schState stop = 2 ∧ (s.sch stop).rep = 0 ∧ bRepeat (s.nextBundle stop)
    = 0 ∧ NoSlots s stop ∧ bFormat (s.nextBundle stop) = 0 ∧ bCtlOp (s.nextBundle stop) = 5 ∧ (s.sch stop).hid = 2) ∧ (∃ (s : State) (stop
    : Nat), Form s ∧ isTile stop = true ∧ s.schState stop = 2 ∧ s.rd (reg stop 0xD00C) ≠ 0 ∧ (s.rd (reg stop 0xD00C)).toNat < (s.sch
    stop).waitLen ∧ (s.sch stop).wdDone = false) :=
  ⟨⟨mk [(reg 33 0xD004, 1), (reg 33 0xD244,
  0x10000)] { sched := [(33, { reqs := [1] })], sync := { replies := [{ stop := 33, slot := 1, obj := 9, ack := false }] } }, 0,
  { stop := 33, slot := 1, obj := 9, ack := false }, form_of _ (by decide +kernel), by decide +kernel⟩, ⟨mk [(reg 33 0xD004,
  2)] { sched := [(33, { reqs := [4], hid := 1 })], sync := { replies := [{ stop := 33, slot := 4, obj := 9, ack := false }] } }, 0,
  { stop := 33, slot := 4, obj := 9, ack := false }, form_of _ (by decide +kernel), by decide +kernel⟩, ⟨mk [(reg 33 0xD004,
  1)] { sched := [(33, { cancels := [(1, 9)] })], sync := { replies := [{ stop := 33, slot := 1, obj := 9, ack := false }] } }, 0,
  { stop := 33, slot := 1, obj := 9, ack := false }, form_of _ (by decide +kernel), by decide +kernel⟩,
  ⟨runs 33 (bnd 0 0 0 0 0 (ctl 5 (9 * 256 + 8 + 1))) [(reg 33 0xD004, 2)] { sched := [(33, { hid := 2 })] }, 33,
  form_of _ (by decide +kernel), by decide +kernel, by unfold Still; decide +kernel, by decide +kernel, by decide +kernel,
  by decide +kernel, by decide +kernel, by unfold NoSlots; decide +kernel, by decide +kernel⟩, ⟨mk [(reg 33 0xD004, 2), (reg 33 0xD00C,
  3)] { sched := [(33, { waitLen := 4 })] }, 33, form_of _ (by decide +kernel), by decide +kernel⟩⟩

theorem test_witness_SyncUnitOperations :
    (∃ (s : State) (k o src : Nat) (n : Word), Form s ∧ o < 65536 ∧ s.sync.msgs[k]? = some (.signal o n src) ∧ s.syncReady k = true) ∧ (∃
    (s : State) (k o src : Nat), Form s ∧ o < 65536 ∧ s.sync.msgs[k]? = some (.reset o src) ∧ s.syncReady k = true ∧ s.debugPerm 0 =
    false) ∧ (∃ (s : State) (k o src slot : Nat) (thr : Word), Form s ∧ o < 65536 ∧ s.sync.msgs[k]? = some (.wait o thr src slot) ∧
    s.syncReady k = true ∧ s.debugPerm 0 = false) ∧ (∃ (s : State) (k o src slot : Nat), Form s ∧ o < 65536 ∧ s.sync.msgs[k]? = some
    (.cancel o src slot) ∧ s.syncReady k = true) ∧ (∃ (s : State) (o : Nat) (v : Word), Form s ∧ o < 65536 ∧ s.regThere (0x00800000 + 4 *
    o) = true ∧ s.answers (addrDomain (0x00800000 + 4 * o)) = true) ∧ (∃ (s : State) (o : Nat) (v : Word), Form s ∧ o < 65536 ∧ s.regThere
    (0x00840000 + 4 * o) = true ∧ s.answers (addrDomain (0x00840000 + 4 * o)) = true) :=
  ⟨⟨mk [(0x00800024, 0xFFFFFFFF)] { sync := { msgs := [.signal 9 2 33], waits := [{ obj := 9, thr := 1, src := 35, slot := 0 }] } }, 0, 9,
  33, 2, form_of _ (by decide +kernel), by decide +kernel⟩, ⟨mk [(0x00800024,
  5)] { sync := { msgs := [.reset 9 33], waits := [{ obj := 9, thr := 0, src := 35, slot := 0 }] } }, 0, 9, 33,
  form_of _ (by decide +kernel), by decide +kernel⟩, ⟨mk [(0x00800024, 5)] { sync := { msgs := [.wait 9 6 33 4] } }, 0, 9, 33, 4, 6,
  form_of _ (by decide +kernel), by decide +kernel⟩,
  ⟨{ sync := { msgs := [.cancel 9 33 4], waits := [{ obj := 9, thr := 1, src := 33, slot := 4 }] } }, 0, 9, 33, 4,
  form_of _ (by decide +kernel), by decide +kernel⟩, ⟨{ sync := { waits := [{ obj := 65535, thr := 1, src := 33, slot := 4 }] } }, 65535,
  7, form_of _ (by decide +kernel), by decide +kernel⟩, ⟨{ sync := { waits := [{ obj := 65535, thr := 1, src := 33, slot := 4 }] } },
  65535, 7, form_of _ (by decide +kernel), by decide +kernel⟩⟩

theorem test_witness_NoSatisfiedWaitStays :
    (∃ (s : State) (m : SyncMsg) (o : Nat), Form s ∧ o < 65536 ∧ (∀ w ∈ s.sync.waits, w.obj < 65536) ∧
    (match m with | .signal x _ _ => x | .reset x _ => x | .wait x _ _ _ => x | .cancel x _ _ => x) < 65536 ∧ (∀ w ∈ s.sync.waits, w.obj = o → waitHolds (s.rd (0x00800000 + 4 * o)) w.thr = false)) :=
  ⟨{ sync := { waits := [{ obj := 9, thr := 3, src := 33, slot := 4 }] } }, .signal 9 2 33, 9, form_of _ (by decide +kernel),
  by decide +kernel⟩

theorem test_witness_ArrayTileOperations :
    (∃ (s : State) (stop w : Nat) (f : LFlit) (rest : List LFlit), Lone s stop 0 .vec w ∧ s.inFlight stop = false ∧ HeadFlit s stop (osel
    w 21 3) f rest ∧ osel w 17 1 = 0 ∧ osel w 16 1 = 1 ∧ (s.atile stop).held = 0) ∧ (∃ (s : State) (stop w : Nat) (f : LFlit) (rest : List
    LFlit) (p : Pass), Lone s stop 0 .vec w ∧ s.inFlight stop = false ∧ HeadFlit s stop (osel w 21 3) f rest ∧ osel w 17 1 = 0 ∧ osel w 16
    1 = 0 ∧ (s.atile stop).held = 0 ∧ (s.atile stop).pass = some p ∧ p.next < 256) ∧ (∃ (s : State) (stop w : Nat) (f : LFlit) (rest :
    List LFlit), Lone s stop 1 .drop w ∧ s.inFlight stop = false ∧ HeadFlit s stop (osel w 21 3) f rest) ∧ (∃ (s : State) (stop w : Nat),
    Lone s stop 1 .loadw w ∧ s.inFlight stop = false ∧ osel w 13 1 = 0) ∧ (∃ (s : State) (stop w : Nat) (f : Flight), Lone s stop 2 .sendv
    w ∧ (s.atile stop).fl = [f] ∧ (s.atile stop).swaps = [] ∧ (s.atile stop).ld = none ∧ s.pairAt stop = none ∧ f.last = true ∧ f.t +
    s.outLatency stop = s.cycOf stop + 1 ∧ (s.atile stop).out.taken = true ∧ osel w 9 1 = 0 ∧ osel w 8 1 = 0 ∧ bitOf (s.rtReg stop (osel w
    20 4) 0) 31 = true) :=
  ⟨⟨popper 33 (bnd 0 0 (1 * 2 ^ 24 + (2 ^ 16 + 2 ^ 15 + 2 ^ 11 + 2 ^ 12)) 0 0 0), 33, 1 * 2 ^ 24 + (2 ^ 16 + 2 ^ 15 + 2 ^ 11 + 2 ^ 12),
  lf, [], by constructor <;> first | decide +kernel | exact form_of _ (by decide +kernel), by decide +kernel,
  by unfold HeadFlit; decide +kernel, by decide +kernel⟩,
  ⟨popper 33 (bnd 0 0 (1 * 2 ^ 24 + 0) 0 0 0) [] { at_ := [(33, { pass := some { next := 255, accFirst := true, accLast := false, pbank := 1 } })] },
  33, 1 * 2 ^ 24 + 0, lf, [], { next := 255, accFirst := true, accLast := false, pbank := 1 },
  by constructor <;> first | decide +kernel | exact form_of _ (by decide +kernel), by decide +kernel, by unfold HeadFlit; decide +kernel,
  by decide +kernel⟩, ⟨popper 33 (bnd 0 0 0 (2 * 2 ^ 24 + 0) 0 0), 33, 2 * 2 ^ 24 + 0, lf, [],
  by constructor <;> first | decide +kernel | exact form_of _ (by decide +kernel), by decide +kernel, by unfold HeadFlit; decide +kernel⟩,
  ⟨runs 33 (bnd 0 0 0 (1 * 2 ^ 24 + 0) 0 0), 33, 1 * 2 ^ 24 + 0,
  by constructor <;> first | decide +kernel | exact form_of _ (by decide +kernel), by decide +kernel⟩,
  ⟨runs 33 (bnd 0 0 0 0 (1 * 2 ^ 24 + 0) 0) [(reg 33 0x0500, 0x80000221), (reg 33 0x0504,
  7)] { sched := [(33, { cyc := 131 })], at_ := [(33, { fl := [{ t := 0, v := 0, codes := [], sides := [], first := true, last := true, pbank := 0, tag := 5, epoch := 0, res := [(0, 7), (3, -1)] }] })] },
  33, 1 * 2 ^ 24 + 0,
  { t := 0, v := 0, codes := [], sides := [], first := true, last := true, pbank := 0, tag := 5, epoch := 0, res := [(0, 7), (3, -1)] },
  by constructor <;> first | decide +kernel | exact form_of _ (by decide +kernel), by decide +kernel⟩⟩

theorem test_witness_SftInputOperations :
    (∃ (c : Nat → Instr) (o : TileOp) (b : Bool) (s : State) (stop w : Nat) (f : LFlit) (rest : List LFlit), (c, o, b) ∈ [(Instr.cvta,
    TileOp.cvta, false), (Instr.cvtb, TileOp.cvtb, true)] ∧ Lone s stop 0 o w ∧ s.inFlight stop = false ∧ HeadFlit s stop (osel w 21 3) f
    rest) ∧ (∃ (c : Nat → Instr) (o : TileOp) (b : Bool) (s : State) (stop w : Nat) (f : LFlit) (rest : List LFlit), (c, o, b) ∈
    [(Instr.cvta, TileOp.cvta, false), (Instr.cvtb, TileOp.cvtb, true)] ∧ Lone s stop 0 o w ∧ s.inFlight stop = false ∧ HeadFlit s stop
    (osel w 21 3) f rest) ∧ (∃ (s : State) (stop w : Nat) (f : LFlit) (rest : List LFlit), Lone s stop 0 .raw w ∧ s.inFlight stop = false
    ∧ HeadFlit s stop (osel w 21 3) f rest ∧ s.afAddr stop (osel w 16 5) < 1536) ∧ (∃ (s : State) (stop w : Nat), Lone s stop 0 .ldv w ∧
    s.inFlight stop = false ∧ (s.sftile stop).lmUe = [] ∧ (s.sftile stop).lmCe = [] ∧ s.afAddr stop (osel w 16 5) + 4 ≤ 1536) :=
  ⟨⟨Instr.cvta, TileOp.cvta, false, popper 0 (bnd 0 0 (1 * 2 ^ 24 + 2) 0 0 0), 0, 1 * 2 ^ 24 + 2, lf, [], by simp,
  by constructor <;> first | decide +kernel | exact form_of _ (by decide +kernel), by decide +kernel, by unfold HeadFlit; decide +kernel⟩,
  ⟨Instr.cvtb, TileOp.cvtb, true, popper 0 (bnd 0 0 (2 * 2 ^ 24 + (3 * 2 ^ 18 + 1)) 0 0 0), 0, 2 * 2 ^ 24 + (3 * 2 ^ 18 + 1), lf, [],
  by simp, by constructor <;> first | decide +kernel | exact form_of _ (by decide +kernel), by decide +kernel,
  by unfold HeadFlit; decide +kernel⟩, ⟨popper 0 (bnd 0 0 (3 * 2 ^ 24 + 0) 0 0 0) [(reg 0 0xD100, 1535)], 0, 3 * 2 ^ 24 + 0, lf, [],
  by constructor <;> first | decide +kernel | exact form_of _ (by decide +kernel), by decide +kernel, by unfold HeadFlit; decide +kernel,
  by decide +kernel⟩, ⟨runs 0 (bnd 0 0 (4 * 2 ^ 24 + (2 * 2 ^ 21)) 0 0 0) [(reg 0 0xD100,
  1532)] { sft := [(0, { lm := [(0x20000 - 256, 5)] })] }, 0, 4 * 2 ^ 24 + (2 * 2 ^ 21),
  by constructor <;> first | decide +kernel | exact form_of _ (by decide +kernel), by decide +kernel⟩⟩

theorem test_witness_SftLaneOperations :
    (∃ (c : Nat → Instr) (o : TileOp) (g : Word → Word → Word) (s : State) (stop w : Nat), (c, o, g) ∈ [(Instr.add, TileOp.add, fadd),
    (Instr.mul, TileOp.mul, fmul), (Instr.max, TileOp.max, fmax)] ∧ Lone s stop 1 o w ∧ s.inFlight stop = false) ∧ (∃ (c : Nat → Instr) (o
    : TileOp) (g : Word → Word → Word) (s : State) (stop w : Nat), (c, o, g) ∈ [(Instr.add, TileOp.add, fadd), (Instr.mul, TileOp.mul,
    fmul), (Instr.max, TileOp.max, fmax)] ∧ Lone s stop 1 o w ∧ s.inFlight stop = false) ∧ (∃ (c : Nat → Instr) (o : TileOp) (g : Word →
    Word → Word) (s : State) (stop w : Nat), (c, o, g) ∈ [(Instr.add, TileOp.add, fadd), (Instr.mul, TileOp.mul, fmul), (Instr.max,
    TileOp.max, fmax)] ∧ Lone s stop 1 o w ∧ s.inFlight stop = false) ∧ (∃ (s : State) (stop w : Nat), Lone s stop 1 .tbl w ∧ s.inFlight
    stop = false ∧ (s.sftile stop).lmUe = [] ∧ (s.sftile stop).lmCe = []) ∧ (∃ (c : Nat → Instr) (o : TileOp) (s : State) (stop w : Nat)
    (r : Run), (c, o) ∈ [(Instr.add, TileOp.add), (Instr.mul, TileOp.mul), (Instr.max, TileOp.max), (Instr.tbl, TileOp.tbl)] ∧ Lone s stop
    1 o w ∧ (s.sftile stop).run = some r ∧ s.cycOf stop + 1 < r.last ∧ (s.sftile stop).wr = [] ∧ s.pairAt stop = none) :=
  ⟨⟨Instr.add, TileOp.add, fadd,
  runs 0 (bnd 0 0 0 (1 * 2 ^ 24 + (3 * 2 ^ 21 + 1 * 2 ^ 18 + 2 * 2 ^ 15)) 0 0) [] { sft := [(0, { v := [(64, 0x3F800000), (128, 0x40000000)] })] },
  0, 1 * 2 ^ 24 + (3 * 2 ^ 21 + 1 * 2 ^ 18 + 2 * 2 ^ 15), by simp,
  by constructor <;> first | decide +kernel | exact form_of _ (by decide +kernel), by decide +kernel⟩, ⟨Instr.mul, TileOp.mul, fmul,
  runs 0 (bnd 0 0 0 (2 * 2 ^ 24 + (3 * 2 ^ 21 + 1 * 2 ^ 18 + 2 * 2 ^ 15)) 0 0) [] { sft := [(0, { v := [(64, 0x3F800000), (128, 0x40000000)] })] },
  0, 2 * 2 ^ 24 + (3 * 2 ^ 21 + 1 * 2 ^ 18 + 2 * 2 ^ 15), by simp,
  by constructor <;> first | decide +kernel | exact form_of _ (by decide +kernel), by decide +kernel⟩, ⟨Instr.max, TileOp.max, fmax,
  runs 0 (bnd 0 0 0 (3 * 2 ^ 24 + (3 * 2 ^ 21 + 1 * 2 ^ 18 + 2 * 2 ^ 15)) 0 0) [] { sft := [(0, { v := [(64, 0x3F800000), (128, 0x40000000)] })] },
  0, 3 * 2 ^ 24 + (3 * 2 ^ 21 + 1 * 2 ^ 18 + 2 * 2 ^ 15), by simp,
  by constructor <;> first | decide +kernel | exact form_of _ (by decide +kernel), by decide +kernel⟩,
  ⟨runs 0 (bnd 0 0 0 (4 * 2 ^ 24 + (3 * 2 ^ 21 + 2 ^ 18)) 0 0) [] { sft := [(0, { v := [(64, 0x3F800000)] })] }, 0,
  4 * 2 ^ 24 + (3 * 2 ^ 21 + 2 ^ 18), by constructor <;> first | decide +kernel | exact form_of _ (by decide +kernel), by decide +kernel⟩,
  ⟨Instr.add, TileOp.add,
  runs 0 (bnd 0 0 0 (1 * 2 ^ 24 + 0) 0 0) [] { sft := [(0, { run := some { last := 2, results := [], uses := [], touched := false } })] },
  0, 1 * 2 ^ 24 + 0, { last := 2, results := [], uses := [], touched := false }, by simp,
  by constructor <;> first | decide +kernel | exact form_of _ (by decide +kernel), by decide +kernel⟩⟩

theorem test_witness_SftRunFunctions :
    (∃ (c : Nat → Instr) (fn : Nat) (s : State) (stop w : Nat) (p : RunPlan), (c, fn) ∈ [(Instr.softmax, 0), (Instr.lnorm, 1),
    (Instr.gnStat, 2), (Instr.gnApply, 3), (Instr.maxpool, 4), (Instr.avgpool, 5), (Instr.resizeN, 6), (Instr.resizeB, 7), (Instr.topk,
    8), (Instr.dwconv, 9)] ∧ Lone s stop 1 (.run fn) w ∧ s.inFlight stop = false ∧ (s.sftile stop).lmUe = [] ∧ (s.sftile stop).lmCe = [] ∧
    s.runPlan stop fn (osel w 15 5) (osel w 0 2) = some p) ∧ (∃ (c : Nat → Instr) (fn : Nat) (s : State) (stop w : Nat) (p : RunPlan), (c,
    fn) ∈ [(Instr.softmax, 0), (Instr.lnorm, 1), (Instr.gnStat, 2), (Instr.gnApply, 3), (Instr.maxpool, 4), (Instr.avgpool, 5),
    (Instr.resizeN, 6), (Instr.resizeB, 7), (Instr.topk, 8), (Instr.dwconv, 9)] ∧ Lone s stop 1 (.run fn) w ∧ s.inFlight stop = false ∧
    (s.sftile stop).lmUe = [] ∧ (s.sftile stop).lmCe = [] ∧ s.runPlan stop fn (osel w 15 5) (osel w 0 2) = some p) ∧ (∃ (c : Nat → Instr)
    (fn : Nat) (s : State) (stop w : Nat) (p : RunPlan), (c, fn) ∈ [(Instr.softmax, 0), (Instr.lnorm, 1), (Instr.gnStat, 2),
    (Instr.gnApply, 3), (Instr.maxpool, 4), (Instr.avgpool, 5), (Instr.resizeN, 6), (Instr.resizeB, 7), (Instr.topk, 8), (Instr.dwconv,
    9)] ∧ Lone s stop 1 (.run fn) w ∧ s.inFlight stop = false ∧ (s.sftile stop).lmUe = [] ∧ (s.sftile stop).lmCe = [] ∧ s.runPlan stop fn
    (osel w 15 5) (osel w 0 2) = some p) ∧ (∃ (c : Nat → Instr) (fn : Nat) (s : State) (stop w : Nat) (p : RunPlan), (c, fn) ∈
    [(Instr.softmax, 0), (Instr.lnorm, 1), (Instr.gnStat, 2), (Instr.gnApply, 3), (Instr.maxpool, 4), (Instr.avgpool, 5), (Instr.resizeN,
    6), (Instr.resizeB, 7), (Instr.topk, 8), (Instr.dwconv, 9)] ∧ Lone s stop 1 (.run fn) w ∧ s.inFlight stop = false ∧ (s.sftile
    stop).lmUe = [] ∧ (s.sftile stop).lmCe = [] ∧ s.runPlan stop fn (osel w 15 5) (osel w 0 2) = some p) ∧ (∃ (c : Nat → Instr) (fn : Nat)
    (s : State) (stop w : Nat) (p : RunPlan), (c, fn) ∈ [(Instr.softmax, 0), (Instr.lnorm, 1), (Instr.gnStat, 2), (Instr.gnApply, 3),
    (Instr.maxpool, 4), (Instr.avgpool, 5), (Instr.resizeN, 6), (Instr.resizeB, 7), (Instr.topk, 8), (Instr.dwconv, 9)] ∧ Lone s stop 1
    (.run fn) w ∧ s.inFlight stop = false ∧ (s.sftile stop).lmUe = [] ∧ (s.sftile stop).lmCe = [] ∧ s.runPlan stop fn (osel w 15 5) (osel
    w 0 2) = some p) ∧ (∃ (c : Nat → Instr) (fn : Nat) (s : State) (stop w : Nat) (p : RunPlan), (c, fn) ∈ [(Instr.softmax, 0),
    (Instr.lnorm, 1), (Instr.gnStat, 2), (Instr.gnApply, 3), (Instr.maxpool, 4), (Instr.avgpool, 5), (Instr.resizeN, 6), (Instr.resizeB,
    7), (Instr.topk, 8), (Instr.dwconv, 9)] ∧ Lone s stop 1 (.run fn) w ∧ s.inFlight stop = false ∧ (s.sftile stop).lmUe = [] ∧ (s.sftile
    stop).lmCe = [] ∧ s.runPlan stop fn (osel w 15 5) (osel w 0 2) = some p) ∧ (∃ (c : Nat → Instr) (fn : Nat) (s : State) (stop w : Nat)
    (p : RunPlan), (c, fn) ∈ [(Instr.softmax, 0), (Instr.lnorm, 1), (Instr.gnStat, 2), (Instr.gnApply, 3), (Instr.maxpool, 4),
    (Instr.avgpool, 5), (Instr.resizeN, 6), (Instr.resizeB, 7), (Instr.topk, 8), (Instr.dwconv, 9)] ∧ Lone s stop 1 (.run fn) w ∧
    s.inFlight stop = false ∧ (s.sftile stop).lmUe = [] ∧ (s.sftile stop).lmCe = [] ∧ s.runPlan stop fn (osel w 15 5) (osel w 0 2) = some
    p) ∧ (∃ (c : Nat → Instr) (fn : Nat) (s : State) (stop w : Nat) (p : RunPlan), (c, fn) ∈ [(Instr.softmax, 0), (Instr.lnorm, 1),
    (Instr.gnStat, 2), (Instr.gnApply, 3), (Instr.maxpool, 4), (Instr.avgpool, 5), (Instr.resizeN, 6), (Instr.resizeB, 7), (Instr.topk,
    8), (Instr.dwconv, 9)] ∧ Lone s stop 1 (.run fn) w ∧ s.inFlight stop = false ∧ (s.sftile stop).lmUe = [] ∧ (s.sftile stop).lmCe = [] ∧
    s.runPlan stop fn (osel w 15 5) (osel w 0 2) = some p) ∧ (∃ (c : Nat → Instr) (fn : Nat) (s : State) (stop w : Nat) (p : RunPlan), (c,
    fn) ∈ [(Instr.softmax, 0), (Instr.lnorm, 1), (Instr.gnStat, 2), (Instr.gnApply, 3), (Instr.maxpool, 4), (Instr.avgpool, 5),
    (Instr.resizeN, 6), (Instr.resizeB, 7), (Instr.topk, 8), (Instr.dwconv, 9)] ∧ Lone s stop 1 (.run fn) w ∧ s.inFlight stop = false ∧
    (s.sftile stop).lmUe = [] ∧ (s.sftile stop).lmCe = [] ∧ s.runPlan stop fn (osel w 15 5) (osel w 0 2) = some p) ∧ (∃ (c : Nat → Instr)
    (fn : Nat) (s : State) (stop w : Nat) (p : RunPlan), (c, fn) ∈ [(Instr.softmax, 0), (Instr.lnorm, 1), (Instr.gnStat, 2),
    (Instr.gnApply, 3), (Instr.maxpool, 4), (Instr.avgpool, 5), (Instr.resizeN, 6), (Instr.resizeB, 7), (Instr.topk, 8), (Instr.dwconv,
    9)] ∧ Lone s stop 1 (.run fn) w ∧ s.inFlight stop = false ∧ (s.sftile stop).lmUe = [] ∧ (s.sftile stop).lmCe = [] ∧ s.runPlan stop fn
    (osel w 15 5) (osel w 0 2) = some p) ∧ (∃ (c : Nat → Instr) (fn : Nat) (s : State) (stop w : Nat), (c, fn) ∈ [(Instr.softmax, 0),
    (Instr.lnorm, 1), (Instr.gnStat, 2), (Instr.gnApply, 3), (Instr.maxpool, 4), (Instr.avgpool, 5), (Instr.resizeN, 6), (Instr.resizeB,
    7), (Instr.topk, 8), (Instr.dwconv, 9)] ∧ Lone s stop 1 (.run fn) w ∧ s.inFlight stop = false ∧ s.runPlan stop fn (osel w 15 5) (osel
    w 0 2) = none) :=
  ⟨⟨Instr.softmax, 0, runs 0 (bnd 0 0 0 (5 * 2 ^ 24 + (0 * 2 ^ 20)) 0 0) [(reg 0 0xD100, 0x00100000), (reg 0 0xD104, 1)], 0,
  5 * 2 ^ 24 + 0 * 2 ^ 20, ((runs 0 (bnd 0 0 0 (5 * 2 ^ 24 + (0 * 2 ^ 20)) 0 0) [(reg 0 0xD100, 0x00100000), (reg 0 0xD104,
  1)]).runPlan 0 0 0 0).getD { cycles := 0, results := [], reads := [] }, by simp,
  by constructor <;> first | decide +kernel | exact form_of _ (by decide +kernel), by decide +kernel⟩, ⟨Instr.lnorm, 1,
  runs 0 (bnd 0 0 0 (5 * 2 ^ 24 + (1 * 2 ^ 20)) 0 0) [(reg 0 0xD100, 0x00100000), (reg 0 0xD104, 2)], 0, 5 * 2 ^ 24 + 1 * 2 ^ 20,
  ((runs 0 (bnd 0 0 0 (5 * 2 ^ 24 + (1 * 2 ^ 20)) 0 0) [(reg 0 0xD100, 0x00100000), (reg 0 0xD104,
  2)]).runPlan 0 1 0 0).getD { cycles := 0, results := [], reads := [] }, by simp,
  by constructor <;> first | decide +kernel | exact form_of _ (by decide +kernel), by decide +kernel⟩, ⟨Instr.gnStat, 2,
  runs 0 (bnd 0 0 0 (5 * 2 ^ 24 + (2 * 2 ^ 20)) 0 0) [(reg 0 0xD100, 0x00100000), (reg 0 0xD104, 0x80000102)], 0, 5 * 2 ^ 24 + 2 * 2 ^ 20,
  ((runs 0 (bnd 0 0 0 (5 * 2 ^ 24 + (2 * 2 ^ 20)) 0 0) [(reg 0 0xD100, 0x00100000), (reg 0 0xD104,
  0x80000102)]).runPlan 0 2 0 0).getD { cycles := 0, results := [], reads := [] }, by simp,
  by constructor <;> first | decide +kernel | exact form_of _ (by decide +kernel), by decide +kernel⟩, ⟨Instr.gnApply, 3,
  runs 0 (bnd 0 0 0 (5 * 2 ^ 24 + (3 * 2 ^ 20)) 0 0) [(reg 0 0xD100, 0x00100000), (reg 0 0xD104, 0x00000140)], 0, 5 * 2 ^ 24 + 3 * 2 ^ 20,
  ((runs 0 (bnd 0 0 0 (5 * 2 ^ 24 + (3 * 2 ^ 20)) 0 0) [(reg 0 0xD100, 0x00100000), (reg 0 0xD104,
  0x00000140)]).runPlan 0 3 0 0).getD { cycles := 0, results := [], reads := [] }, by simp,
  by constructor <;> first | decide +kernel | exact form_of _ (by decide +kernel), by decide +kernel⟩, ⟨Instr.maxpool, 4,
  runs 0 (bnd 0 0 0 (5 * 2 ^ 24 + (4 * 2 ^ 20)) 0 0) [(reg 0 0xD100, 0x00100000), (reg 0 0xD104, 0x00001002), (reg 0 0xD108, 0x00200002),
  (reg 0 0xD10C, 0), (reg 0 0xD110, 0x00800040), (reg 0 0xD114, 0)], 0, 5 * 2 ^ 24 + 4 * 2 ^ 20,
  ((runs 0 (bnd 0 0 0 (5 * 2 ^ 24 + (4 * 2 ^ 20)) 0 0) [(reg 0 0xD100, 0x00100000), (reg 0 0xD104, 0x00001002), (reg 0 0xD108,
  0x00200002), (reg 0 0xD10C, 0), (reg 0 0xD110, 0x00800040), (reg 0 0xD114,
  0)]).runPlan 0 4 0 0).getD { cycles := 0, results := [], reads := [] }, by simp,
  by constructor <;> first | decide +kernel | exact form_of _ (by decide +kernel), by decide +kernel⟩, ⟨Instr.avgpool, 5,
  runs 0 (bnd 0 0 0 (5 * 2 ^ 24 + (5 * 2 ^ 20)) 0 0) [(reg 0 0xD100, 0x00100000), (reg 0 0xD104, 0x00001002), (reg 0 0xD108, 0x00200002),
  (reg 0 0xD10C, 0), (reg 0 0xD110, 0x00800040), (reg 0 0xD114, 0)], 0, 5 * 2 ^ 24 + 5 * 2 ^ 20,
  ((runs 0 (bnd 0 0 0 (5 * 2 ^ 24 + (5 * 2 ^ 20)) 0 0) [(reg 0 0xD100, 0x00100000), (reg 0 0xD104, 0x00001002), (reg 0 0xD108,
  0x00200002), (reg 0 0xD10C, 0), (reg 0 0xD110, 0x00800040), (reg 0 0xD114,
  0)]).runPlan 0 5 0 0).getD { cycles := 0, results := [], reads := [] }, by simp,
  by constructor <;> first | decide +kernel | exact form_of _ (by decide +kernel), by decide +kernel⟩, ⟨Instr.resizeN, 6,
  runs 0 (bnd 0 0 0 (5 * 2 ^ 24 + (6 * 2 ^ 20)) 0 0) [(reg 0 0xD100, 0x00100000), (reg 0 0xD104, 0x00001002), (reg 0 0xD108, 0x00200002),
  (reg 0 0xD10C, 0), (reg 0 0xD110, 0x00800040), (reg 0 0xD114, 0)], 0, 5 * 2 ^ 24 + 6 * 2 ^ 20,
  ((runs 0 (bnd 0 0 0 (5 * 2 ^ 24 + (6 * 2 ^ 20)) 0 0) [(reg 0 0xD100, 0x00100000), (reg 0 0xD104, 0x00001002), (reg 0 0xD108,
  0x00200002), (reg 0 0xD10C, 0), (reg 0 0xD110, 0x00800040), (reg 0 0xD114,
  0)]).runPlan 0 6 0 0).getD { cycles := 0, results := [], reads := [] }, by simp,
  by constructor <;> first | decide +kernel | exact form_of _ (by decide +kernel), by decide +kernel⟩, ⟨Instr.resizeB, 7,
  runs 0 (bnd 0 0 0 (5 * 2 ^ 24 + (7 * 2 ^ 20)) 0 0) [(reg 0 0xD100, 0x00100000), (reg 0 0xD104, 0x00001002), (reg 0 0xD108, 0x00200002),
  (reg 0 0xD10C, 0), (reg 0 0xD110, 0x00800040), (reg 0 0xD114, 0)], 0, 5 * 2 ^ 24 + 7 * 2 ^ 20,
  ((runs 0 (bnd 0 0 0 (5 * 2 ^ 24 + (7 * 2 ^ 20)) 0 0) [(reg 0 0xD100, 0x00100000), (reg 0 0xD104, 0x00001002), (reg 0 0xD108,
  0x00200002), (reg 0 0xD10C, 0), (reg 0 0xD110, 0x00800040), (reg 0 0xD114,
  0)]).runPlan 0 7 0 0).getD { cycles := 0, results := [], reads := [] }, by simp,
  by constructor <;> first | decide +kernel | exact form_of _ (by decide +kernel), by decide +kernel⟩, ⟨Instr.topk, 8,
  runs 0 (bnd 0 0 0 (5 * 2 ^ 24 + (8 * 2 ^ 20)) 0 0) [(reg 0 0xD100, 0x00100000), (reg 0 0xD104, 0x00020003)], 0, 5 * 2 ^ 24 + 8 * 2 ^ 20,
  ((runs 0 (bnd 0 0 0 (5 * 2 ^ 24 + (8 * 2 ^ 20)) 0 0) [(reg 0 0xD100, 0x00100000), (reg 0 0xD104,
  0x00020003)]).runPlan 0 8 0 0).getD { cycles := 0, results := [], reads := [] }, by simp,
  by constructor <;> first | decide +kernel | exact form_of _ (by decide +kernel), by decide +kernel⟩, ⟨Instr.dwconv, 9,
  runs 0 (bnd 0 0 0 (5 * 2 ^ 24 + (9 * 2 ^ 20)) 0 0) [(reg 0 0xD100, 0x00100000), (reg 0 0xD104, 0x12001002), (reg 0 0xD108, 0x00200002),
  (reg 0 0xD10C, 0), (reg 0 0xD110, 0x00800040), (reg 0 0xD114, 0)], 0, 5 * 2 ^ 24 + 9 * 2 ^ 20,
  ((runs 0 (bnd 0 0 0 (5 * 2 ^ 24 + (9 * 2 ^ 20)) 0 0) [(reg 0 0xD100, 0x00100000), (reg 0 0xD104, 0x12001002), (reg 0 0xD108,
  0x00200002), (reg 0 0xD10C, 0), (reg 0 0xD110, 0x00800040), (reg 0 0xD114,
  0)]).runPlan 0 9 0 0).getD { cycles := 0, results := [], reads := [] }, by simp,
  by constructor <;> first | decide +kernel | exact form_of _ (by decide +kernel), by decide +kernel⟩, ⟨Instr.softmax, 0,
  runs 0 (bnd 0 0 0 (5 * 2 ^ 24 + 0) 0 0), 0, 5 * 2 ^ 24 + 0, by simp,
  by constructor <;> first | decide +kernel | exact form_of _ (by decide +kernel), by decide +kernel⟩⟩

theorem test_witness_SftOutputOperations :
    (∃ (s : State) (stop w : Nat), Lone s stop 2 .nsend w ∧ s.inFlight stop = false ∧ (s.sftile stop).lmUe = [] ∧ (s.sftile stop).lmCe =
    [] ∧ bitOf (s.rtReg stop (osel w 17 4) 0) 31 = true) ∧ (∃ (s : State) (stop w : Nat), Lone s stop 2 .stv w ∧ s.inFlight stop = false ∧
    s.afAddr stop (osel w 16 5) + 4 ≤ 1536) ∧ (∃ (s : State) (stop w : Nat), Lone s stop 2 .sendm w ∧ s.inFlight stop = false ∧ (s.sftile
    stop).lmUe = [] ∧ (s.sftile stop).lmCe = [] ∧ s.afAddr stop (osel w 19 5) < 1536 ∧ bitOf (s.rtReg stop (osel w 15 4) 0) 31 = true) :=
  ⟨⟨runs 0 (bnd 0 0 0 0 (1 * 2 ^ 24 + (2 ^ 21)) 0) [(reg 0 0x0500, 0x80000221), (reg 0 0x0504,
  7)] { sft := [(0, { v := [(64, 0x3F800000)] })] }, 0, 1 * 2 ^ 24 + (2 ^ 21),
  by constructor <;> first | decide +kernel | exact form_of _ (by decide +kernel), by decide +kernel⟩,
  ⟨runs 0 (bnd 0 0 0 0 (2 * 2 ^ 24 + (2 ^ 21)) 0) [(reg 0 0xD100, 1532)] { sft := [(0, { v := [(64, 0x3F800000)] })] }, 0,
  2 * 2 ^ 24 + (2 ^ 21), by constructor <;> first | decide +kernel | exact form_of _ (by decide +kernel), by decide +kernel⟩,
  ⟨runs 0 (bnd 0 0 0 0 (3 * 2 ^ 24 + (2 ^ 13)) 0) [(reg 0 0x0500, 0x80000221), (reg 0 0x0504, 7), (reg 0 0xD100,
  1535)] { sft := [(0, { lm := [(0x20000 - 64, 5)] })] }, 0, 3 * 2 ^ 24 + (2 ^ 13),
  by constructor <;> first | decide +kernel | exact form_of _ (by decide +kernel), by decide +kernel⟩⟩

theorem test_witness_NarrowingRoundsToNearestEven :
    (∃ (acc bias zp lo hi v p u rem e8 : Int) (o : Bool) (m s : Nat), v = max (-2147483648) (min 2147483647 (acc + bias)) ∧ p = v * m ∧ u
    = zp + rneShift p s ∧ rem = p - rneShift p s * 2 ^ s ∧ e8 = (rem * 256).tdiv (2 ^ s)) ∧ (∃ (acc bias zp lo hi v p u rem e8 : Int) (o :
    Bool) (m s : Nat), v = max (-2147483648) (min 2147483647 (acc + bias)) ∧ p = v * m ∧ u = zp + rneShift p s ∧ rem = p - rneShift p s *
    2 ^ s ∧ e8 = (rem * 256).tdiv (2 ^ s)) ∧ (∃ (c : MonSet) (r : Narrowed), c.count < top32 ∧ c.satLo < top32 ∧ c.satHi < top32 ∧ c.ovf <
    top32 ∧ c.sse < 2 ^ 47 ∧ (∀ sq, r.cas = .inRange sq → sq < 2 ^ 46)) :=
  ⟨⟨1903, -175, 12, 0, 255, 1728, 42467328, 52, 524288, 128, false, 0x6000, 20, by decide +kernel⟩, ⟨2147483647, 1, -5, -128, 127,
  2147483647, 43980465090560, 671088635, -20480, -80, false, 20480, 16, by decide +kernel⟩, ⟨{}, ⟨52, .inRange 16384, false⟩,
  by decide +kernel, by decide +kernel, by decide +kernel, by decide +kernel, by decide +kernel, by intro sq h; cases h; decide⟩⟩

theorem test_witness_MemoryTileSends :
    (∃ (s : State) (stop w : Nat), Lone s stop 2 .sendq w ∧ s.inFlight stop = false ∧ Still s stop ∧ osel w 10 1 = 0 ∧ osel w 11 1 = 0 ∧
    Holds s stop (osel w 18 6)) ∧ (∃ (s : State) (stop w : Nat), Lone s stop 2 .senda w ∧ s.inFlight stop = false ∧ Still s stop) ∧ (∃ (s
    : State) (stop w o : Nat), Lone s stop 2 .sendb w ∧ s.inFlight stop = false ∧ s.afAddr stop (osel w 14 5) = o ∧ s.handleOk stop (s.ctx
    stop (osel w 19 5)) = true ∧ o < s.bufCells stop (hBuf (s.ctx stop (osel w 19 5)))) ∧ (∃ (s : State) (stop w l : Nat) (rest : List
    Nat), Lone s stop 1 .hpop w ∧ s.inFlight stop = false ∧ Still s stop ∧ Holds s stop (osel w 18 6) ∧ (s.qx stop (osel w 18 6)).slots =
    l :: rest) ∧ (∃ (s : State) (stop w : Nat), Lone s stop 1 .hret w ∧ s.inFlight stop = false ∧ Still s stop) :=
  ⟨⟨runs 32 (bnd 0 0 0 0 (1 * 2 ^ 24 + 0) 0) [(reg 32 0x1000, 0x00100001), (reg 32 0x1010, 1)], 32, 1 * 2 ^ 24 + 0,
  by constructor <;> first | decide +kernel | exact form_of _ (by decide +kernel), by decide +kernel, by unfold Still; decide +kernel,
  by decide +kernel, by decide +kernel, by constructor <;> first | decide +kernel | exact form_of _ (by decide +kernel)⟩,
  ⟨runs 32 (bnd 0 0 0 0 (2 * 2 ^ 24 + (2 ^ 13)) 0) [(reg 32 0xD100, 24576)], 32, 2 * 2 ^ 24 + (2 ^ 13),
  by constructor <;> first | decide +kernel | exact form_of _ (by decide +kernel), by decide +kernel, by unfold Still; decide +kernel⟩,
  ⟨runs 32 (bnd 0 0 0 0 (3 * 2 ^ 24 + (7 * 2 ^ 19 + 3 * 2 ^ 8)) 0) [(reg 32 0x4008, 0x00010005), (reg 32 0x400C, 0x00004040),
  (reg 32 0xD11C, 0x00010001), (reg 32 0xD100, 1)], 32, 3 * 2 ^ 24 + (7 * 2 ^ 19 + 3 * 2 ^ 8), 1,
  by constructor <;> first | decide +kernel | exact form_of _ (by decide +kernel), by decide +kernel⟩,
  ⟨runs 32 (bnd 0 0 0 (1 * 2 ^ 24 + 0) 0 0) [(reg 32 0x1000, 0x00100003), (reg 32 0x1010,
  1)] { mt := [(32, { qx := [(0, { slots := [17], tags := [3] })] })] }, 32, 1 * 2 ^ 24 + 0, 17, [],
  by constructor <;> first | decide +kernel | exact form_of _ (by decide +kernel), by decide +kernel, by unfold Still; decide +kernel,
  by constructor <;> first | decide +kernel | exact form_of _ (by decide +kernel), by decide +kernel⟩,
  ⟨runs 32 (bnd 0 0 0 (2 * 2 ^ 24 + 0) 0 0) [(reg 32 0xD100, 0x01020003), (reg 32 0xD104, 4)], 32, 2 * 2 ^ 24 + 0,
  by constructor <;> first | decide +kernel | exact form_of _ (by decide +kernel), by decide +kernel, by unfold Still; decide +kernel⟩⟩

theorem test_witness_ExpanderAndStreamSlots :
    (∃ (s : State) (stop w : Nat), Lone s stop 0 .expand w ∧ s.inFlight stop = false ∧ (s.xdesc stop (osel w 20 4)).ok = true) ∧ (∃ (s :
    State) (stop : Nat) (f : Flush), Form s ∧ stop < 448 ∧ kindOf stop = .mt ∧ (s.mtile stop).flushes = [f] ∧ s.schState stop ≠ 2 ∧
    f.start ≤ s.cycOf stop + 1 ∧ f.keep = true) ∧ (∃ (s : State) (stop k : Nat), Form s ∧ stop < 448 ∧ kindOf stop = .mt ∧ k < 16 ∧ s.flag
    (reg stop (0x2404 + 16 * k)) 0 = false ∧ (s.sdesc stop k).epoch = s.epochOf stop ∧ (s.sdesc stop k).check = 0) ∧ (∃ (s : State) (stop
    k : Nat), Form s ∧ stop < 448 ∧ kindOf stop = .mt ∧ k < 16 ∧ s.flag (reg stop (0x2404 + 16 * k)) 0 = true) ∧ (∃ (s : State) (stop w :
    Nat), Lone s stop 0 .fetch w ∧ s.inFlight stop = false ∧ s.flag (reg stop (0x2404 + 16 * osel w 20 4)) 0 = false ∧ (s.sdesc stop (osel
    w 20 4)).epoch = s.epochOf stop ∧ (s.sdesc stop (osel w 20 4)).check = 0) ∧ (∃ (s : State) (stop k : Nat), Form s ∧ stop < 448 ∧
    kindOf stop = .mt ∧ k < 16 ∧ s.flag (reg stop (0x2404 + 16 * k)) 0 = true ∧ s.rf (reg stop (0x2404 + 16 * k)) 8 8 = 0 ∧ s.strm stop k
    = {} ∧ (s.sdesc stop k).check = 0 ∧ (∀ j < 16, j ≠ k → s.flag (sstat stop j) 0 = false)) ∧ (∃ (s : State) (stop w : Nat), Lone s stop
    0 .shalt w ∧ s.inFlight stop = false ∧ s.flag (reg stop (0x2404 + 16 * osel w 20 4)) 0 = true ∧ s.rf (reg stop (0x2404 + 16 * osel w
    20 4)) 8 8 = 0 ∧ s.strm stop (osel w 20 4) = {} ∧ (s.sdesc stop (osel w 20 4)).check = 0 ∧ (∀ j < 16, j ≠ osel w 20 4 → s.flag (sstat
    stop j) 0 = false)) :=
  ⟨⟨runs 32 (bnd 0 0 (1 * 2 ^ 24 + 0) 0 0 0) [(reg 32 0x3000, 0x00008000), (reg 32 0x3004, 0x80000040)], 32, 1 * 2 ^ 24 + 0,
  by constructor <;> first | decide +kernel | exact form_of _ (by decide +kernel), by decide +kernel⟩, ⟨mk [(reg 32 0x3084, 0x00030000),
  (reg 32 0x3080, 0x03000000)] { mt := [(32, { flushes := [{ buf := 0, tcl := 0, start := 1, keep := true }] })] }, 32,
  { buf := 0, tcl := 0, start := 1, keep := true }, form_of _ (by decide +kernel), by decide +kernel⟩, ⟨mk [(reg 32 0x2004, 0x00040000),
  (reg 32 0x2010, 1)], 32, 0, form_of _ (by decide +kernel), by decide +kernel⟩, ⟨mk [(reg 32 0x24F4, 1)], 32, 15,
  form_of _ (by decide +kernel), by decide +kernel⟩, ⟨runs 32 (bnd 0 0 (2 * 2 ^ 24 + 0) 0 0 0) [(reg 32 0x2004, 0x00040000),
  (reg 32 0x2010, 1)], 32, 2 * 2 ^ 24 + 0, by constructor <;> first | decide +kernel | exact form_of _ (by decide +kernel),
  by decide +kernel⟩, ⟨mk [(reg 32 0x2404, 1), (reg 32 0x2004, 0x00040000), (reg 32 0x2010, 1)], 32, 0, form_of _ (by decide +kernel),
  by decide +kernel⟩, ⟨runs 32 (bnd 0 0 (3 * 2 ^ 24 + 0) 0 0 0) [(reg 32 0x2404, 1), (reg 32 0x2004, 0x00040000), (reg 32 0x2010, 1)], 32,
  3 * 2 ^ 24 + 0, by constructor <;> first | decide +kernel | exact form_of _ (by decide +kernel), by decide +kernel⟩⟩

theorem test_witness_PushesIntoQueues :
    (∃ (s : State) (stop : Nat) (f : Flit), Form s ∧ Arriving s stop 0 f ∧ Takes s stop f.dstQ f.tag f.epoch ∧ (s.qOpen stop f.dstQ =
    false → s.qOpenLen stop f.dstQ = 0)) ∧ (∃ (s : State) (stop : Nat) (f : Flit), Form s ∧ Arriving s stop 0 f ∧ Takes s stop f.dstQ
    f.tag f.epoch ∧ (s.qOpen stop f.dstQ = false → s.qOpenLen stop f.dstQ = 0)) ∧ (∃ (s : State) (stop : Nat) (f : Flit), Form s ∧
    Arriving s stop 1 f ∧ Takes s stop f.dstQ f.tag f.epoch ∧ (s.qOpen stop f.dstQ = false → s.qOpenLen stop f.dstQ = 0) ∧ s.qLevel stop
    f.dstQ + s.qOpenLen stop f.dstQ < 65535) ∧ (∃ (s : State) (stop : Nat) (f : Flit), Form s ∧ Arriving s stop 2 f ∧ Takes s stop f.dstQ
    f.tag f.epoch ∧ s.qOpen stop f.dstQ = true) ∧ (∃ (s : State) (stop q : Nat) (h : Word), Form s ∧ stop < 448 ∧ kindOf stop = .mt ∧ hBuf
    h ≤ 1023 ∧ hMt h = mtIndex stop ∧ s.rf (bufHi stop (hBuf h)) 0 6 = q ∧ s.bufCells stop (hBuf h) ≠ 0 ∧ hGen h = s.bufGen stop (hBuf h)
    ∧ s.bufState stop (hBuf h) = 1 ∧ s.qbit stop q 0 0 = true ∧ s.qbit stop q 0 2 = true ∧ s.qbit stop q 0x18 5 = false ∧ s.handleOver
    stop q = false ∧ s.hostMi stop = true ∧ s.qLevel stop q < 65535 ∧ (s.qx stop q).spill = none ∧ nextSlot (s.qx stop q) (s.qLimit stop
    q) = none ∧ (s.mtile stop).poolFree ≠ 0) :=
  ⟨⟨mk [(reg 32 0x1000,
  0x00100001)] { mesh := { into := [(32, { noFlit with tag := 5, dstQ := 0, op := 0 })] }, mt := [(32, { free := [7] })] }, 32,
  { noFlit with tag := 5, dstQ := 0, op := 0 }, form_of _ (by decide +kernel), by unfold Arriving; decide +kernel,
  by constructor <;> first | decide +kernel | exact form_of _ (by decide +kernel), by decide +kernel⟩, ⟨mk [(reg 32 0x1000, 0x20000001),
  (reg 32 0x1008, 0), (reg 32 0x100C,
  0x2FFF0000)] { mesh := { into := [(32, { noFlit with tag := 5, dstQ := 0, op := 0 })] }, mt := [(32, { free := [7], qx := [(0, { openTag := 5 })] })] },
  32, { noFlit with tag := 5, dstQ := 0, op := 0 }, form_of _ (by decide +kernel), by unfold Arriving; decide +kernel,
  by constructor <;> first | decide +kernel | exact form_of _ (by decide +kernel), by decide +kernel⟩, ⟨mk [(reg 32 0x1000, 0x00100001),
  (reg 32 0x100C,
  0x20020000)] { mesh := { into := [(32, { noFlit with tag := 5, dstQ := 0, op := 1 })] }, mt := [(32, { free := [7], qx := [(0, { openTag := 5 })] })] },
  32, { noFlit with tag := 5, dstQ := 0, op := 1 }, form_of _ (by decide +kernel), by unfold Arriving; decide +kernel,
  by constructor <;> first | decide +kernel | exact form_of _ (by decide +kernel), by decide +kernel⟩, ⟨mk [(reg 32 0x1000, 0x00100001),
  (reg 32 0x100C,
  0x20010000)] { mesh := { into := [(32, { noFlit with tag := 5, dstQ := 0, op := 2 })] }, mt := [(32, { free := [7], qx := [(0, { openTag := 5 })] })] },
  32, { noFlit with tag := 5, dstQ := 0, op := 2 }, form_of _ (by decide +kernel), by unfold Arriving; decide +kernel,
  by constructor <;> first | decide +kernel | exact form_of _ (by decide +kernel), by decide +kernel⟩, ⟨mk [(reg 32 0x1000, 0x00080007),
  (reg 32 0x4008, 0x00008000), (reg 32 0x400C, 0x00004040)] { mt := [(32, { free := [7] })] }, 32, 0, 0x00010001,
  form_of _ (by decide +kernel), by decide +kernel⟩⟩

theorem test_witness_StreamsAndHbmPorts :
    (∃ (s : State) (stop k p : Nat) (d : Desc) (x : Strm) (data : Tbl (List Byte)), Form s ∧ stop < 448 ∧ kindOf stop = .mt ∧ k < 16 ∧
    s.flag (reg stop (0x2404 + 16 * k)) 0 = true ∧ s.sdesc stop k = d ∧ s.strm stop k = x ∧ d.padRun x.next d.perPacket = p ∧ tputAll []
    x.data ((List.range p).map fun i => (x.next + i, List.replicate d.esize d.padValue)) = data ∧ (p = 0 ∨ (x.pkt * d.perPacket < d.total
    ∧ d.cellBytes data x.pkt x.cell = none ∧ ∀ j < 16, j ≠ k → s.feNext stop j = .idle)) ∧ d.epoch = s.epochOf stop ∧ x.stopping = 0 ∧
    x.popping = false ∧ x.resvEnd ≤ x.next ∧ x.next < d.total ∧ d.toBuf = false ∧ s.qLevel stop d.dstQ + (s.qx stop d.dstQ).behind false +
    s.qOpenLen stop d.dstQ + s.qResv stop d.dstQ + d.pktCells ≤ s.qLimit stop d.dstQ) ∧ (∃ (s : State) (stop k l : Nat) (rest : List Nat)
    (d : Desc) (x : Strm), Form s ∧ stop < 448 ∧ kindOf stop = .mt ∧ k < 16 ∧ s.flag (reg stop (0x2404 + 16 * k)) 0 = true ∧ s.sdesc stop
    k = d ∧ s.strm stop k = x ∧ d.epoch = s.epochOf stop ∧ x.stopping = 0 ∧ x.popping = false ∧ x.resvEnd ≤ x.next ∧ x.next < d.total ∧
    d.toBuf = true ∧ (s.mtile stop).cy.mo = [] ∧ Holds s stop d.freeQ ∧ (s.qx stop d.freeQ).slots = l :: rest) ∧ (∃ (s : State) (stop k n
    p : Nat) (a : Int) (d : Desc) (x : Strm) (data : Tbl (List Byte)), Form s ∧ stop < 448 ∧ kindOf stop = .mt ∧ ((List.range 16).map fun
    j => s.rf (reg stop (0x2404 + 16 * j)) 8 8).sum < 128 ∧ s.chooseSlot stop = some k ∧ s.sdesc stop k = d ∧ s.strm stop k = x ∧ d.addr
    x.next = some a ∧ 0 ≤ a ∧ a < 0xC00000000 ∧ d.blockRun (a / 64) x.next (x.resvEnd - x.next) = n ∧ d.padRun (x.next + n) (x.resvEnd -
    (x.next + n)) = p ∧ tputAll [] x.data ((List.range p).map fun i => (x.next + n + i, List.replicate d.esize d.padValue)) = data ∧ (p =
    0 ∨ (x.pkt * d.perPacket < d.total ∧ d.cellBytes data x.pkt x.cell = none ∧ ∀ j < 16, j ≠ k → s.feNext stop j = .idle))) ∧ (∃ (s :
    State) (port : Nat) (r : FRead), Form s ∧ port < 16 ∧ s.candidate port = some r ∧ (grantReads (((List.range 16).filterMap
    s.candidate).foldl (fun l r => insertRead r l) []) (s.rf 0x0300F00C 0 16) (s.rf 0x0300F00C 16 16) (s.rf 0x0300F010 0 16)).contains r =
    true) ∧ (∃ (s : State), Form s) ∧ (∃ (s : State) (i : Nat) (r : FRead) (d : Desc) (x : Strm) (got : List (Nat × List Byte)), Form s ∧
    s.reads[i]? = some r ∧ r.admitted = true ∧ r.stop < 448 ∧ r.slot < 16 ∧ s.hbm.ue = [] ∧ s.hbm.ce = [] ∧ s.sdesc r.stop r.slot = d ∧
    s.strm r.stop r.slot = x ∧ x.next ≠ 0 ∧ x.stopping = 0 ∧ x.pkt * d.perPacket < d.total ∧ s.flag (reg r.stop (0x2404 + 16 * r.slot)) 0
    = true ∧ ((List.range r.n).map fun j => (r.el + j, (((List.range 64).map fun b => tget 0 s.hbm.bytes (r.addr + b)).drop (((d.addr
    (r.el + j)).getD 0).toNat % 64)).take d.esize)) = got ∧ d.cellBytes (tputAll [] x.data got) x.pkt x.cell = none ∧ (∀ j < 16, j ≠
    r.slot → s.feNext r.stop j = .idle)) :=
  ⟨⟨strmS 2 {} 1, 32, 0, 0, (strmS 2 {} 1).sdesc 32 0, {}, [], form_of _ (by decide +kernel), by decide +kernel⟩, ⟨bufS, 32, 0, 17, [18],
  bufS.sdesc 32 0, {}, form_of _ (by decide +kernel), by decide +kernel, by decide +kernel, by decide +kernel, by decide +kernel,
  by decide +kernel, by decide +kernel, by decide +kernel, by decide +kernel, by decide +kernel, by decide +kernel, by decide +kernel,
  by decide +kernel, by decide +kernel, by constructor <;> first | decide +kernel | exact form_of _ (by decide +kernel),
  by decide +kernel⟩, ⟨strmS 2 { resvEnd := 2, resv := 2 } 1, 32, 0, 1, 0, 0x1000, (strmS 2 { resvEnd := 2, resv := 2 } 1).sdesc 32 0,
  { resvEnd := 2, resv := 2 }, [], form_of _ (by decide +kernel), by decide +kernel⟩, ⟨mk [(0x0300F00C, 5), (0x0300F010,
  3)] { reads := [hread false] }, 4, hread false, form_of _ (by decide +kernel), by decide +kernel⟩, ⟨mk [(0x0300F000, 0x00100180),
  (0x0300F004, 0x00100080), (0x0300F008, 0x00200300)] { bucket := { accA := 200 } }, form_of _ (by decide +kernel)⟩, ⟨retS, 0, hread true,
  retS.sdesc 32 0, retS.strm 32 0, [(0, [7]), (1, [0]), (2, [9])], form_of _ (by decide +kernel), by decide +kernel⟩⟩

theorem test_witness_RingWriters :
    (∃ (s : State) (stop k : Nat) (f : Flit), Form s ∧ kindOf stop = .mt ∧ stop < 448 ∧ (s.mesh.into.find? fun x => x.1 == stop) = some
    (stop, f) ∧ s.writerOf stop f.dstQ = some k ∧ f.epoch = s.epochOf stop ∧ f.op ≠ 2 ∧ ((s.setWrt stop k
    { s.wrt stop k with resv := (s.wrt stop k).resv - 1 }).wrt stop k).bufs = [] ∧ s.rf (rwReg stop k 0x14) 0 13 + 1 < s.rf (rwReg stop k
    0xC) 0 13) ∧ (∃ (s : State) (stop k : Nat) (f : Flit), Form s ∧ kindOf stop = .mt ∧ stop < 448 ∧ (s.mesh.into.find? fun x => x.1 ==
    stop) = some (stop, f) ∧ s.writerOf stop f.dstQ = some k ∧ f.epoch ≠ s.epochOf stop) ∧ (∃ (s : State) (stop k : Nat) (g : Gather)
    (rest : List Gather) (p : Payload), Form s ∧ kindOf stop = .mt ∧ stop < 448 ∧ k < 4 ∧ s.miFree stop k = true ∧ s.flag (rwReg stop k 0)
    0 = true ∧ s.debugPerm 0 = false ∧ (s.wrt stop k).bot + (s.wrt stop k).top = 0 ∧ (s.wrt stop k).bufs = g :: rest ∧ g.full = true ∧
    (s.wrt stop k).cell < s.rf (rwReg stop k 0) 20 7 ∧ (g.ends = false ∨ (s.wrt stop k).cell + 1 < s.rf (rwReg stop k 0) 20 7) ∧ payloadOf
    ((List.range 64).map fun i => if i < g.n then tget 0 g.bytes (i * 64 + (s.wrt stop k).cell) else (s.rd (rwReg stop k 4)).extractLsb'
    24 8) = p) ∧ (∃ (s : State) (stop k rc : Nat), Form s ∧ kindOf stop = .mt ∧ stop < 448 ∧ k < 4 ∧ s.miFree stop k = true ∧ s.flag
    (rwReg stop k 0) 0 = true ∧ s.debugPerm 0 = false ∧ (s.wrt stop k).bot + (s.wrt stop k).top ≠ 0 ∧ s.rf (rwReg stop k 4) 15 7 = rc ∧
    (s.wrt stop k).cell + 1 < s.rf (rwReg stop k 0) 20 7 * rc) :=
  ⟨⟨ringS (mflit 32 3 0), 32, 0, mflit 32 3 0, form_of _ (by decide +kernel), by decide +kernel⟩, ⟨ringS { mflit 32 3 0 with epoch := 9 },
  32, 0, { mflit 32 3 0 with epoch := 9 }, form_of _ (by decide +kernel), by decide +kernel⟩, ⟨gbS { bufs := [gb], rho := 1 }, 32, 0, gb,
  [], payloadOf ((List.range 64).map fun i => if i < 2 then tget 0 gb.bytes (i * 64) else 0x11), form_of _ (by decide +kernel),
  by decide +kernel⟩, ⟨gbS { bot := 1 }, 32, 0, 2, form_of _ (by decide +kernel), by decide +kernel⟩⟩

theorem test_witness_SpillAndRestore :
    (∃ (s : State) (stop q c side room : Nat) (v : Payload) (p : Spill) (rest : List SpCell), Form s ∧ stop < 448 ∧ kindOf stop = .mt ∧ q
    < 64 ∧ (s.qx stop q).spill = some p ∧ p.writing = { cell := c, sent := some (side, v) } :: rest ∧ p.acks ≠ 0 ∧ p.rd ≤ p.wr ∧ p.cells ≠
    0 ∧ p.cells - (p.wr + 1 + rest.length - p.rd) = room) ∧ (∃ (s : State) (stop q c side room : Nat) (v : Payload) (p : Spill) (rest :
    List SpCell), Form s ∧ stop < 448 ∧ kindOf stop = .mt ∧ q < 64 ∧ (s.qx stop q).spill = some p ∧ p.writing =
    { cell := c, sent := some (side, v) } :: rest ∧ p.acks ≠ 0 ∧ p.rd ≤ p.wr ∧ p.cells ≠ 0 ∧ p.cells - (p.wr + 1 + rest.length - p.rd) =
    room) ∧ (∃ (s : State) (stop q c : Nat) (p : Spill) (rest : List Nat), Form s ∧ stop < 448 ∧ kindOf stop = .mt ∧ q < 64 ∧ (s.qx stop
    q).spill = some p ∧ p.asked = 2 ∧ s.restores stop q p = true ∧ p.rd + 1 < p.wr ∧ s.qIsHandle stop q = false ∧ (s.mtile stop).free = c
    :: rest ∧ (s.mtile stop).sideUe = [] ∧ s.hbm.ue = [] ∧ s.hbm.ce = [] ∧ (s.qx stop q).skip = false) :=
  ⟨⟨spS (spl [{ cell := 11 }]), 32, 3, 9, 5, 1, 0x77, spl [{ cell := 11 }], [{ cell := 11 }], form_of _ (by decide +kernel),
  by decide +kernel⟩, ⟨spS (spl []), 32, 3, 9, 5, 2, 0x77, spl [], [], form_of _ (by decide +kernel), by decide +kernel⟩, ⟨spS spr, 32, 3,
  7, spr, [8], form_of _ (by decide +kernel), by decide +kernel⟩⟩

theorem test_witness_FlitsCrossTheMesh :
    (∃ (s : State) (stop rt : Nat) (x : Xing), (s.mesh.cross.find? fun y => y.stop == stop && y.rt == rt) = some x ∧ x.ready ≤ s.cycOf
    stop ∧ x.flit.dst ≤ 447 ∧ (tget [] s.mesh.inj (stop * 16 + rt)).length < 8) ∧ (∃ (s : State) (stop rt : Nat) (x : Waiting) (rest :
    List Waiting), rt < 16 ∧ tget [] s.mesh.inj (stop * 16 + rt) = x :: rest ∧ x.since < s.ck ∧ s.inSlotSet stop rt (s.ck % 64) = true ∧
    x.flit.hdrErr = 0 ∧ tget 0 s.mesh.injCk (stop * 16 + rt) ≠ s.ck + 1 ∧ linkTo stop x.flit.dst < 4 ∧ (∀ y ∈ s.mesh.flying, ¬(y.stop =
    stop ∧ y.link = linkTo stop x.flit.dst ∧ y.enter = s.ck)) ∧ s.flag (trcReg (dieOf stop) 0) 0 = false) ∧ (∃ (s : State) (k n l cyc :
    Nat) (flips : List Nat) (x : Flying), s.mesh.flying[k]? = some x ∧ linkEnd x.stop x.link = n ∧ n ≠ x.flit.dst ∧ x.enter + hopCycles
    x.stop x.link = cyc ∧ cyc ≤ s.ck ∧ linkTo n x.flit.dst = l ∧ (overWire x.flit flips).hdrErr = 0 ∧ (∀ y ∈ s.mesh.flying.eraseIdx k,
    ¬(y.stop = n ∧ y.link = l ∧ y.enter = cyc))) ∧ (∃ (s : State) (k n : Nat) (flips : List Nat) (x : Flying), Form s ∧ s.mesh.flying[k]?
    = some x ∧ linkEnd x.stop x.link = n ∧ n ≠ x.flit.dst ∧ n < 448 ∧ x.enter + hopCycles x.stop x.link ≤ s.ck ∧ (overWire x.flit
    flips).hdrErr = 2 ∧ x.flit.rsv = true) ∧ (∃ (s : State) (k : Nat) (flips : List Nat) (x : Flying), s.mesh.flying[k]? = some x ∧
    linkEnd x.stop x.link = x.flit.dst ∧ x.enter + hopCycles x.stop x.link ≤ s.ck ∧ (overWire x.flit flips).hdrErr = 0 ∧ (∀ y ∈
    s.mesh.flying.eraseIdx k, y.flit.dst = x.flit.dst → linkEnd y.stop y.link = x.flit.dst → x.enter + hopCycles x.stop x.link ≤ y.enter +
    hopCycles y.stop y.link) ∧ (s.arrBuf x.flit.dst).length < 16) ∧ (∃ (s : State) (stop : Nat) (f : Flit) (rest : List Flit), (isTile
    stop = true ∨ isEngine stop = true) ∧ s.arrBuf stop = f :: rest ∧ tget 0 s.mesh.dep stop ≠ s.ck + 1 ∧ s.answers (stopDomain stop) =
    true ∧ f.par = 0 ∧ f.op < 3 ∧ f.typ < 8 ∧ f.dstQ < 8 ∧ s.canTake stop f = true ∧ s.writerOf stop f.dstQ = none ∧ s.flag (trcReg (dieOf
    stop) 0) 0 = false) ∧ (∃ (s : State) (k : Nat) (u : UFlit) (flips : List Nat), s.mesh.uns = [u] ∧ s.mesh.flying = [] ∧ k = 0 ∧ u.place
    = .source ∧ u.stop ≠ u.flit.dst ∧ linkTo u.stop u.flit.dst < 4 ∧ s.phase (stopDomain u.flit.dst) ≠ 1 ∧ s.answers (stopDomain u.stop) =
    true ∧ s.flag (trcReg (dieOf u.stop) 0) 0 = false) ∧ (∃ (s : State) (k inl out enter : Nat) (u : UFlit), s.mesh.uns[k]? = some u ∧
    u.place = .link inl out enter ∧ enter + hopCycles u.stop out ≤ s.ck ∧ linkEnd u.stop out = u.flit.dst ∧ u.flit.hdrErr = 0 ∧ u.flit.par
    = 0 ∧ s.answers (stopDomain u.flit.dst) = true ∧ s.flag (trcReg (dieOf u.flit.dst) 0) 0 = false) ∧ (∃ (s : State) (k inl out enter :
    Nat) (u : UFlit), s.mesh.uns[k]? = some u ∧ u.place = .link inl out enter ∧ enter + hopCycles u.stop out ≤ s.ck ∧ linkEnd u.stop out =
    u.flit.dst ∧ u.flit.hdrErr = 0 ∧ u.flit.par = 0 ∧ s.answers (stopDomain u.flit.dst) = true ∧ s.flag (trcReg (dieOf u.flit.dst) 0) 0 =
    false) :=
  ⟨⟨{ mesh := { cross := [{ stop := 33, rt := 0, flit := mflit 35 3 0, ready := 0 }] } }, 33, 0,
  { stop := 33, rt := 0, flit := mflit 35 3 0, ready := 0 }, by decide +kernel⟩,
  ⟨slotsS { ck := 5, mesh := { inj := [(528, [{ flit := mflit 35 3 0, since := 2 }])] } }, 33, 0, { flit := mflit 35 3 0, since := 2 },
  [], by decide +kernel⟩, ⟨slotsS { ck := 5, mesh := { flying := [mfly (mflit 35 3 0) 33 0 3] } }, 0, 34, 0, 5, [],
  mfly (mflit 35 3 0) 33 0 3, by decide +kernel⟩, ⟨{ ck := 5, mesh := { flying := [mfly (mflit 35 3 0) 33 0 3] } }, 0, 34, [512, 513],
  mfly (mflit 35 3 0) 33 0 3, form_of _ (by decide +kernel), by decide +kernel⟩,
  ⟨{ ck := 5, mesh := { flying := [mfly (mflit 35 3 0) 34 0 3] } }, 0, [], mfly (mflit 35 3 0) 34 0 3, by decide +kernel⟩,
  ⟨{ ck := 5, mesh := { arr := [(35, [mflit 35 3 0])] } }, 35, mflit 35 3 0, [], by decide +kernel⟩,
  ⟨{ mesh := { uns := [opFlit (.signal 9 1 33)] } }, 0, opFlit (.signal 9 1 33), [], by decide +kernel⟩,
  ⟨{ ck := 9, mesh := { uns := [lastHop 422 0 (opFlit (.signal 9 1 33))] } }, 0, 4, 0, 3, lastHop 422 0 (opFlit (.signal 9 1 33)),
  by decide +kernel⟩,
  ⟨{ ck := 9, mesh := { uns := [lastHop 422 0 (opFlit (.signal 9 1 33)), lastHop 424 0 (eventFlit { code := 1, stop := 33, value := 2, pipe := none })] } },
  1, 4, 0, 3, lastHop 424 0 (eventFlit { code := 1, stop := 33, value := 2, pipe := none }), by decide +kernel⟩⟩

theorem test_witness_CollisionsOnALink :
    (∃ (s : State) (stop rt : Nat) (x : Waiting) (rest : List Waiting) (o : Flying), Form s ∧ stop < 448 ∧ rt < 16 ∧ tget [] s.mesh.inj
    (stop * 16 + rt) = x :: rest ∧ x.since < s.ck ∧ s.inSlotSet stop rt (s.ck % 64) = true ∧ x.flit.hdrErr = 0 ∧ tget 0 s.mesh.injCk (stop
    * 16 + rt) ≠ s.ck + 1 ∧ linkTo stop x.flit.dst < 4 ∧ x.flit.flow < 8192 ∧ o.flit.flow < 8192 ∧ (s.mesh.flying.find? fun y => y.stop ==
    stop && y.link == linkTo stop x.flit.dst && y.enter == s.ck && linkTo stop x.flit.dst != 4) = some o ∧ s.flag (trcReg (dieOf stop) 0)
    0 = false ∧ s.debugPerm 0 = false ∧ s.flows = []) ∧ (∃ (s : State) (stop rt : Nat) (x : Waiting) (rest : List Waiting) (o : Flying),
    Form s ∧ stop < 448 ∧ rt < 16 ∧ tget [] s.mesh.inj (stop * 16 + rt) = x :: rest ∧ x.since < s.ck ∧ s.inSlotSet stop rt (s.ck % 64) =
    true ∧ x.flit.hdrErr = 0 ∧ tget 0 s.mesh.injCk (stop * 16 + rt) ≠ s.ck + 1 ∧ linkTo stop x.flit.dst < 4 ∧ x.flit.flow < 8192 ∧
    o.flit.flow < 8192 ∧ (s.mesh.flying.find? fun y => y.stop == stop && y.link == linkTo stop x.flit.dst && y.enter == s.ck && linkTo
    stop x.flit.dst != 4) = some o ∧ s.flag (trcReg (dieOf stop) 0) 0 = false ∧ s.debugPerm 0 = false ∧ s.flows = []) ∧ (∃ (s : State)
    (stop rt : Nat) (x : Waiting) (rest : List Waiting) (o : Flying), Form s ∧ stop < 448 ∧ rt < 16 ∧ tget [] s.mesh.inj (stop * 16 + rt)
    = x :: rest ∧ x.since < s.ck ∧ s.inSlotSet stop rt (s.ck % 64) = true ∧ x.flit.hdrErr = 0 ∧ tget 0 s.mesh.injCk (stop * 16 + rt) ≠
    s.ck + 1 ∧ linkTo stop x.flit.dst < 4 ∧ x.flit.flow < 8192 ∧ o.flit.flow < 8192 ∧ (s.mesh.flying.find? fun y => y.stop == stop &&
    y.link == linkTo stop x.flit.dst && y.enter == s.ck && linkTo stop x.flit.dst != 4) = some o ∧ s.flag (trcReg (dieOf stop) 0) 0 =
    false ∧ s.debugPerm 0 = false ∧ s.flows = []) :=
  ⟨⟨slotsS { ck := 5, mesh := { inj := [(528, [{ flit := mflit 35 3 0, since := 2 }])], flying := [mfly { mflit 36 2 0 with flow := 11 } 33 0 5] } },
  33, 0, { flit := mflit 35 3 0, since := 2 }, [], mfly { mflit 36 2 0 with flow := 11 } 33 0 5, form_of _ (by decide +kernel),
  by decide +kernel⟩,
  ⟨slotsS { ck := 5, mesh := { inj := [(528, [{ flit := mflit 35 3 0, since := 2 }])], flying := [mfly { mflit 36 2 0 with flow := 4 } 33 0 5] } },
  33, 0, { flit := mflit 35 3 0, since := 2 }, [], mfly { mflit 36 2 0 with flow := 4 } 33 0 5, form_of _ (by decide +kernel),
  by decide +kernel⟩,
  ⟨slotsS { ck := 5, mesh := { inj := [(528, [{ flit := mflit 35 3 0, since := 2 }])], flying := [mfly { mflit 36 2 0 with flow := 9 } 33 0 5] } },
  33, 0, { flit := mflit 35 3 0, since := 2 }, [], mfly { mflit 36 2 0 with flow := 9 } 33 0 5, form_of _ (by decide +kernel),
  by decide +kernel⟩⟩

theorem test_witness_ArrivalsAndChains :
    (∃ (s : State) (stop : Nat) (f : Flit), Form s ∧ (isTile stop = true ∨ isEngine stop = true) ∧ kindOf stop ≠ .mt ∧ f.dstQ < 8 ∧
    (s.mesh.into.find? fun x => x.1 == stop) = some (stop, f) ∧ (f.op ≠ 2 ∨ f.dstQ ≠ 7)) ∧ (∃ (s : State) (stop : Nat) (f : Flit), kindOf
    stop = .lnk ∧ stop < 448 ∧ s.link.closed.contains (txKey stop f.dstQ) = false ∧ (s.mesh.into.find? fun x => x.1 == stop) = some (stop,
    f)) ∧ (∃ (s : State) (k : Nat) (c : ChainFly), Form s ∧ s.chain[k]? = some c ∧ c.stop < 448 ∧ kindOf c.stop = .at ∧ s.flag (reg c.stop
    0x80) 31 = true ∧ s.rf (reg c.stop 0x80) 0 3 = c.port ∧ c.msg.mtype = 0x5C ∧ c.msg.firstPos ≤ s.rf (reg c.stop 0x80) 6 7 ∧ s.rf (reg
    c.stop 0x80) 6 7 = c.msg.lastPos ∧ (c.msg.group = 63 ∨ c.msg.group = s.rf (reg c.stop 0x80) 13 6) ∧ c.msg.ngran ≠ 0 ∧ (s.atile
    c.stop).loadReads c.msg.wsGran c.msg.ngran = false) ∧ (∃ (s : State) (k : Nat) (c : ChainFly), Form s ∧ s.chain[k]? = some c ∧ c.stop
    < 448 ∧ kindOf c.stop = .at ∧ s.flag (reg c.stop 0x80) 31 = true ∧ s.rf (reg c.stop 0x80) 0 3 = c.port ∧ c.msg.mtype = 0x5C ∧ s.rf
    (reg c.stop 0x80) 6 7 < c.msg.firstPos ∧ c.msg.firstPos ≤ c.msg.lastPos ∧ s.rf (reg c.stop 0x80) 3 3 ≠ 0) ∧ (∃ (s : State) (k : Nat)
    (c : ChainFly) (flips : List Flip), s.chain[k]? = some c ∧ s.rf (reg c.stop 0x80) 0 3 ≠ c.port) ∧ (∃ (s : State) (k : Nat) (c :
    ChainFly) (flips : List Flip), Form s ∧ s.chain[k]? = some c ∧ c.stop < 448 ∧ kindOf c.stop = .at ∧ s.flag (reg c.stop 0x80) 31 = true
    ∧ s.rf (reg c.stop 0x80) 0 3 = c.port ∧ flips.any badParity = true ∧ (∀ f ∈ flips, 8 ≤ f.word)) ∧ (∃ (s : State) (d : Nat) (r :
    TraceRec) (rest : List TraceRec), Form s ∧ d < 2 ∧ (s.trc d).stage = r :: rest ∧ s.flag (trcReg d 0) 1 = true) :=
  ⟨⟨{ mesh := { into := [(33, mflit 33 3 0)] } }, 33, mflit 33 3 0, form_of _ (by decide +kernel), by decide +kernel⟩,
  ⟨{ mesh := { into := [(421, mflit 421 33 0)] } }, 421, mflit 421 33 0, by decide +kernel⟩, ⟨mk [(reg 33 0x80,
  0x80000000)] { chain := [{ stop := 33, msg := chm 63 0 0 1 }] }, 0, { stop := 33, msg := chm 63 0 0 1 }, form_of _ (by decide +kernel),
  by decide +kernel⟩, ⟨mk [(reg 33 0x80, 0x80000018)] { chain := [{ stop := 33, msg := chm 63 1 2 1 }] }, 0,
  { stop := 33, msg := chm 63 1 2 1 }, form_of _ (by decide +kernel), by decide +kernel⟩, ⟨mk [(reg 33 0x80,
  0x80000001)] { chain := [{ stop := 33, msg := chm 63 0 0 1 }] }, 0, { stop := 33, msg := chm 63 0 0 1 }, [], by decide +kernel⟩,
  ⟨mk [(reg 33 0x80, 0x80000000)] { chain := [{ stop := 33, msg := chm 63 0 0 1 }] }, 0, { stop := 33, msg := chm 63 0 0 1 },
  [{ word := 8, bits := 1, par := false }], form_of _ (by decide +kernel), by decide +kernel⟩, ⟨mk [(trcReg 0 0, 0x000000A3), (trcReg 0 8,
  0x1000), (trcReg 0 0x30, 5)] { trace := [(0, { stage := [trR] })] }, 0, trR, [], form_of _ (by decide +kernel), by decide +kernel⟩⟩

theorem test_witness_LifeOfPipelines :
    (∃ (s : State) (k p : Nat) (c : Cmd), Form s ∧ Begins s k 2 c ∧ c.pipe = p ∧ s.pstate p = 1 ∧ Placed s p ∧ (s.pipeDomains p).all
    s.inRun = true) ∧ (∃ (s : State) (k p : Nat) (c : Cmd), Form s ∧ Begins s k 2 c ∧ c.pipe = p ∧ s.pstate p = 3 ∧ (s.pipeDomains p).all
    s.inRun = true) ∧ (∃ (s : State) (k p : Nat) (c : Cmd), Begins s k 2 c ∧ c.pipe = p ∧ s.pstate p = 2) ∧ (∃ (s : State) (k p : Nat) (c
    : Cmd), Form s ∧ Begins s k 2 c ∧ c.pipe = p ∧ (s.pstate p = 1 ∨ s.pstate p = 3) ∧ (s.pipeDomains p).all s.inRun = false) ∧ (∃ (s :
    State) (k p : Nat) (c : Cmd), Form s ∧ Begins s k 2 c ∧ c.pipe = p ∧ (s.pstate p = 1 ∨ s.pstate p = 3) ∧ (s.pipeDomains p).all s.inRun
    = false) ∧ (∃ (s : State) (k p : Nat) (c : Cmd), Form s ∧ Begins s k 3 c ∧ c.pipe = p ∧ s.pstate p = 2 ∧ Placed s p) ∧ (∃ (s : State)
    (p : Nat) (c : Cmd), Form s ∧ p < 64 ∧ (s.pipeAt p).phase = 1 ∧ (s.pipeAt p).cmd = some c ∧ s.allHalted p = true ∧ s.recsWait p =
    false ∧ Placed s p) ∧ (∃ (s : State) (k p : Nat) (c : Cmd), Form s ∧ Begins s k 4 c ∧ c.pipe = p ∧ s.pstate p = 2 ∧ Placed s p) ∧ (∃
    (s : State) (p : Nat), Form s ∧ p < 64 ∧ (s.pipeAt p).phase = 2 ∧ s.allHalted p = true) ∧ (∃ (s : State) (p : Nat), Form s ∧ p < 64 ∧
    (s.pipeAt p).phase = 3 ∧ s.drained p = true ∧ Placed s p) ∧ (∃ (s : State) (p : Nat) (c : Cmd), Form s ∧ p < 64 ∧ (s.pipeAt p).phase =
    4 ∧ (s.pipeAt p).since + s.gap p ≤ s.ck ∧ s.recsWait p = false ∧ (s.pipeAt p).cmd = some c ∧ (s.info p).entry.sync0 + (s.info
    p).entry.syncN ≤ 65536 ∧ Placed s p) :=
  ⟨⟨pipeS 1 { info := some (inf1 [33, 32, 0]), phase := 0 } [(reg 33 0xD000, 0x00050000)] [hc 2], 0, 1, hc 2,
  form_of _ (by decide +kernel), ⟨by decide +kernel, by decide +kernel, by decide +kernel, by decide +kernel⟩, by decide +kernel,
  by decide +kernel, ⟨by decide +kernel, by decide +kernel⟩, by decide +kernel⟩,
  ⟨pipeS 3 { info := some (inf1 [33, 32, 0]), phase := 0 } [] [hc 2], 0, 1, hc 2, form_of _ (by decide +kernel), ⟨by decide +kernel,
  by decide +kernel, by decide +kernel, by decide +kernel⟩, by decide +kernel⟩,
  ⟨pipeS 2 { info := some (inf1 [33, 32, 0]), phase := 0 } [] [hc 2], 0, 1, hc 2, ⟨by decide +kernel, by decide +kernel,
  by decide +kernel, by decide +kernel⟩, by decide +kernel⟩, ⟨pipeS 1 { info := some (inf1 [33, 32, 0]), phase := 0 } [(domReg 1,
  1)] [hc 2], 0, 1, hc 2, form_of _ (by decide +kernel), ⟨by decide +kernel, by decide +kernel, by decide +kernel, by decide +kernel⟩,
  by decide +kernel⟩, ⟨pipeS 3 { info := some (inf1 [33, 32, 0]), phase := 0 } [(domReg 1, 1)] [hc 2], 0, 1, hc 2,
  form_of _ (by decide +kernel), ⟨by decide +kernel, by decide +kernel, by decide +kernel, by decide +kernel⟩, by decide +kernel⟩,
  ⟨pipeS 2 { info := some (inf1 [33, 32, 0]), phase := 0 } [(reg 33 0xD004, 1)] [hc 3], 0, 1, hc 3, form_of _ (by decide +kernel),
  ⟨by decide +kernel, by decide +kernel, by decide +kernel, by decide +kernel⟩, by decide +kernel, by decide +kernel, ⟨by decide +kernel,
  by decide +kernel⟩⟩, ⟨pipeS 2 { info := some (inf1 [33, 32, 0]), phase := 1, cmd := some (hc 3) } [(reg 33 0xD004, 5)] [], 1, hc 3,
  form_of _ (by decide +kernel), by decide +kernel, by decide +kernel, by decide +kernel, by decide +kernel, by decide +kernel,
  ⟨by decide +kernel, by decide +kernel⟩⟩, ⟨pipeS 2 { info := some (inf1 [33, 32, 0]), phase := 0 } [(reg 33 0xD004, 1)] [hc 4], 0, 1,
  hc 4, form_of _ (by decide +kernel), ⟨by decide +kernel, by decide +kernel, by decide +kernel, by decide +kernel⟩, by decide +kernel,
  by decide +kernel, ⟨by decide +kernel, by decide +kernel⟩⟩, ⟨pipeS 2 { info := some (inf1 [33, 32, 0]), phase := 2 } [(reg 33 0xD004,
  5)] [], 1, form_of _ (by decide +kernel), by decide +kernel⟩,
  ⟨{ pipeS 2 { info := some (inf1 [33, 32, 0]), phase := 3 } [(reg 33 0x0218, 0x30005)] [] with lq := [(264, { q := [lf] })] }, 1,
  form_of _ (by decide +kernel), by decide +kernel, by decide +kernel, by decide +kernel, ⟨by decide +kernel, by decide +kernel⟩⟩,
  ⟨pipeS 2 { info := some (inf1 [33, 32, 0]), phase := 4, cmd := some (hc 4) } [(0x00800024, 5)] [], 1, hc 4,
  form_of _ (by decide +kernel), by decide +kernel, by decide +kernel, by decide +kernel, by decide +kernel, by decide +kernel,
  by decide +kernel, ⟨by decide +kernel, by decide +kernel⟩⟩⟩

theorem test_witness_EpochsReachTheirUnits :
    (∃ (s : State) (stop p : Nat), Form s ∧ stop < 448 ∧ kindOf stop = .at ∧ s.ownerPipe stop = some p ∧ s.pipeEpoch p ≠ s.epochOf stop) ∧
    (∃ (s : State) (stop p : Nat), Form s ∧ stop < 448 ∧ kindOf stop = .sft ∧ s.ownerPipe stop = some p ∧ s.pipeEpoch p ≠ s.epochOf stop)
    ∧ (∃ (s : State) (stop p : Nat), Form s ∧ stop < 448 ∧ kindOf stop = .mt ∧ s.ownerPipe stop = some p ∧ s.pipeEpoch p ≠ s.epochOf stop
    ∧ (∀ k < 4, s.flag (rwReg stop k 0) 0 = false) ∧ (∀ k < 16, s.flag (reg stop (0x2404 + 16 * k)) 0 = false)) ∧ (∃ (s : State) (stop
    slot : Nat), Form s ∧ isEngine stop = true ∧ slot < 8 ∧ s.flag (jobReg stop slot 0) 0 = true ∧ s.rf (jobReg stop slot 4) 0 16 ≠
    (s.pipeEpoch (s.rf (jobReg stop slot 0) 1 6)).toNat) :=
  ⟨⟨mk [own 33, (epochReg 1, 7), (reg 33 0x0218, 0x30005)] { at_ := [(33, { held := 1 })] }, 33, 1, form_of _ (by decide +kernel),
  by decide +kernel⟩, ⟨mk [own 0, (epochReg 1, 7)] { pair := [(0, some { at_ := 3, ok := true })] }, 0, 1, form_of _ (by decide +kernel),
  by decide +kernel⟩, ⟨mk [own 32, (epochReg 1, 7), (reg 32 0x3084, 0x4303)], 32, 1, form_of _ (by decide +kernel), by decide +kernel⟩,
  ⟨mk [(jobReg 416 2 0, 3), (epochReg 1, 7)] { eng := [(416, { jobs := [(2, { tag := some 5 })] })] }, 416, 2,
  form_of _ (by decide +kernel), by decide +kernel⟩⟩

theorem test_witness_QuiescenceProbes :
    (∃ (s : State) (p : Nat), Form s ∧ s.pstate p = 2 ∧ (s.pipeAt p).probeAt + 1000 * s.tunable 2 ≤ s.time ∧ (s.probeOf p).on = false) ∧
    (∃ (s : State) (p : Nat), (s.probeOf p).on = true ∧ (s.probeOf p).wave = none) ∧ (∃ (s : State) (p c : Nat) (w : List Report), Form s
    ∧ p < 64 ∧ (s.probeOf p).wave = some (w, c) ∧ c + s.gap p ≤ s.ck ∧ (s.wave p).filter (stuckIn w (s.wave p)) = []) ∧ (∃ (s : State) (p
    w : Nat) (x : Pipe), s.gov.pipes = [(p, x)] ∧ x.again = some w ∧ w < s.window ∧ s.pstate p ≠ 0 ∧ (s.probeOf p).on = false) :=
  ⟨⟨{ pipeS 2 { info := some (inf1 [33, 32, 0]), phase := 0 } [] [] with time := 10 ^ 9 }, 1, form_of _ (by decide +kernel),
  by decide +kernel⟩, ⟨{ probe := [(1, { on := true })] }, 1, by decide +kernel⟩,
  ⟨{ pipeS 2 { info := some (inf1 [33, 32, 0]), phase := 0 } [] [] with probe := [(1, { on := true, wave := some ([], 2) })] }, 1, 2, [],
  form_of _ (by decide +kernel), by decide +kernel⟩, ⟨mk [(pipeReg 1,
  2)] { time := 10 ^ 9, gov := { pipes := [(1, { again := some 0 })] } }, 1, 0, { again := some 0 }, by decide +kernel⟩⟩

theorem test_witness_CountersAndVotes :
    (∃ (s : State) (k : Nat) (c : Cmd), Begins s k 6 c) ∧ (∃ (s : State) (k : Nat) (c : Cmd), Form s ∧ Begins s k 7 c ∧ c.arg 0x10 0 11 <
    1024) ∧ (∃ (s : State) (d : Nat) (v : Word), Form s ∧ d < 11) ∧ (∃ (s : State) (d : Nat) (v : Word), Form s ∧ d < 11) :=
  ⟨⟨pipeS 2 { info := some (inf1 [33, 32, 0]), phase := 0 } [] [hc 6 1 2], 0, hc 6 1 2, ⟨by decide +kernel, by decide +kernel,
  by decide +kernel, by decide +kernel⟩⟩, ⟨pipeS 2 { info := some (inf1 [33, 32, 0]), phase := 0 } [] [hc 7 0 0x10024], 0, hc 7 0 0x10024,
  form_of _ (by decide +kernel), ⟨by decide +kernel, by decide +kernel, by decide +kernel, by decide +kernel⟩, by decide +kernel⟩,
  ⟨mk [(domReg 3 + 4, 0x3F)], 3, 0x18, form_of _ (by decide +kernel), by decide +kernel⟩, ⟨mk [(domReg 10 + 4, 0x3F)], 10, 0x18,
  form_of _ (by decide +kernel), by decide +kernel⟩⟩

theorem test_witness_Doorbells :
    (∃ (c : Nat → Word → Instr) (kind off : Nat) (s : State) (n : Nat) (v : Word), (c, kind, off) ∈ [(Instr.sqTailWrite, 0, 0xC),
    (Instr.cqHeadWrite, 1, 0x10), (Instr.rrHeadWrite, 2, 0x10)] ∧ Form s ∧ n < 64 ∧ s.ringOk kind n = true ∧ bitsOf v 0 16 < s.ringSize
    kind n) ∧ (∃ (c : Nat → Word → Instr) (kind off : Nat) (s : State) (n : Nat) (v : Word), (c, kind, off) ∈ [(Instr.sqTailWrite, 0,
    0xC), (Instr.cqHeadWrite, 1, 0x10), (Instr.rrHeadWrite, 2, 0x10)] ∧ Form s ∧ n < 64 ∧ s.ringOk kind n = true ∧ bitsOf v 0 16 <
    s.ringSize kind n) ∧ (∃ (c : Nat → Word → Instr) (kind off : Nat) (s : State) (n : Nat) (v : Word), (c, kind, off) ∈
    [(Instr.sqTailWrite, 0, 0xC), (Instr.cqHeadWrite, 1, 0x10), (Instr.rrHeadWrite, 2, 0x10)] ∧ Form s ∧ n < 64 ∧ s.ringOk kind n = true ∧
    bitsOf v 0 16 < s.ringSize kind n) ∧ (∃ (c : Nat → Word → Instr) (kind : Nat) (s : State) (n : Nat) (v : Word), (c, kind) ∈
    [(Instr.sqTailWrite, 0), (Instr.cqHeadWrite, 1), (Instr.rrHeadWrite, 2)] ∧ Form s ∧ n < 64 ∧ s.ringOk kind n = true ∧ s.ringSize kind
    n ≤ bitsOf v 0 16 ∧ s.flag (0x0010E000 + 16 * 131 + 12) 0 = true) ∧ (∃ (c : Nat → Word → Instr) (kind : Nat) (s : State) (n : Nat) (v
    : Word), (c, kind) ∈ [(Instr.sqTailWrite, 0), (Instr.cqHeadWrite, 1), (Instr.rrHeadWrite, 2)] ∧ Form s ∧ n < 64 ∧ s.ringOk kind n =
    true ∧ s.ringSize kind n ≤ bitsOf v 0 16 ∧ s.flag (0x0010E000 + 16 * 131 + 12) 0 = true) ∧ (∃ (c : Nat → Word → Instr) (kind : Nat) (s
    : State) (n : Nat) (v : Word), (c, kind) ∈ [(Instr.sqTailWrite, 0), (Instr.cqHeadWrite, 1), (Instr.rrHeadWrite, 2)] ∧ Form s ∧ n < 64
    ∧ s.ringOk kind n = true ∧ s.ringSize kind n ≤ bitsOf v 0 16 ∧ s.flag (0x0010E000 + 16 * 131 + 12) 0 = true) ∧ (∃ (s : State) (kind n
    : Nat) (v : Word), Form s ∧ kind < 3 ∧ n < 64 ∧ s.ringEn kind n = false ∧ bitOf v 0 = true ∧ (kind = 0 → s.ringEn 1 (bitsOf v 8 6) =
    true)) ∧ (∃ (s : State) (kind n : Nat) (v : Word), Form s ∧ kind < 3 ∧ n < 64 ∧ s.ringEn kind n = false ∧ bitOf v 0 = true ∧ (kind = 0
    → s.ringEn 1 (bitsOf v 8 6) = true)) ∧ (∃ (s : State) (kind n : Nat) (v : Word), Form s ∧ kind < 3 ∧ n < 64 ∧ s.ringEn kind n = false
    ∧ bitOf v 0 = true ∧ (kind = 0 → s.ringEn 1 (bitsOf v 8 6) = true)) ∧ (∃ (s : State) (kind n : Nat) (v : Word), Form s ∧ (kind = 0 ∨
    kind = 2) ∧ n < 64 ∧ s.ringEn kind n = true ∧ bitOf v 0 = false) ∧ (∃ (s : State) (kind n : Nat) (v : Word), Form s ∧ (kind = 0 ∨ kind
    = 2) ∧ n < 64 ∧ s.ringEn kind n = true ∧ bitOf v 0 = false) ∧ (∃ (s : State) (n : Nat) (v : Word), Form s ∧ n < 64 ∧ s.ringEn 1 n =
    true ∧ bitOf v 0 = false) :=
  ⟨⟨Instr.sqTailWrite, 0, 0xC, ringS2 0 [], 3, 7, by simp, form_of _ (by decide +kernel), by decide +kernel⟩, ⟨Instr.cqHeadWrite, 1, 0x10,
  ringS2 1 [], 3, 15, by simp, form_of _ (by decide +kernel), by decide +kernel⟩, ⟨Instr.rrHeadWrite, 2, 0x10, ringS2 2 [], 3, 7, by simp,
  form_of _ (by decide +kernel), by decide +kernel⟩, ⟨Instr.sqTailWrite, 0, ringS2 0 [(0x0010E83C, 1)], 3, 16, by simp,
  form_of _ (by decide +kernel), by decide +kernel⟩, ⟨Instr.cqHeadWrite, 1, ringS2 1 [(0x0010E83C, 1)], 3, 17, by simp,
  form_of _ (by decide +kernel), by decide +kernel⟩, ⟨Instr.rrHeadWrite, 2, ringS2 2 [(0x0010E83C, 1)], 3, 65535, by simp,
  form_of _ (by decide +kernel), by decide +kernel⟩, ⟨mk [(ringReg 1 0 + 8, 1)], 0, 3, 0x5, form_of _ (by decide +kernel),
  by decide +kernel⟩, ⟨mk [], 1, 3, 0x7, form_of _ (by decide +kernel), by decide +kernel⟩, ⟨mk [], 2, 63, 0x1F,
  form_of _ (by decide +kernel), by decide +kernel⟩, ⟨ringS2 0 [], 0, 3, 0, form_of _ (by decide +kernel), by decide +kernel⟩,
  ⟨ringS2 2 [], 2, 3, 0, form_of _ (by decide +kernel), by decide +kernel⟩, ⟨mk [(ringReg 1 3 + 8, 1), (ringReg 0 5 + 8, 0x301),
  (ringReg 0 6 + 8, 0x401), (ringReg 1 4 + 8, 1)] { host := { compl := [(3, 5), (4, 6)] } }, 3, 0, form_of _ (by decide +kernel),
  by decide +kernel⟩⟩

theorem test_witness_RingsAreServed :
    (∃ (s : State) (n : Nat) (e : Payload) (c : Cmd), Form s ∧ s.clockGone 0 = false ∧ c = { origin := s.devId, ring := n, entry := e } ∧
    n < 64 ∧ s.nextRing = some n ∧ s.boot.started = true ∧ s.ringEn 1 (s.rf (ringReg 0 n + 8) 8 6) = true ∧ c.target = s.devId ∧ isOpc
    c.opc = true ∧ c.seq ≠ tget 0 s.host.seqs (s.devId * 64 + n) ∧ (c.seq - tget 0 s.host.seqs (s.devId * 64 + n)).toNat < 2 ^ 31) ∧ (∃ (s
    : State) (n : Nat) (e : Payload) (c : Cmd), Form s ∧ s.clockGone 0 = false ∧ c = { origin := s.devId, ring := n, entry := e } ∧ n < 64
    ∧ s.nextRing = some n ∧ s.boot.started = true ∧ s.ringEn 1 (s.rf (ringReg 0 n + 8) 8 6) = true ∧ c.target ≠ s.devId ∧ mayForward c.opc
    = true ∧ s.flag 0x00508004 c.target = true) ∧ (∃ (s : State) (o n : Nat) (e : Payload) (c : Cmd), c =
    { origin := o, ring := n, entry := e } ∧ n < 64 ∧ o < 16 ∧ o ≠ s.devId ∧ s.boot.started = true ∧ mayForward c.opc = true ∧ c.target =
    s.devId ∧ c.seq ≠ tget 0 s.host.seqs (o * 64 + n) ∧ (c.seq - tget 0 s.host.seqs (o * 64 + n)).toNat < 2 ^ 31) ∧ (∃ (s : State) (n :
    Nat) (x : Nat × Payload), Form s ∧ s.clockGone 0 = false ∧ n < 64 ∧ s.ringOk 1 n = true ∧ s.ringRoom 1 n = true ∧ (s.host.compl.find?
    fun y => y.1 == n) = some x ∧ s.flag (ringReg 1 n + 8) 5 = false) ∧ (∃ (s : State) (n : Nat) (x : Nat × Payload), Form s ∧ s.clockGone
    0 = false ∧ n < 64 ∧ s.ringOk 1 n = true ∧ s.ringRoom 1 n = true ∧ (s.host.compl.find? fun y => y.1 == n) = some x ∧ s.flag (ringReg 1
    n + 8) 5 = false) ∧ (∃ (s : State) (n : Nat) (x : Rec), Form s ∧ s.clockGone 0 = false ∧ n < 64 ∧ s.ringOk 2 n = true ∧ s.ringRoom 2 n
    = true ∧ (s.host.recs.find? fun y => y.ring == n) = some x ∧ s.host.gwRecs = [] ∧ s.flag (ringReg 2 n + 8) 5 = false) ∧ (∃ (c : Instr)
    (s : State) (n : Nat) (ok : Bool) (e : Option Payload), s.clockGone 0 = true ∧ c ∈ [Instr.completionWrite n ok, .recordWrite n ok,
    .commandFetch n e]) ∧ (∃ (c : Instr) (s : State) (n : Nat) (ok : Bool) (e : Option Payload), s.clockGone 0 = true ∧ c ∈
    [Instr.completionWrite n ok, .recordWrite n ok, .commandFetch n e]) ∧ (∃ (s : State) (kind n v : Nat), Form s ∧ (kind = 1 ∨ kind = 2)
    ∧ n < 64 ∧ n + (kind - 1) * 64 = v ∧ s.flag (ringReg kind n + 8) 5 = true ∧ tget 0 s.host.unsig (kind * 64 + n) ≠ 0 ∧ tget 0
    s.host.unsigAt (kind * 64 + n) + 1000 * s.rf (ringReg kind n + 8) 24 8 ≤ s.time) ∧ (∃ (s : State) (kind n v : Nat), Form s ∧ (kind = 1
    ∨ kind = 2) ∧ n < 64 ∧ n + (kind - 1) * 64 = v ∧ s.flag (ringReg kind n + 8) 5 = true ∧ tget 0 s.host.unsig (kind * 64 + n) ≠ 0 ∧ tget
    0 s.host.unsigAt (kind * 64 + n) + 1000 * s.rf (ringReg kind n + 8) 24 8 ≤ s.time) :=
  ⟨⟨mk [(ringReg 0 3 + 8, 1), (ringReg 0 3 + 0xC, 2), (ringReg 1 0 + 8, 1)] { boot := { started := true } }, 3, ent 2 3 4 0 1 0,
  { origin := 0, ring := 3, entry := ent 2 3 4 0 1 0 }, form_of _ (by decide +kernel), by decide +kernel⟩, ⟨mk [(ringReg 0 3 + 8, 1),
  (ringReg 0 3 + 0xC, 2), (ringReg 1 0 + 8, 1), (0x00508004, 0x20)] { boot := { started := true } }, 3, ent 2 3 4 5 1 0,
  { origin := 0, ring := 3, entry := ent 2 3 4 5 1 0 }, form_of _ (by decide +kernel), by decide +kernel⟩,
  ⟨{ boot := { started := true } }, 5, 3, ent 2 3 4 0 1 0, { origin := 5, ring := 3, entry := ent 2 3 4 0 1 0 }, by decide +kernel⟩,
  ⟨ringS2 1 [(ringReg 1 3, 0x1000), (ringReg 1 3 + 0x14, 8)] { host := { compl := [(3, 0x99)] } }, 3, (3, 0x99),
  form_of _ (by decide +kernel), by decide +kernel⟩, ⟨ringS2 1 [(ringReg 1 3, 0x1000), (ringReg 1 3 + 0xC, 15), (ringReg 1 3 + 0x10,
  4)] { host := { compl := [(3, 0x99)] } }, 3, (3, 0x99), form_of _ (by decide +kernel), by decide +kernel⟩, ⟨ringS2 2 [(ringReg 2 3,
  0x1000), (ringReg 2 3 + 0x14, 8)] { host := { recs := [rec7] } }, 3, rec7, form_of _ (by decide +kernel), by decide +kernel⟩,
  ⟨.completionWrite 3 true,
  { ringS2 1 [(ringReg 1 3, 0x1000), (ringReg 1 3 + 0x14, 8)] { host := { compl := [(3, 0x99)] } } with pwr := { gone := [0] } }, 3, true,
  none, by decide +kernel⟩, ⟨.commandFetch 3 none, { pwr := { gone := [0] } }, 3, true, none, by decide +kernel⟩, ⟨mk [(ringReg 1 3 + 8,
  0x01000021), (0x0010E03C, 1)] { time := 5000, host := { unsig := [(67, 1)] } }, 1, 3, 3, form_of _ (by decide +kernel),
  by decide +kernel⟩, ⟨mk [(ringReg 2 3 + 8, 0x01000021), (0x0010E430, 0x2000), (0x0010E438,
  5)] { time := 5000, host := { unsig := [(131, 1)] } }, 2, 3, 67, form_of _ (by decide +kernel), by decide +kernel⟩⟩

theorem test_witness_MailboxAndEvents :
    (∃ (s : State) (tid : Nat), Form s ∧ s.flag 8 0 = false ∧ 1 ≤ tid ∧ tid ≤ 6) ∧ (∃ (s : State) (tid : Nat), Form s ∧ s.flag 8 0 = false
    ∧ 1 ≤ tid ∧ tid ≤ 6) ∧ (∃ (s : State) (tid lo hi : Nat), Form s ∧ s.flag 8 0 = false ∧ tunRange tid = some (lo, hi) ∧ lo ≤ (s.rd
    4).toNat ∧ (s.rd 4).toNat ≤ hi) ∧ (∃ (s : State) (tid lo hi : Nat), Form s ∧ s.flag 8 0 = false ∧ tunRange tid = some (lo, hi) ∧ lo ≤
    (s.rd 4).toNat ∧ (s.rd 4).toNat ≤ hi) ∧ (∃ (s : State), Form s ∧ s.flag 8 0 = false ∧ s.pstate (s.rf 4 0 6) ≠ 0 ∧ (s.probeOf (s.rf 4 0
    6)).on = false) ∧ (∃ (s : State) (st : Nat) (v : Option Word), Form s ∧ s.host.mbx = some (st, v) ∧ st < 8) ∧ (∃ (s : State) (st :
    Nat) (v : Option Word), Form s ∧ s.host.mbx = some (st, v) ∧ st < 8) ∧ (∃ (c : Instr) (s : State), Form s ∧ c ∈ [Instr.get 1,
    Instr.set 1, Instr.probe] ∧ s.flag 8 0 = true) ∧ (∃ (c : Instr) (s : State), Form s ∧ c ∈ [Instr.get 1, Instr.set 1, Instr.probe] ∧
    s.flag 8 0 = true) ∧ (∃ (c : Instr) (s : State), Form s ∧ c ∈ [Instr.get 1, Instr.set 1, Instr.probe] ∧ s.flag 8 0 = true) ∧ (∃ (s :
    State) (k p : Nat) (e : Event), s.events[k]? = some e ∧ s.boot.started = true ∧ e.pipe = some p ∧ 2 ≤ e.code ∧ e.code ≤ 13 ∧ tget
    0xFFFFFFFF s.host.tun 6 / 2 ^ e.code % 2 = 1 ∧ s.host.events.length < 256) ∧ (∃ (s : State) (k p : Nat) (e : Event), s.events[k]? =
    some e ∧ s.boot.started = true ∧ e.pipe = some p ∧ e.code = 0 ∧ s.pstate p ≠ 0 ∧ (s.probeOf p).on = false) ∧ (∃ (s : State) (k p :
    Nat) (e : Event), Form s ∧ s.events[k]? = some e ∧ s.boot.started = true ∧ e.pipe = some p ∧ e.code = 15 ∧ p < 64 ∧ s.pstate p = 2) :=
  ⟨⟨{}, 1, form_of _ (by decide +kernel), by decide +kernel⟩, ⟨{}, 6, form_of _ (by decide +kernel), by decide +kernel⟩, ⟨mk [(4, 100)],
  1, 1, 2458, form_of _ (by decide +kernel), by decide +kernel⟩, ⟨mk [(4, 3)], 4, 0, 3, form_of _ (by decide +kernel), by decide +kernel⟩,
  ⟨mk [(4, 1), (pipeReg 1, 2)], form_of _ (by decide +kernel), by decide +kernel⟩, ⟨mk [(8, 1)] { host := { mbx := some (3, some 7) } },
  3, some 7, form_of _ (by decide +kernel), by decide +kernel⟩, ⟨mk [(8, 1)] { host := { mbx := some (0, none) } }, 0, none,
  form_of _ (by decide +kernel), by decide +kernel⟩, ⟨.get 1, mk [(8, 1)], form_of _ (by decide +kernel), by decide +kernel⟩, ⟨.set 1,
  mk [(8, 1)], form_of _ (by decide +kernel), by decide +kernel⟩, ⟨.probe, mk [(8, 0xFFFF0001)], form_of _ (by decide +kernel),
  by decide +kernel⟩, ⟨{ events := [ev 7], boot := { started := true } }, 0, 1, ev 7, by decide +kernel⟩, ⟨mk [(pipeReg 1,
  2)] { events := [ev 0], boot := { started := true } }, 0, 1, ev 0, by decide +kernel⟩,
  ⟨{ pipeS 2 { info := some (inf1 [33, 32, 0]), phase := 0 } [] [] with events := [ev 15] }, 0, 1, ev 15, form_of _ (by decide +kernel),
  by decide +kernel⟩⟩

theorem test_witness_HostResets :
    (∃ (s : State), Form s) ∧ (∃ (s : State), Form s ∧ s.dbg.ir ≠ 0 ∧ s.dbg.ir ≠ 4 ∧ s.dbg.ir ≠ 5) :=
  ⟨⟨{ pipeS 2 { info := some (inf1 [33, 32, 0]), phase := 0 } [(ringReg 0 3 + 8, 1), (ringReg 0 3 + 0xC, 2)] [] with host := { cmds := [hc 2], compl := [(0, 5)] } },
  form_of _ (by decide +kernel)⟩,
  ⟨{ pipeS 2 { info := some (inf1 [33, 32, 0]), phase := 0 } [(ringReg 0 3 + 8, 1), (ringReg 0 3 + 0xC, 2)] [] with host := { cmds := [hc 2], compl := [(0, 5)] }, dbg := { ir := 1 } },
  form_of _ (by decide +kernel), by decide +kernel⟩⟩

theorem test_witness_HostAccesses :
    (∃ (s : State) (a : Nat) (v : W64) (r : RegRow), Form s ∧ (a < 0x00700000 ∨ 0x00800000 ≤ a) ∧ a < 0x04000000 ∧ a % 4 = 0 ∧ a ≠ 0x2000
    ∧ s.debugPerm 0 = false ∧ s.inRun (addrDomain a) = true ∧ s.regThere a = true ∧ regRow a = some r ∧ ringCfgOf a = none ∧ s.hostLocked
    a = false ∧ ownCommand a = 0 ∧ a ≠ 0x03010000 ∧ a ≠ 0x03010100 ∧ (a < 0x0010E000 ∨ 0x0010F000 ≤ a)) ∧ (∃ (s : State) (a : Nat) (v :
    W64), Form s ∧ (a < 0x00700000 ∨ 0x00800000 ≤ a) ∧ a < 0x04000000 ∧ a % 4 = 0 ∧ s.inRun (addrDomain a) = true ∧ s.regThere a = false)
    ∧ (∃ (s : State) (a n : Nat), a < 0x600000000 ∧ a + n ≤ 0x600000000 ∧ s.answers 3 = true ∧ s.hbm.ue = [] ∧ s.hbm.ce = []) ∧ (∃ (s :
    State) (a : Nat) (data : List Byte), Form s ∧ a < 0x600000000 ∧ a + data.length ≤ 0x600000000 ∧ s.answers 3 = true ∧ s.hbm.ue = [] ∧
    s.hbm.ce = []) :=
  ⟨⟨mk [], reg 33 0xD108, 5, (regRow (reg 33 0xD108)).getD ⟨0,0,0,0,0,0,0,0⟩, form_of _ (by decide +kernel), by decide +kernel⟩, ⟨mk [],
  0x00200FF0, 5, form_of _ (by decide +kernel), by decide +kernel⟩, ⟨{ hbm := { bytes := [(0x1001, 7)] } }, 0x1000, 5, by decide +kernel⟩,
  ⟨{ hbm := { bytes := [(0x1001, 7)] } }, 0x1000, [3, 0, 4], form_of _ (by decide +kernel), by decide +kernel⟩⟩

theorem test_witness_ReadsWithAnEffect :
    (∃ (s : State) (stop slot : Nat), Form s ∧ stop < 448 ∧ slot < monSlots stop ∧ s.regThere (reg stop (0xE008 + 64 * slot)) = true ∧
    s.answers (addrDomain (reg stop (0xE008 + 64 * slot))) = true) ∧ (∃ (s : State) (stop slot : Nat), Form s ∧ stop < 448 ∧ slot <
    monSlots stop ∧ s.regThere (reg stop (0xE028 + 64 * slot)) = true ∧ s.answers (addrDomain (reg stop (0xE028 + 64 * slot))) = true) ∧
    (∃ (s : State) (stop : Nat), Form s ∧ stop < 448 ∧ s.regThere (reg stop 0xF80C) = true ∧ s.answers (addrDomain (reg stop 0xF80C)) =
    true) ∧ (∃ (s : State), Form s ∧ s.regThere 0x00200910 = true ∧ s.phase 0 = 0) :=
  ⟨⟨{ mon := [(264, { latched := { count := 5, tag := 3, epoch := 1 } })] }, 33, 0, form_of _ (by decide +kernel), by decide +kernel⟩,
  ⟨mk [(reg 33 0xE028, 9)], 33, 0, form_of _ (by decide +kernel), by decide +kernel⟩, ⟨mk [(reg 33 0xF80C, 0x503)], 33,
  form_of _ (by decide +kernel), by decide +kernel⟩, ⟨mk [(0x00200910, 0x123)], form_of _ (by decide +kernel), by decide +kernel⟩⟩

theorem test_witness_CrozierUnits :
    (∃ (s : State) (stop slot n : Nat) (d : CzDesc) (r : RawIn), Turn s stop slot ∧ kindOf stop = .cz ∧ s.czDescs stop slot = [(n, d)] ∧
    d.mode = 0 ∧ (s.jobAt stop slot).raw = some r ∧ s.flag (reg stop (0xE000 + 64 * d.mon)) 0 = false ∧ bitOf (s.rtReg stop d.rt 0) 31 =
    true) ∧ (∃ (s : State) (stop slot n : Nat) (d : CzDesc) (f : LFlit) (rest : List LFlit), Turn s stop slot ∧ kindOf stop = .cz ∧
    s.czDescs stop slot = [(n, d)] ∧ d.mode = 1 ∧ d.cinl ≤ 64 ∧ (s.lqAt stop d.lq).q = f :: rest ∧ f.epoch = s.jobTagEpoch stop slot ∧
    f.op ≠ 2 ∧ (s.jobAt stop slot).tag = some f.tag ∧ s.flag (reg stop (0xE000 + 64 * d.mon)) 0 = false ∧ bitOf (s.rtReg stop d.rt 0) 31 =
    true) ∧ (∃ (s : State) (k d : Nat) (thr : Word) (r : Reply), Form s ∧ s.sync.replies[k]? = some r ∧ r.ack = false ∧ isEngine r.stop =
    true ∧ s.replyReady k = true ∧ (s.jobAt r.stop r.slot).wait = some (d, thr)) ∧ (∃ (s : State) (stop slot n : Nat) (d : CzDesc), Form s
    ∧ s.jobRuns stop slot = true ∧ kindOf stop = .cz ∧ s.czDescs stop slot = [(n, d)] ∧ d.mode = 1 ∧ (s.lqAt stop d.lq).q ≠ [] ∧ (∀ f ∈
    (s.lqAt stop d.lq).q, f.epoch ≠ s.jobTagEpoch stop slot)) :=
  ⟨⟨engS 416 [] czF czJob, 416, 2, 0, (((engS 416 [] czF czJob).czDescs 416 2).head (by decide +kernel)).2, rawI,
  by constructor <;> first | decide +kernel | exact form_of _ (by decide +kernel), by decide +kernel⟩,
  ⟨engS 416 [lfe 1] czL { granted := [0], tag := some 0x1005 }, 416, 2, 0,
  (((engS 416 [lfe 1] czL { granted := [0], tag := some 0x1005 }).czDescs 416 2).head (by decide +kernel)).2, lfe 1, [],
  by constructor <;> first | decide +kernel | exact form_of _ (by decide +kernel), by decide +kernel⟩,
  ⟨{ eng := [(416, { jobs := [(2, { wait := some (5, 9) })] })], sync := { replies := [{ stop := 416, slot := 2, obj := 9, ack := false }] } },
  0, 5, 9, { stop := 416, slot := 2, obj := 9, ack := false }, form_of _ (by decide +kernel), by decide +kernel⟩,
  ⟨engS 416 [{ lfe 1 with epoch := 3 }, { lfe 0 with epoch := 4 }] czL { granted := [0], tag := some 0x1005 }, 416, 2, 0,
  (((engS 416 [{ lfe 1 with epoch := 3 },
  { lfe 0 with epoch := 4 }] czL { granted := [0], tag := some 0x1005 }).czDescs 416 2).head (by decide +kernel)).2,
  form_of _ (by decide +kernel), by decide +kernel⟩⟩

theorem test_witness_SorusUnits :
    (∃ (s : State) (stop slot n : Nat) (d : SorDesc) (f : LFlit) (rest : List LFlit) (r : Region), Turn s stop slot ∧ kindOf stop = .sor ∧
    s.sorDescs stop slot (s.jobCpy stop slot) = [(n, d)] ∧ d.fn = 0 ∧ (s.lqAt stop d.lqIn).q = f :: rest ∧ f.op = 1 ∧ f.epoch =
    s.jobTagEpoch stop slot ∧ (s.jobAt stop slot).tag = some f.tag ∧ (s.jobAt stop slot).regions = [r] ∧ r.frame = f.tag.toNat / 4096 ∧
    r.closed = none ∧ r.cpy = s.jobCpy stop slot) ∧ (∃ (s : State) (stop slot n : Nat) (d : SorDesc) (f : LFlit) (rest : List LFlit), Turn
    s stop slot ∧ kindOf stop = .sor ∧ s.sorDescs stop slot (s.jobCpy stop slot) = [(n, d)] ∧ d.fn = 1 ∧ NoStamps s stop slot ∧ (s.lqAt
    stop d.lqIn).q = f :: rest ∧ f.op = 1 ∧ f.epoch = s.jobTagEpoch stop slot ∧ (s.jobAt stop slot).tag = some f.tag ∧ (s.jobAt stop
    slot).head = none ∧ (s.engAt stop).room = true) ∧ (∃ (s : State) (k a b : Nat) (n : Notice), Form s ∧ s.notices[k]? = some n ∧
    (s.jobsOf n.pipe).filter (fun j => j.1 = n.dst) = [(a, b)]) :=
  ⟨⟨engS 418 [lfe 1] (soD 0 5) (soJob [rg 1 none [] []]), 418, 2, 0,
  (((engS 418 [lfe 1] (soD 0 5) (soJob [rg 1 none [] []])).sorDescs 418 2 0).head (by decide +kernel)).2, lfe 1, [], rg 1 none [] [],
  by constructor <;> first | decide +kernel | exact form_of _ (by decide +kernel), by decide +kernel⟩,
  ⟨engS 418 [lfe 1] (soD 1 5) (soJob []), 418, 2, 0,
  (((engS 418 [lfe 1] (soD 1 5) (soJob [])).sorDescs 418 2 0).head (by decide +kernel)).2, lfe 1, [],
  by constructor <;> first | decide +kernel | exact form_of _ (by decide +kernel), by decide +kernel, by decide +kernel,
  by decide +kernel, by unfold NoStamps; decide +kernel, by decide +kernel⟩, ⟨notS, 0, 418, 2,
  { kind := .error, pipe := 1, tag := none, dst := 418 }, form_of _ (by decide +kernel), by decide +kernel⟩⟩

theorem test_witness_RegionsCloseAndReport :
    (∃ (s : State) (stop slot : Nat) (r u : Region) (rest : List Region), Form s ∧ s.jobValid stop slot = true ∧ kindOf stop = .sor ∧
    NoStamps s stop slot ∧ (s.jobAt stop slot).regions = r :: u :: rest ∧ r.closed = none ∧ u.closed = none ∧ u ≠ r ∧ r ∉ rest ∧
    (s.sorHead stop slot r.cpy).2.ownOnly = false) ∧ (∃ (s : State) (stop slot c : Nat) (r : Region) (rest : List Region) (j : EJob) (d :
    SorDesc) (fl : Nat), Form s ∧ s.jobValid stop slot = true ∧ kindOf stop = .sor ∧ NoStamps s stop slot ∧ s.jobAt stop slot = j ∧
    j.regions = r :: rest ∧ r.closed = some c ∧ c + s.gap (s.jobPipe stop slot) ≤ s.ck ∧ r.next = 0 ∧ r.fl = 0 ∧ j.lostRec = false ∧
    (s.sorHead stop slot r.cpy).2 = d ∧ d.cropEn = false ∧ (j.stampFor r.frame).isSome = true ∧ ((s.engAt stop).recs.filter fun x =>
    !x.kept).length + r.kept.length < 240 ∧ fl = s.recFlags stop slot r.frame + r.flags (j.stampFor r.frame)) :=
  ⟨⟨engS 418 [] (soD 0 5) (soJob [rg 1 none [bx 0 5, bx 1 9] [], rg 2 none [] []]), 418, 2, rg 1 none [bx 0 5, bx 1 9] [],
  rg 2 none [] [], [], form_of _ (by decide +kernel), by decide +kernel, by decide +kernel, by unfold NoStamps; decide +kernel,
  by decide +kernel⟩, ⟨{ engS 418 [] (soD 0 5) (soJob [rg 1 (some 0) [] [bx 0 5, bx 1 9]]) with ck := 5000 }, 418, 2, 0,
  rg 1 (some 0) [] [bx 0 5, bx 1 9], [], soJob [rg 1 (some 0) [] [bx 0 5, bx 1 9]],
  ((engS 418 [] (soD 0 5) (soJob [rg 1 (some 0) [] [bx 0 5, bx 1 9]])).sorHead 418 2 0).2,
  let s := { engS 418 [] (soD 0 5) (soJob [rg 1 (some 0) [] [bx 0 5, bx 1 9]]) with ck := 5000 }; s.recFlags 418 2 1 + (rg 1 (some 0) [] [bx 0 5,
  bx 1 9]).flags (some stp), form_of _ (by decide +kernel), by decide +kernel, by decide +kernel, by unfold NoStamps; decide +kernel,
  by decide +kernel⟩⟩

theorem test_witness_LinesAndFrames :
    (∃ (s : State) (c : Nat) (f : Frame), s.camRuns c = true ∧ (s.cam c).line = none ∧ (s.cam c).newest = some f ∧ s.frameDue c = false ∧
    bitOf f.cfg 0 = true ∧ (bitOf f.cfg 11 = false ∨ (s.cam c).inj.head?.any (fun j => !j.lines.isEmpty) = true)) ∧ (∃ (s : State) (c :
    Nat) (n : Word), Form s ∧ s.camRuns c = true ∧ s.flag (camReg c 0) 0 = true ∧ (s.flag (camReg c 0) 11 = false ∨ (s.cam
    c).inj.head?.any (fun j => !j.lines.isEmpty) = true) ∧ (s.cam c).line = none ∧ (s.cam c).frames = [] ∧ n = (if (s.cam c).rebound then
    0 else s.rd (camReg c 0x20) + 1)) ∧ (∃ (s : State) (c : Nat) (n : Word), Form s ∧ s.camRuns c = true ∧ s.flag (camReg c 0) 0 = true ∧
    (s.flag (camReg c 0) 11 = false ∨ (s.cam c).inj.head?.any (fun j => !j.lines.isEmpty) = true) ∧ (s.cam c).line = none ∧ (s.cam
    c).frames = [] ∧ n = (if (s.cam c).rebound then 0 else s.rd (camReg c 0x20) + 1)) ∧ (∃ (s : State) (c : Nat) (data bs : List Byte) (li
    : LineIn) (f : Frame) (v : Dlv), Form s ∧ c < 16 ∧ s.camRuns c = true ∧ (s.cam c).line = some li ∧ li.unsync = false ∧ (s.cam
    c).frames = [f] ∧ bitOf f.cfg 11 = false ∧ f.scan = false ∧ f.idx < f.lines ∧ f.status < 2 ^ 32 ∧ (s.cam c).held = [] ∧ s.inRun
    (stackDom f.base) = true ∧ f.dlv = [v] ∧ v.live = true ∧ bitOf v.cfg 1 = false ∧ v.d < 4 ∧ s.dlvRoom c v (((li.vals.find? fun x => x.1
    == bitsOf v.cred 0 16).map (·.2)).getD 0) (1 + (f.bytes + 63) / 64) = true ∧ bitOf (s.rtReg (f.stop c) (bitsOf v.cfg 2 4) 0) 31 = true
    ∧ bs = (toContainers f.fmt f.width data).take f.bytes ++ List.replicate (f.bytes - (toContainers f.fmt f.width data).length) 0) ∧ (∃
    (s : State) (c : Nat) (w : FsWrite) (rest : List FsWrite) (p : Nat × Nat) (f : Frame), Form s ∧ c < 32 ∧ (s.cam c).writes = w :: rest
    ∧ s.inRun (stackDom w.addr) = true ∧ w.final = none ∧ w.line = some p ∧ w.last = true ∧ (s.cam c).frame p.1 = some f ∧ (s.cam c).inj =
    []) :=
  ⟨⟨{ camS { frames := [frm1] } with time := 100 }, 2, frm1, by decide +kernel⟩, ⟨camS {}, 2, (camS {}).rd (camReg 2 0x20) + 1,
  form_of _ (by decide +kernel), by decide +kernel⟩, ⟨camS { rebound := true } [(camReg 2 0x20, 5)], 2, 0, form_of _ (by decide +kernel),
  by decide +kernel⟩, ⟨camS { line := some li0, frames := [frm1] } [(reg 419 0x0500, 0x80000221), (reg 419 0x0504, 7)], 2, [1, 2, 3], [1,
  2, 3] ++ List.replicate 61 0, li0, frm1, { d := 1, cfg := 0x1041, cred := 0x00640009, live := true }, form_of _ (by decide +kernel),
  by decide +kernel⟩, ⟨camS { frames := [frm1], writes := [fsw] }, 2, fsw, [], (3, 0), frm1, form_of _ (by decide +kernel),
  by decide +kernel⟩⟩

theorem test_witness_CameraInputs :
    (∃ (s : State) (c : Nat) (rising : Bool), Form s ∧ c < 16 ∧ (s.rhz.trigEdges.find? fun e => e.1 == c) = some (c, rising) ∧ s.camRuns c
    = true ∧ s.flag (camReg c 0) 0 = true ∧ (s.cam c).trig.length < 3) ∧ (∃ (s : State) (c : Nat) (e : Bool × Nat) (rest : List (Bool ×
    Nat)), Form s ∧ c < 16 ∧ (s.cam c).trig = e :: rest) ∧ (∃ (s : State) (port k c : Nat) (f : GvspFrame) (b : GvBlock), port < 2 ∧
    s.answers 5 = true ∧ s.clockGone 1 = false ∧ s.gvspChan port f = some k ∧ c = 16 + 8 * port + k ∧ bitOf (s.lineCfg c) 0 = true ∧ bitOf
    (s.lineCfg c) 11 = false ∧ (s.cam c).gv = some b ∧ b.block = f.block ∧ b.image = true ∧ f.part = 1 ∧ b.size ≠ 0) ∧ (∃ (s : State)
    (port : Nat) (f : GvspFrame), port < 2 ∧ s.answers 5 = true ∧ s.clockGone 1 = false ∧ s.gvspChan port f = none) ∧ (∃ (s : State) (port
    : Nat) (f : GvspFrame), port < 2 ∧ s.answers 5 = true ∧ s.clockGone 1 = false ∧ s.gvspChan port f = none) ∧ (∃ (s : State) (l : Nat)
    (ws : List Word), Form s ∧ l < 16 ∧ s.answers 5 = true) ∧ (∃ (s : State) (l : Nat) (w : Word), l < 16 ∧ s.regThere (lnkReg l 0xC) =
    true ∧ s.answers (addrDomain (lnkReg l 0xC)) = true) ∧ (∃ (s : State) (l : Nat), Form s ∧ l < 16 ∧ s.regThere (lnkReg l 0x10) = true ∧
    s.answers (addrDomain (lnkReg l 0x10)) = true) ∧ (∃ (s : State) (l : Nat) (up : Bool), Form s ∧ l < 16 ∧ s.answers 5 = true ∧
    s.clockGone 2 = false ∧ (up = false → ∀ c < 16, (s.cam c).line = none)) ∧ (∃ (s : State) (l : Nat) (up : Bool), Form s ∧ l < 16 ∧
    s.answers 5 = true ∧ s.clockGone 2 = false ∧ (up = false → ∀ c < 16, (s.cam c).line = none)) ∧ (∃ (s : State) (k c n : Nat) (cmd :
    Cmd) (lines : List (List Byte)), Begins s k 5 cmd ∧ cmd.arg 0x10 0 5 = c ∧ s.inRun (stopDomain (s.camStop c)) = true ∧ cmd.arg 0x20 0
    15 = n ∧ cmd.arg 0x24 0 2 = 0 ∧ s.flag (camReg c 0) 0 = true ∧ s.flag (camReg c 0) 11 = true ∧ 1 ≤ n ∧ n ≤ s.rf (camReg c 4) 0 15) :=
  ⟨⟨{ camS {} with time := 77, rhz := { trigEdges := [(2, true)] } }, 2, true, form_of _ (by decide +kernel), by decide +kernel⟩,
  ⟨camS { trig := [(true, 5), (false, 9)] }, 2, (true, 5), [(false, 9)], form_of _ (by decide +kernel), by decide +kernel⟩,
  ⟨mk [(0x00406014, 0x80000000), (camReg 17 0, 1)] { ingest := { cams := [(17, { gv := some gvb })] } }, 0, 1, 17, gvf, gvb,
  by decide +kernel⟩, ⟨mk [], 0, gvf, by decide +kernel⟩, ⟨mk [(0x00406014, 0x80000000)], 0, { gvf with size := 9001 },
  by decide +kernel⟩, ⟨{ ingest := { ctlRx := [(3, [1])] } }, 3, [5, 6], form_of _ (by decide +kernel), by decide +kernel⟩, ⟨{}, 3, 7,
  by decide +kernel⟩, ⟨mk [(lnkReg 3 0x10, 5)] { ingest := { ctlRx := [(3, [5, 6])] } }, 3, form_of _ (by decide +kernel),
  by decide +kernel⟩, ⟨{}, 3, true, form_of _ (by decide +kernel), by decide +kernel⟩, ⟨mk [(lnkReg 3 0, 1)], 3, false,
  form_of _ (by decide +kernel), by decide +kernel⟩,
  ⟨{ camS {} [(camReg 2 0, 0x00400801), (0x00101008, 1)] with boot := { started := true }, host := { cmds := [injC] } }, 0, 2, 2, injC,
  [[1, 2], [3]], ⟨by decide +kernel, by decide +kernel, by decide +kernel, by decide +kernel⟩, by decide +kernel⟩⟩

theorem test_witness_FabricLoads :
    (∃ (s : State) (k : Nat) (c : Cmd) (obj : SignedObj) (img : RhzDesign), Form s ∧ Begins s k 1 c ∧ c.arg 0x1C 0 2 = 1 ∧ c.arg 0x10 0 6
    = 0 ∧ s.inRun 9 = true ∧ obj.magic = 0x31484A54 ∧ obj.hver = 1 ∧ obj.zeroOk = true ∧ obj.objLen = objBytes obj.bodyLen ∧ c.arg 0x18 0
    32 = obj.objLen ∧ s.rhz.load = none) ∧ (∃ (s : State) (k : Nat) (c : Cmd) (obj : SignedObj) (img : RhzDesign), Form s ∧ Begins s k 1 c
    ∧ c.arg 0x1C 0 2 = 1 ∧ c.arg 0x10 0 6 = 0 ∧ s.inRun 9 = true ∧ obj.magic = 0x31484A54 ∧ obj.hver = 1 ∧ obj.zeroOk = true ∧ obj.objLen
    = objBytes obj.bodyLen ∧ c.arg 0x18 0 32 = obj.objLen ∧ s.rhz.load = none) ∧ (∃ (s : State) (l : RhzLoad), Form s ∧ s.rhz.halting =
    true ∧ s.lstate = 4 ∧ s.rhz.load = some l) ∧ (∃ (s : State) (l : RhzLoad) (c : Cmd), Form s ∧ s.rhz.load = some l ∧ l.cmd = some c ∧
    s.rhz.latched = none ∧ (s.lstate = 1 ∨ s.lstate = 2) ∧ s.rhzCheck l.obj l.img = none ∧ l.obj.ratchet = false) ∧ (∃ (s : State), Form s
    ∧ s.regThere 0x0060000C = true ∧ s.answers (addrDomain 0x0060000C) = true ∧ s.lstate = 3) ∧ (∃ (s : State) (d : RhzDesign), Form s ∧
    s.rhz.design = some d ∧ s.lstate = 3 ∧ s.rhz.relReq = true ∧ s.edgeNow (s.rf 0x0060000C 1 2) (!s.flag 0x0060000C 3) = true) :=
  ⟨⟨{ fabS 0 {} with host := { cmds := [ldc] } }, 0, ldc, robj, dsg, form_of _ (by decide +kernel), ⟨by decide +kernel, by decide +kernel,
  by decide +kernel, by decide +kernel⟩, by decide +kernel⟩, ⟨{ fabS 4 { design := some dsg } with host := { cmds := [ldc] } }, 0, ldc,
  robj, dsg, form_of _ (by decide +kernel), ⟨by decide +kernel, by decide +kernel, by decide +kernel, by decide +kernel⟩,
  by decide +kernel⟩, ⟨fabS 4 { halting := true, load := some rlod, design := some dsg }, rlod, form_of _ (by decide +kernel),
  by decide +kernel⟩, ⟨fabS 1 { load := some rlod } [(0x00300000, 9)], rlod, ldc, form_of _ (by decide +kernel), by decide +kernel⟩,
  ⟨fabS 3 { design := some dsg }, form_of _ (by decide +kernel), by decide +kernel⟩,
  ⟨fabS 3 { design := some dsg, relReq := true } [(0x00600040, 1)], dsg, form_of _ (by decide +kernel), by decide +kernel⟩⟩

theorem test_witness_FabricEdges :
    (∃ (s : State) (n : Nat) (rising : Bool), n < 4 ∧ s.gclkRuns n = true ∧ s.answers 9 = true ∧ s.lstate ≠ 4 ∧ s.rhz.overlaps = [] ∧
    s.gwLevel = tget false s.rhz.lv lvGw ∧ s.rf 0x0060000C 5 2 ≠ n ∧ (s.rf (0x00600040 + 4 * s.rf 0x0060000C 5 2) 0 2 ≠ 3 ∨ s.rhz.design =
    none)) ∧ (∃ (s : State) (d : RhzDesign) (n : Nat) (rising : Bool) (u : State), n < 4 ∧ s.gclkRuns n = true ∧ s.answers 9 = true ∧
    s.lstate = 4 ∧ s.rhz.design = some d ∧ s.rhz.overlaps = [] ∧ d.tris = [] ∧ d.trig = [] ∧ d.tscSrc = [] ∧ d.voteWires = [] ∧ u =
    State.sweep { s with rhz := { s.rhz with gclk := tput false s.rhz.gclk n rising, acc := [] } } d ∧ (u.sweep d).rhz = u.rhz ∧ (u.sweep
    d).regs = u.regs) ∧ (∃ (s : State) (pin : Nat) (v : Bool), Form s ∧ pin < 96 ∧ s.answers 9 = true ∧ s.pinsHeld = false ∧ s.lstate ≠ 4
    ∧ s.rhz.overlaps = []) ∧ (∃ (s : State) (pin : Nat) (v : Bool), pin < 96 ∧ s.answers 9 = true ∧ s.pinsHeld = true) ∧ (∃ (s : State) (n
    : Nat) (v : Bool), Form s ∧ n < 4 ∧ s.answers 9 = true) ∧ (∃ (s : State) (n : Nat) (v : Bool), Form s ∧ n < 4 ∧ s.answers 9 = true) :=
  ⟨⟨fabS 0 {} [(0x00600044, 1)], 1, true, by decide +kernel⟩, ⟨fabS 4 { design := some dsg0 } [(0x00600040, 1)], dsg0, 0, true,
  State.sweep { (fabS 4 { design := some dsg0 } [(0x00600040, 1)]) with rhz := { (fabS 4 { design := some dsg0 } [(0x00600040, 1)]).rhz with gclk := tput false (fabS 4 { design := some dsg0 } [(0x00600040, 1)]).rhz.gclk 0 true, acc := [] } } dsg0,
  by decide +kernel, by decide +kernel, by decide +kernel, by decide +kernel, by decide +kernel, by decide +kernel, by decide +kernel,
  by decide +kernel, by decide +kernel, by decide +kernel, rfl, rhz_eq _ _ (by decide +kernel), by decide +kernel⟩, ⟨fabS 0 {}, 5, true,
  form_of _ (by decide +kernel), by decide +kernel⟩, ⟨{ fabS 0 {} with dbg := { ir := 4 } }, 5, true, by decide +kernel⟩, ⟨fabS 0 {}, 2,
  true, form_of _ (by decide +kernel), by decide +kernel⟩, ⟨fabS 0 {} [(0x00600048, 0x80000002)], 2, false, form_of _ (by decide +kernel),
  by decide +kernel⟩⟩

theorem test_witness_StorageElementsSeeTheirClocks :
    (∃ (s : State) (d : RhzDesign), twf false s.rhz.q = true ∧ twf false s.rhz.hop = true ∧ (d.cells.map (·.1)).Nodup ∧ (d.hops.map
    (·.1)).Nodup) ∧ (∃ (s : State) (d : RhzDesign), twf false s.rhz.q = true ∧ twf false s.rhz.hop = true ∧ (d.cells.map (·.1)).Nodup ∧
    (d.hops.map (·.1)).Nodup) :=
  ⟨⟨fabS 4 { gclk := [(0, true)] }, dsg, by decide +kernel⟩, ⟨fabS 4 { q := [(5, true)], gclk := [(0, true)], lv := [(5, true)] }, dsg,
  by decide +kernel⟩⟩

theorem test_witness_FabricSnapshots :
    (∃ (s : State) (k : Nat) (c : Cmd), Form s ∧ Begins s k 9 c ∧ s.inRun 9 = true ∧ s.rf 0x00600910 0 2 = 0 ∧ (s.lstate = 3 ∨ s.lstate =
    4)) ∧ (∃ (s : State) (d : RhzDesign) (c : Cmd), Form s ∧ s.rhz.design = some d ∧ s.rf 0x00600910 0 2 = 1 ∧ s.capDue d = true ∧
    s.edgeNow (s.rf 0x00600900 0 2) (!s.flag 0x00600900 2) = true ∧ s.gov.capture = some c) ∧ (∃ (s : State), Form s ∧ s.regThere
    0x00600900 = true ∧ s.answers (addrDomain 0x00600900) = true ∧ s.rf 0x00600910 0 2 = 2) :=
  ⟨⟨{ fabS 3 { design := some dsg } with host := { cmds := [capc] } }, 0, capc, form_of _ (by decide +kernel), ⟨by decide +kernel,
  by decide +kernel, by decide +kernel, by decide +kernel⟩, by decide +kernel⟩,
  ⟨{ fabS 4 { design := some dsg } [(0x00600040, 1), (0x00600910, 1), (0x00600280, 7)] with gov := { capture := some capc } }, dsg, capc,
  form_of _ (by decide +kernel), by decide +kernel⟩, ⟨fabS 4 { design := some dsg, snap := some (State.takeSnap {}) } [(0x00600910, 2)],
  form_of _ (by decide +kernel), by decide +kernel⟩⟩

theorem test_witness_GatewayRegistersAndQueues :
    (∃ (s : State) (n : Nat) (v : Word), Form s ∧ n < 16 ∧ s.regThere (0x00600400 + 4 * n) = true ∧ s.answers (addrDomain (0x00600400 + 4
    * n)) = true) ∧ (∃ (s : State) (n : Nat) (w : Word), Form s ∧ n < 2 ∧ s.lstate = 4 ∧ (s.fq n).length < 256) ∧ (∃ (s : State) (n : Nat)
    (w : Word), Form s ∧ n < 2 ∧ s.lstate = 4 ∧ (s.fq n).length < 256) ∧ (∃ (s : State) (n : Nat) (w : Word), Form s ∧ n < 2 ∧ s.lstate =
    4 ∧ 256 ≤ (s.fq n).length) ∧ (∃ (s : State) (n : Nat) (w : Word) (r : List Word), Form s ∧ (n = 2 ∨ n = 3) ∧ s.lstate = 4 ∧ s.fq n = w
    :: r) ∧ (∃ (s : State) (n : Nat) (w : Word) (r : List Word), Form s ∧ n < 2 ∧ s.regThere (0x00600500 + 0x10 * n) = true ∧ s.answers
    (addrDomain (0x00600500 + 0x10 * n)) = true ∧ s.fq n = w :: r ∧ r.length < 512) ∧ (∃ (s : State) (n : Nat) (w : Word), Form s ∧ (n = 2
    ∨ n = 3) ∧ s.regThere (0x00600500 + 0x10 * n) = true ∧ s.answers (addrDomain (0x00600500 + 0x10 * n)) = true ∧ (s.fq n).length < 256)
    ∧ (∃ (s : State) (n : Nat) (v : Word), Form s ∧ n < 96 ∧ s.regThere (0x00600100 + 4 * n) = true ∧ s.answers (addrDomain (0x00600100 +
    4 * n)) = true) :=
  ⟨⟨fabS 4 {}, 3, 7, form_of _ (by decide +kernel), by decide +kernel⟩, ⟨fabS 4 {} [(0x00600508, 0x00090001)], 0, 7,
  form_of _ (by decide +kernel), by decide +kernel⟩, ⟨fabS 4 { queues := [(1, [3])] }, 1, 0, form_of _ (by decide +kernel),
  by decide +kernel⟩, ⟨fabS 4 { queues := [(1, List.replicate 256 3)] }, 1, 0, form_of _ (by decide +kernel), by decide +kernel⟩,
  ⟨fabS 4 { queues := [(2, [3, 4])] }, 2, 3, [4], form_of _ (by decide +kernel), by decide +kernel⟩, ⟨fabS 4 { queues := [(0, [3, 4])] },
  0, 3, [4], form_of _ (by decide +kernel), by decide +kernel⟩, ⟨fabS 4 { queues := [(3, [3, 4])] }, 3, 9, form_of _ (by decide +kernel),
  by decide +kernel⟩, ⟨fabS 4 {}, 95, 0xFFF, form_of _ (by decide +kernel), by decide +kernel⟩⟩

theorem test_witness_DecodersAndCaptureUnits :
    (∃ (s : State) (n : Nat) (a b : Bool), Form s ∧ n < 8 ∧ s.answers 9 = true ∧ s.flag (0x00600700 + 0x10 * n) 0 = true ∧ tget 0 s.rhz.qd
    n < 8 ∧ s.rhz.design = none ∧ s.quadNext n = some (a, b) ∧ (quadPlace (tget 0 s.rhz.qd n % 2 == 1) (tget 0 s.rhz.qd n / 2 % 2 == 1) +
    1) % 4 = quadPlace a b) ∧ (∃ (s : State) (n : Nat) (a b : Bool), Form s ∧ n < 8 ∧ s.answers 9 = true ∧ s.flag (0x00600700 + 0x10 * n)
    0 = true ∧ tget 0 s.rhz.qd n < 8 ∧ s.rhz.design = none ∧ s.quadNext n = some (a, b) ∧ (quadPlace (tget 0 s.rhz.qd n % 2 == 1) (tget 0
    s.rhz.qd n / 2 % 2 == 1) + 1) % 4 = quadPlace a b) ∧ (∃ (s : State) (n : Nat) (a b : Bool), Form s ∧ n < 8 ∧ s.answers 9 = true ∧
    s.flag (0x00600700 + 0x10 * n) 0 = true ∧ tget 0 s.rhz.qd n < 8 ∧ s.rhz.design = none ∧ s.quadNext n = some (a, b) ∧ (quadPlace (tget
    0 s.rhz.qd n % 2 == 1) (tget 0 s.rhz.qd n / 2 % 2 == 1) + 1) % 4 = quadPlace a b) ∧ (∃ (s : State) (n : Nat) (a b : Bool), Form s ∧ n
    < 8 ∧ s.answers 9 = true ∧ s.flag (0x00600700 + 0x10 * n) 0 = true ∧ tget 0 s.rhz.qd n < 8 ∧ s.quadNext n = some (a, b) ∧ (quadPlace
    (tget 0 s.rhz.qd n % 2 == 1) (tget 0 s.rhz.qd n / 2 % 2 == 1) + 2) % 4 = quadPlace a b) ∧ (∃ (s : State) (n : Nat), Form s ∧ n < 8 ∧
    s.answers 9 = true ∧ s.inputDue (3 * n + 2) = true ∧ s.inputLevel (3 * n + 2) = false ∧ s.flag (0x00600700 + 0x10 * n) 0 = true ∧
    s.flag (0x00600700 + 0x10 * n) 22 = true ∧ s.rhz.design = none ∧ tget 0 s.rhz.qd n < 8) ∧ (∃ (s : State) (n : Nat) (rising : Bool)
    (at_ : Nat), Form s ∧ n < 8 ∧ s.answers 9 = true ∧ s.flag (0x00600600 + 0x20 * n) 0 = true ∧ edgeMatch (s.rf (0x00600600 + 0x20 * n) 9
    2) rising = true ∧ s.flag (0x00600600 + 0x20 * n) 1 = false ∧ tget none s.rhz.wait (24 + n) = some at_ ∧ s.inputDue (24 + n) = true ∧
    s.inputLevel (24 + n) = !rising ∧ (tget [] s.rhz.tsc n).length < 16) ∧ (∃ (s : State) (n : Nat) (e : TscEv) (q : List TscEv), Form s ∧
    n < 8 ∧ s.answers 9 = true ∧ s.regThere (0x00600608 + 0x20 * n) = true ∧ tget [] s.rhz.tsc n = e :: q ∧ q.length < 32) :=
  ⟨⟨fabS 4 { wait := [(3, some 0)] } [(0x00600710, 1)], 1, true, false, form_of _ (by decide +kernel), by decide +kernel⟩,
  ⟨fabS 4 { qd := [(1, 1)], wait := [(4, some 0)] } [(0x00600710, 0x00800001)], 1, true, true, form_of _ (by decide +kernel),
  by decide +kernel⟩, ⟨{ fabS 4 { qd := [(7, 6)], wait := [(22, some 3)] } [(0x00600770, 0x0F000001)] with time := 153 }, 7, false, false,
  form_of _ (by decide +kernel), by decide +kernel⟩, ⟨fabS 4 { wait := [(3, some 0), (4, some 0)] } [(0x00600710, 1)], 1, true, true,
  form_of _ (by decide +kernel), by decide +kernel⟩, ⟨fabS 4 { wait := [(5, some 0)] } [(0x00600710, 0x00400001), (0x00600718, 55)], 1,
  form_of _ (by decide +kernel), by decide +kernel⟩,
  ⟨{ fabS 4 { wait := [(25, some 4)] } [(0x00600620, 1), (0x00600704, 8)] with time := 9 }, 1, true, 4, form_of _ (by decide +kernel),
  by decide +kernel⟩, ⟨fabS 4 { tsc := [(1, [{ rise := true, time := 2 ^ 33 + 5, pos := 7 }])] }, 1,
  { rise := true, time := 2 ^ 33 + 5, pos := 7 }, [], form_of _ (by decide +kernel), by decide +kernel⟩⟩

theorem test_witness_CapsuleGatewayCommands :
    (∃ (s : State), CgwFree s ∧ s.capUp = true ∧ (∀ b < 8, s.cgwArg % 256 / 2 ^ b % 2 = 1 → paramIn s.cap.params 1 0 / 2 ^ b % 2 = 1)) ∧
    (∃ (s : State) (b : Nat), CgwFree s ∧ s.capUp = true ∧ b < 8 ∧ s.cgwArg % 256 / 2 ^ b % 2 = 1 ∧ paramIn s.cap.params 1 0 / 2 ^ b % 2 =
    0) ∧ (∃ (s : State), CgwFree s ∧ s.capUp = true) ∧ (∃ (s : State), CgwFree s ∧ s.capUp = true ∧ (s.rd 0x00700010 - s.rd
    0x00700004).toNat < 4096 ∧ recordOk (tget 0 s.cap.ring (s.cgwArg % 4096)) = true) ∧ (∃ (s : State), CgwFree s ∧ s.capUp = true ∧ 1 ≤
    (s.rd 0x00700004 - s.rd 0x00700010).toNat ∧ (s.rd 0x00700004 - s.rd 0x00700010).toNat < 2 ^ 31) ∧ (∃ (s : State), CgwFree s ∧ s.capUp
    = true ∧ ((s.rd 0x00700004 - s.rd 0x00700010).toNat = 0 ∨ 2 ^ 31 ≤ (s.rd 0x00700004 - s.rd 0x00700010).toNat) ∧ (4096 ≤ (s.rd
    0x00700010 - s.rd 0x00700004).toNat ∨ recordOk (tget 0 s.cap.ring (s.cgwArg % 4096)) = false)) ∧ (∃ (s : State), CgwFree s ∧ s.capUp =
    true ∧ ((s.rd 0x00700004 - s.rd 0x00700010).toNat = 0 ∨ 2 ^ 31 ≤ (s.rd 0x00700004 - s.rd 0x00700010).toNat) ∧ (4096 ≤ (s.rd 0x00700010
    - s.rd 0x00700004).toNat ∨ recordOk (tget 0 s.cap.ring (s.cgwArg % 4096)) = false)) ∧ (∃ (s : State) (k : Nat) (v : BitVec 256),
    CgwFree s ∧ s.capUp = true ∧ (s.cap.log.find? fun e => slotCommitted e.2 && slotNat e.2 4 4 == s.cgwArg) = some (k, v)) ∧ (∃ (s :
    State), CgwFree s ∧ s.capUp = true ∧ (∀ e ∈ s.cap.log, slotCommitted e.2 = true → slotNat e.2 4 4 ≠ s.cgwArg)) ∧ (∃ (s : State),
    CgwFree s ∧ 2 ≤ s.cstate) ∧ (∃ (s : State), CgwFree s ∧ 2 ≤ s.cstate) ∧ (∃ (s : State), CgwFree s ∧ 2 ≤ s.cstate) ∧ (∃ (s : State) (c
    : Instr) (opc : Nat), CgwFree s ∧ s.cstate < 2 ∧ (c, opc) ∈ [(Instr.capsuleStart, 1), (.capsuleStop, 2), (.readRecord, 3), (.readLog,
    4), (.readSwid, 5), (.readEventCounter, 6)]) ∧ (∃ (s : State) (c : Instr) (opc : Nat), CgwFree s ∧ s.cstate < 2 ∧ (c, opc) ∈
    [(Instr.capsuleStart, 1), (.capsuleStop, 2), (.readRecord, 3), (.readLog, 4), (.readSwid, 5), (.readEventCounter, 6)]) ∧ (∃ (s :
    State) (c : Instr), s.regThere 0x00700000 = true ∧ s.answers (addrDomain 0x00700000) = true ∧ s.flag 0x00700008 0 = true ∧ c ∈
    [Instr.capsuleStart, .capsuleStop, .readRecord, .readLog, .readSwid, .readEventCounter, .cgwCommandRefused 0]) ∧ (∃ (s : State) (c :
    Instr), s.regThere 0x00700000 = true ∧ s.answers (addrDomain 0x00700000) = true ∧ s.flag 0x00700008 0 = true ∧ c ∈
    [Instr.capsuleStart, .capsuleStop, .readRecord, .readLog, .readSwid, .readEventCounter, .cgwCommandRefused 0]) ∧ (∃ (s : State) (opc
    st : Nat) (ws : List Word), Form s ∧ s.cap.gw = some (opc, st, ws) ∧ ws.length ≤ 16 ∧ st < 16) ∧ (∃ (s : State) (opc st : Nat) (ws :
    List Word), Form s ∧ s.cap.gw = some (opc, st, ws) ∧ ws.length ≤ 16 ∧ st < 16) ∧ (∃ (s : State) (opc : Nat), CgwFree s ∧ (opc = 0 ∨ 7
    ≤ opc) ∧ opc < 256) ∧ (∃ (s : State) (opc : Nat), CgwFree s ∧ (opc = 0 ∨ 7 ≤ opc) ∧ opc < 256) ∧ (∃ (s : State) (opc : Nat), CgwFree s
    ∧ (opc = 0 ∨ 7 ≤ opc) ∧ opc < 256) :=
  ⟨⟨cgS (2) 3 { params := [(256, 7)] } [], ⟨form_of _ (by decide +kernel), by decide +kernel, by decide +kernel, by decide +kernel⟩,
  by decide +kernel⟩, ⟨cgS (2) 3 { params := [(256, 1)] } [], 1, ⟨form_of _ (by decide +kernel), by decide +kernel, by decide +kernel,
  by decide +kernel⟩, by decide +kernel⟩, ⟨cgS (0x33) 1 {} [], ⟨form_of _ (by decide +kernel), by decide +kernel, by decide +kernel,
  by decide +kernel⟩, by decide +kernel⟩, ⟨cgS (2) 5 { ring := [(5, okRec)] } [(0x00700010, 9)], ⟨form_of _ (by decide +kernel),
  by decide +kernel, by decide +kernel, by decide +kernel⟩, by decide +kernel⟩, ⟨cgS (2) 15 {} [(0x00700010, 9)],
  ⟨form_of _ (by decide +kernel), by decide +kernel, by decide +kernel, by decide +kernel⟩, by decide +kernel⟩,
  ⟨cgS (2) 5 {} [(0x00700010, 5000)], ⟨form_of _ (by decide +kernel), by decide +kernel, by decide +kernel, by decide +kernel⟩,
  by decide +kernel⟩, ⟨cgS (2) 5 {} [(0x00700010, 5)], ⟨form_of _ (by decide +kernel), by decide +kernel, by decide +kernel,
  by decide +kernel⟩, by decide +kernel⟩, ⟨cgS (2) 7 { log := [(2, logE)] } [], 2, logE, ⟨form_of _ (by decide +kernel),
  by decide +kernel, by decide +kernel, by decide +kernel⟩, by decide +kernel⟩, ⟨cgS (2) 8 { log := [(2, logE)] } [],
  ⟨form_of _ (by decide +kernel), by decide +kernel, by decide +kernel, by decide +kernel⟩, by decide +kernel⟩,
  ⟨cgS (2) 0 { swid := 5, boots := 3 } [], ⟨form_of _ (by decide +kernel), by decide +kernel, by decide +kernel, by decide +kernel⟩,
  by decide +kernel⟩, ⟨cgS (4) 0 { swid := 5 } [], ⟨form_of _ (by decide +kernel), by decide +kernel, by decide +kernel,
  by decide +kernel⟩, by decide +kernel⟩, ⟨cgS (0x0E000008 + 4) 0 { ctr := 9 } [], ⟨form_of _ (by decide +kernel), by decide +kernel,
  by decide +kernel, by decide +kernel⟩, by decide +kernel⟩, ⟨cgS (0) 0 {} [], .capsuleStart, 1, ⟨form_of _ (by decide +kernel),
  by decide +kernel, by decide +kernel, by decide +kernel⟩, by decide +kernel, by simp⟩, ⟨cgS (1) 0 {} [], .readEventCounter, 6,
  ⟨form_of _ (by decide +kernel), by decide +kernel, by decide +kernel, by decide +kernel⟩, by decide +kernel, by simp⟩,
  ⟨cgS (2) 0 {} [(0x00700008, 1)], .readLog, by decide +kernel⟩, ⟨cgS (0) 0 {} [(0x00700008, 1)], .cgwCommandRefused 0,
  by decide +kernel⟩, ⟨cgS (2) 0 { gw := some (3, 5, [1, 2, 3]) } [(0x00700008, 1)], 3, 5, [1, 2, 3], form_of _ (by decide +kernel),
  by decide +kernel⟩, ⟨cgS (2) 0 { gw := some (3, 0, List.replicate 16 4) } [(0x00700008, 1)], 3, 0, List.replicate 16 4,
  form_of _ (by decide +kernel), by decide +kernel⟩, ⟨cgS (2) 0 {} [], 0, ⟨form_of _ (by decide +kernel), by decide +kernel,
  by decide +kernel, by decide +kernel⟩, by decide +kernel⟩, ⟨cgS (0) 0 {} [], 255, ⟨form_of _ (by decide +kernel), by decide +kernel,
  by decide +kernel, by decide +kernel⟩, by decide +kernel⟩, ⟨cgS (0) 0 {} [(0x0070000C, 0xFFFFFFFF)], 7, ⟨form_of _ (by decide +kernel),
  by decide +kernel, by decide +kernel, by decide +kernel⟩, by decide +kernel⟩⟩

theorem test_witness_CapsuleServicePort :
    (∃ (s : State) (id idx : Nat), Serving s ∧ paramIs id idx = true) ∧ (∃ (s : State), Serving s) ∧ (∃ (s : State) (cmd : Nat), Serving s
    ∧ cmd < 256 ∧ cmd ∉ [0x10, 0x11, 0x20, 0x21, 0x22, 0x30]) ∧ (∃ (s : State) (id idx : Nat) (v : Word), Serving s ∧ s.permitted = false)
    ∧ (∃ (s : State) (id idx : Nat) (v : Word), Serving s ∧ s.permitted = false) ∧ (∃ (s : State) (id idx : Nat) (v : Word), Serving s ∧
    s.permitted = true ∧ (paramOk id idx v.toNat = false ∨ s.flag cgwState 25 = true)) ∧ (∃ (s : State) (id idx : Nat) (v : Word), Serving
    s ∧ s.permitted = true ∧ (paramOk id idx v.toNat = false ∨ s.flag cgwState 25 = true)) ∧ (∃ (s : State) (id idx : Nat) (v : Word),
    Serving s ∧ s.permitted = true ∧ paramOk id idx v.toNat = true ∧ s.flag cgwState 25 = false ∧ s.flag cgwState 26 = false ∧ s.cap.ctr ≠
    0xFFFFFF ∧ tget 0 s.cap.params (paramKey id idx) ≠ v) ∧ (∃ (s : State) (id idx : Nat) (v : Word), Serving s ∧ s.permitted = true ∧
    paramOk id idx v.toNat = true ∧ s.flag cgwState 25 = false ∧ s.flag cgwState 26 = false ∧ s.cap.ctr ≠ 0xFFFFFF ∧ tget 0 s.cap.params
    (paramKey id idx) ≠ v) ∧ (∃ (s : State) (id idx : Nat) (v : Word) (rest : List NorJob), (s.capUp = true ∨ s.cstate = 4) ∧ s.cap.jobs =
    .param id idx v :: rest ∧ s.cap.stage = 0) ∧ (∃ (s : State) (id idx : Nat) (v : Word) (rest : List NorJob), (s.capUp = true ∨ s.cstate
    = 4) ∧ s.cap.jobs = .param id idx v :: rest ∧ s.cap.stage = 1) ∧ (∃ (s : State) (id idx : Nat) (v : Word) (rest : List NorJob), Form s
    ∧ (s.capUp = true ∨ s.cstate = 4) ∧ s.cap.jobs = .param id idx v :: rest ∧ s.cap.stage = 2 ∧ s.pinSealed = false) ∧ (∃ (s : State) (id
    idx : Nat) (v : Word), (s.capUp = true ∨ s.cstate = 4) ∧ s.cap.jobs = [.param id idx v] ∧ s.cap.stage = 2 ∧ s.pinSealed = true) ∧ (∃
    (s : State) (id idx : Nat) (v : Word) (rest : List NorJob), (s.capUp = true ∨ s.cstate = 4) ∧ s.cap.jobs = .param id idx v :: rest ∧
    s.cap.stage = 3) ∧ (∃ (s : State) (id idx : Nat) (v : Word), Form s ∧ (s.capUp = true ∨ s.cstate = 4) ∧ s.cap.jobs = [.param id idx v]
    ∧ s.cap.stage = 4 ∧ 0 < s.cap.next) ∧ (∃ (s : State) (size : Nat), Serving s ∧ s.permitted = true ∧ 0 < size ∧ size ≤ 0x400000) ∧ (∃
    (s : State), (s.capUp = true ∨ s.cstate = 4) ∧ s.cap.jobs = [.erase]) ∧ (∃ (s : State) (off size b : Nat) (data : List Byte), Serving
    s ∧ s.permitted = true ∧ s.cap.upload = some (size, b) ∧ data.length ≤ 4092 ∧ off + data.length ≤ size) ∧ (∃ (s : State) (off size b :
    Nat) (data : List Byte), (s.capUp = true ∨ s.cstate = 4) ∧ s.cap.jobs = [.program off data] ∧ s.cap.upload = some (size, b) ∧ twf 0xFF
    s.cap.nor = true) ∧ (∃ (s : State) (v : Verdict) (version : Word) (memNeed size b : Nat) (factory : Tbl Word) (i : CapImage), Form s ∧
    Serving s ∧ s.permitted = true ∧ i = { size := size, verdict := v, version := version, memNeed := memNeed, factory := factory } ∧
    s.flag cgwState 25 = false ∧ s.flag cgwState 26 = false ∧ s.cap.ctr ≠ 0xFFFFFF ∧ s.cap.upload = some (size, b) ∧ s.cap.next < 229376)
    ∧ (∃ (s : State) (v : Verdict) (version : Word) (memNeed size b : Nat) (factory : Tbl Word) (i : CapImage), Form s ∧ Serving s ∧
    s.permitted = true ∧ i = { size := size, verdict := v, version := version, memNeed := memNeed, factory := factory } ∧ s.flag cgwState
    25 = false ∧ s.flag cgwState 26 = false ∧ s.cap.ctr ≠ 0xFFFFFF ∧ s.cap.upload = some (size, b) ∧ s.cap.next < 229376) ∧ (∃ (s : State)
    (et index pid : Nat) (old new : Word) (a : Option (Nat × Nat)) (rest : List NorJob), (s.capUp = true ∨ s.cstate = 4) ∧ s.cap.jobs =
    .entry et index pid old new a :: rest ∧ s.cap.stage = 0) ∧ (∃ (s : State) (b : Nat) (old new : Word), Form s ∧ (s.capUp = true ∨
    s.cstate = 4) ∧ s.cap.jobs = [.entry 4 b 0 old new (some (0x22, 0))] ∧ s.cap.stage ≠ 0 ∧ 0 < s.cap.next) :=
  ⟨⟨cgS (2) 0 { params := [(513, 5)] } [], 2, 1, ⟨by decide +kernel, by decide +kernel⟩, by decide +kernel⟩,
  ⟨cgS (3) 0 { ctr := 0x10203, bootBank := 1, swid := 7 } [], ⟨by decide +kernel, by decide +kernel⟩⟩, ⟨cgS (4) 0 {} [], 0x12,
  ⟨by decide +kernel, by decide +kernel⟩, by decide +kernel⟩, ⟨cgS (2 + 8) 0 {} [], 2, 1, 5, ⟨by decide +kernel, by decide +kernel⟩,
  by decide +kernel⟩, ⟨cgS (2) 0 { logOpen := false } [], 2, 1, 5, ⟨by decide +kernel, by decide +kernel⟩, by decide +kernel⟩,
  ⟨cgS (2) 0 {} [], 2, 1, 3, ⟨by decide +kernel, by decide +kernel⟩, by decide +kernel⟩, ⟨cgS (2 + 0x02000000) 0 {} [], 2, 1, 5,
  ⟨by decide +kernel, by decide +kernel⟩, by decide +kernel⟩, ⟨cgS (2) 0 {} [], 2, 1, 5, ⟨by decide +kernel, by decide +kernel⟩,
  by decide +kernel⟩, ⟨cgS (2) 0 { gen := some 3, copies := [(0, some { gen := 3, set := [], committed := true, crcOk := true })] } [], 2,
  1, 5, ⟨by decide +kernel, by decide +kernel⟩, by decide +kernel⟩, ⟨cgS (2) 0 { jobs := [.param 2 1 5], stage := 0 } [], 2, 1, 5, [],
  by decide +kernel⟩, ⟨cgS (2) 0 { jobs := [.param 2 1 5, .erase], stage := 1 } [], 2, 1, 5, [.erase], by decide +kernel⟩,
  ⟨cgS (2) 0 { jobs := [.param 2 1 5], stage := 2 } [], 2, 1, 5, [], form_of _ (by decide +kernel), by decide +kernel⟩,
  ⟨cgS (2 + 8) 0 { jobs := [.param 2 1 5], stage := 2 } [], 2, 1, 5, by decide +kernel⟩,
  ⟨cgS (2) 0 { jobs := [.param 2 1 5], stage := 3 } [], 2, 1, 5, [], by decide +kernel⟩,
  ⟨cgS (2) 0 { jobs := [.param 2 1 5], stage := 4, next := 1, log := [(0, 0xFFFFFFFFFFFFFFFFFFFFFFFFFFFFFFFFFFFFFFFFFF01234567FFFFFF03020103)] } [],
  2, 1, 5, form_of _ (by decide +kernel), by decide +kernel⟩,
  ⟨cgS (2) 0 { nor := [(5, 1), (0x400005, 2)], images := [(1, some cimg)] } [], 0x400000, ⟨by decide +kernel, by decide +kernel⟩,
  by decide +kernel⟩, ⟨cgS (2) 0 { jobs := [.erase], stage := 0 } [], by decide +kernel⟩, ⟨cgS (2) 0 { upload := some (100, 1) } [], 5,
  100, 1, [1, 2], ⟨by decide +kernel, by decide +kernel⟩, by decide +kernel⟩,
  ⟨cgS (2) 0 { upload := some (100, 1), nor := [(0x400006, 0xF)], jobs := [.program 5 [1, 0x33]] } [], 5, 100, 1, [1, 0x33],
  by decide +kernel⟩, ⟨cgS (2) 0 { upload := some (100, 1) } [], cver, 9, 100, 100, 1, [],
  { size := 100, verdict := cver, version := 9, memNeed := 100, factory := [] }, form_of _ (by decide +kernel), ⟨by decide +kernel,
  by decide +kernel⟩, by decide +kernel, rfl, by decide +kernel⟩,
  ⟨cgS (2) 0 { upload := some (0x1000 + 64 + 16384, 1), nor := norB 1 } [], cver, 9, 100, 0x1000 + 64 + 16384, 1, [(256, 1)], cimg,
  form_of _ (by decide +kernel), ⟨by decide +kernel, by decide +kernel⟩, by decide +kernel, rfl, by decide +kernel⟩,
  ⟨cgS (2) 0 { jobs := [.entry 1 5 0 0 0 none], stage := 0 } [], 1, 5, 0, 0, 0, none, [], by decide +kernel⟩,
  ⟨cgS (2) 0 { jobs := [.entry 4 1 0 5 6 (some (0x22, 0))], stage := 1, next := 3 } [], 1, 5, 6, form_of _ (by decide +kernel),
  by decide +kernel⟩⟩

theorem test_witness_CapsuleMeasures :
    (∃ (s : State) (n : Nat) (a b : Bool), n < 16 ∧ s.cstate ≠ 0 ∧ twf none s.cap.pins = true) ∧ (∃ (s : State) (n i since : Nat) (v a b :
    Bool), Quiet s ∧ s.cstate ≠ 0 ∧ n < 16 ∧ i < 2 ∧ s.cap.pins = [(2 * n + i, some (v, since))] ∧ a = (s.cap.level n 0 != decide (i = 0))
    ∧ b = (s.cap.level n 1 != decide (i = 1))) ∧ (∃ (s : State) (n i since : Nat) (v a b : Bool), Quiet s ∧ s.cstate ≠ 0 ∧ n < 16 ∧ i < 2
    ∧ s.cap.pins = [(2 * n + i, some (v, since))] ∧ a = (s.cap.level n 0 != decide (i = 0)) ∧ b = (s.cap.level n 1 != decide (i = 1))) ∧
    (∃ (s : State) (port k head l : Nat) (f : GvspFrame) (fmt points lines : Nat) (c : CapBlock) (g : GvBlock), port < 2 ∧ s.capUp = true
    ∧ s.capChan port f = some k ∧ head = 8 * port + k ∧ twf none s.cap.blocks = true ∧ tget none s.cap.blocks head = some c ∧ c.gv.block =
    f.block ∧ c.gv.image = true ∧ c.gv.size ≠ 0 ∧ c.points ≠ 0 ∧ f.part = 1 ∧ c.gv.next = l ∧ l < c.lines ∧ (f.packet - 1) * c.gv.size <
    (l + 1) * (2 * c.points) ∧ (l + 1) * (2 * c.points) ≤ f.packet * c.gv.size ∧ f.packet * c.gv.size < (l + 2) * (2 * c.points) ∧ g =
    GvBlock.take (some c.gv) f) ∧ (∃ (s : State) (port : Nat) (f : GvspFrame) (fmt points lines : Nat), s.capChan port f = none) ∧ (∃ (s :
    State) (port : Nat) (f : GvspFrame) (fmt points lines : Nat), s.capChan port f = none) ∧ (∃ (s : State) (b : Nat) (x : Prof), b < 8 ∧
    s.cstate = 3 ∧ s.flag cgwState (4 + b) = true ∧ tget none s.cap.wins b = none ∧ tget {} s.cap.prof b = x) ∧ (∃ (s u : State) (b : Nat)
    (w : CapWin) (f : ParcelFacts), Form s ∧ b < 8 ∧ s.capUp = true ∧ tget none s.cap.wins b = some w ∧ (∀ p < 64, s.pstate p ≠ 4) ∧ u =
    f.work.foldl State.capWork s) ∧ (∃ (s : State), Form s ∧ s.flag 0x00700030 0 = true ∧ s.answers 8 = true ∧ (s.rd 0x00700010 + 1 - s.rd
    0x00700034).toNat ≠ 0 ∧ (s.rd 0x00700010 + 1 - s.rd 0x00700034).toNat ≤ 4096 ∧ s.ringOk 2 (s.rf 0x00700030 1 6) = true ∧ s.ringRoom 2
    (s.rf 0x00700030 1 6) = true ∧ s.stageRoom = true) ∧ (∃ (s : State), Form s ∧ s.cstate ≠ 0 ∧ s.cap.mapAt + 1000000 ≤ s.cap.ns ∧
    s.answers 8 = true) ∧ (∃ (s : State) (high : Bool), (s.cstate = 2 ∨ s.cstate = 3 ∨ s.cstate = 4) ∧ s.cap.sealAt + 1000000 ≤ s.cap.ns ∧
    s.pinSealed = !high) ∧ (∃ (s : State) (high : Bool), (s.cstate = 2 ∨ s.cstate = 3 ∨ s.cstate = 4) ∧ s.cap.sealAt + 1000000 ≤ s.cap.ns
    ∧ s.pinSealed = !high) ∧ (∃ (s : State) (high : Bool), Form s ∧ (s.cstate = 2 ∨ s.cstate = 3 ∨ s.cstate = 4) ∧ s.cap.sealAt + 1000000
    ≤ s.cap.ns ∧ s.pinSealed = high ∧ s.cap.sealLast = high ∧ 9 ≤ s.cap.sealRun ∧ (s.cap.jobs ≠ [] ∨ s.cap.next < 229376)) ∧ (∃ (s :
    State) (high : Bool), Form s ∧ (s.cstate = 2 ∨ s.cstate = 3 ∨ s.cstate = 4) ∧ s.cap.sealAt + 1000000 ≤ s.cap.ns ∧ s.pinSealed = high ∧
    s.cap.sealLast = high ∧ 9 ≤ s.cap.sealRun ∧ (s.cap.jobs ≠ [] ∨ s.cap.next < 229376)) ∧ (∃ (s : State) (high : Bool), Form s ∧
    (s.cstate = 2 ∨ s.cstate = 3 ∨ s.cstate = 4) ∧ s.cap.sealAt + 1000000 ≤ s.cap.ns ∧ s.pinSealed = high ∧ (s.cap.sealLast ≠ high ∨
    s.cap.sealRun < 9)) ∧ (∃ (s : State), Form s) ∧ (∃ (s : State) (high : Bool) (mem : Nat) (sfdp : Word) (i : CapImage), Form s ∧
    s.cstate = 0 ∧ s.cap.log = [] ∧ s.cap.jobs = [] ∧ tget none s.cap.images 0 = some i ∧ capsuleVerify (s.bankObj 0 i) = none ∧ i.memNeed
    ≤ mem) ∧ (∃ (s : State) (high : Bool) (mem : Nat) (sfdp : Word) (i : CapImage), Form s ∧ s.cstate = 0 ∧ s.cap.log = [] ∧ s.cap.jobs =
    [] ∧ tget none s.cap.images 0 = some i ∧ capsuleVerify (s.bankObj 0 i) = none ∧ i.memNeed ≤ mem) ∧ (∃ (s : State) (high : Bool) (mem :
    Nat) (sfdp : Word), Form s ∧ s.cstate = 0 ∧ s.cap.log = [] ∧ s.cap.jobs = [] ∧ (∀ i, tget none s.cap.images 0 = some i → capsuleVerify
    (s.bankObj 0 i) ≠ none)) :=
  ⟨⟨cgS (2) 0 {} [], 5, true, false, by decide +kernel⟩, ⟨cgS (2) 0 { pins := [(10, some (true, 3))], ns := 100 } [], 5, 0, 3, true, true,
  false, by constructor <;> first | decide +kernel | exact form_of _ (by decide +kernel), by decide +kernel⟩,
  ⟨cgS (2) 0 { pins := [(11, some (true, 90))], ns := 100 } [], 5, 1, 90, true, false, true,
  by constructor <;> first | decide +kernel | exact form_of _ (by decide +kernel), by decide +kernel⟩,
  ⟨cgS (2) 0 { enc := [(4, 9), (5, 8)], ns := 400, blocks := [(0, some pblk)] } [], 0, 0, 0, 0, pgv, 1, 4, 2, pblk,
  GvBlock.take (some pblk.gv) pgv, by decide +kernel⟩, ⟨cgS (2) 0 {} [], 0, { gvf with udp := 9 }, 1, 4, 2, by decide +kernel⟩,
  ⟨cgS (2) 0 {} [], 0, { gvf with gvsp := false }, 1, 4, 2, by decide +kernel⟩,
  ⟨cgS (3 + 0x20) 0 { prof := [(1, { pos := 4, check := 5, tick := 6 })] } [], 1, { pos := 4, check := 5, tick := 6 }, by decide +kernel⟩,
  ⟨cgS (3) 0 { wins := [(1, some capWin0)] } [], (pfacts.work.foldl State.capWork (cgS (3) 0 { wins := [(1, some capWin0)] } [])), 1,
  capWin0, pfacts, form_of _ (by decide +kernel), by decide +kernel⟩, ⟨cgS (2) 0 { ring := [(0, 7)] } [(0x00700030, 7), (ringReg 2 3 + 8,
  1), (0x00700010, 3)], form_of _ (by decide +kernel), by decide +kernel⟩, ⟨cgS (2) 0 { ns := 1000000 } [], form_of _ (by decide +kernel),
  by decide +kernel⟩, ⟨cgS (2) 0 { ns := 1000000 } [], true, by decide +kernel⟩,
  ⟨cgS (2 + 8) 0 { ns := 1000000, sealRun := 5, sealLast := false } [], false, by decide +kernel⟩,
  ⟨cgS (2) 0 { ns := 1000000, sealRun := 9, sealLast := false } [], false, form_of _ (by decide +kernel), by decide +kernel⟩,
  ⟨cgS (2 + 8) 0 { ns := 1000000, sealRun := 10, sealLast := true, wins := [(1, some capWin0)] } [], true, form_of _ (by decide +kernel),
  by decide +kernel⟩, ⟨cgS (2) 0 { ns := 1000000, sealRun := 9, sealLast := true } [], false, form_of _ (by decide +kernel),
  by decide +kernel⟩, ⟨cgS (2) 0 { ns := 1000000, boots := 4 } [(0x00700008, 1)], form_of _ (by decide +kernel)⟩,
  ⟨cgS (0) 0 { images := [(0, some cimg)], nor := norB 0 } [], true, 100, 5, cimg, form_of _ (by decide +kernel), by decide +kernel,
  by decide +kernel, by decide +kernel, rfl, capsule_ok _ rfl (by decide +kernel), by decide +kernel⟩,
  ⟨cgS (0) 0 { images := [(0, some cimg)], nor := norB 0 } [], false, 100, 5, cimg, form_of _ (by decide +kernel), by decide +kernel,
  by decide +kernel, by decide +kernel, rfl, capsule_ok _ rfl (by decide +kernel), by decide +kernel⟩, ⟨cgS (0) 0 {} [], true, 100, 5,
  form_of _ (by decide +kernel), by decide +kernel⟩⟩

theorem test_witness_PortsTrain :
    (∃ (s : State) (p : Nat), Linked s p ∧ s.inRun 7 = true ∧ s.lstat p = 0 ∧ (s.port p).signal = false) ∧ (∃ (s : State) (p : Nat),
    Linked s p ∧ s.inRun 7 = true ∧ s.lstat p = 1 ∧ s.time ≤ (s.port p).since + 50000000 ∧ s.clockGone 1 = false ∧ ((s.port p).fromUp =
    false ∨ (s.port p).lostSince = true) ∧ (s.port p).pend = none ∧ (s.port p).want = false ∧ s.gov.join = none) ∧ (∃ (s : State) (p :
    Nat), Linked s p ∧ s.inRun 7 = true ∧ s.lstat p = 1 ∧ s.time ≤ (s.port p).since + 50000000 ∧ s.clockGone 1 = false ∧ ((s.port
    p).fromUp = false ∨ (s.port p).lostSince = true) ∧ (s.port p).pend = none ∧ (s.port p).want = true ∧ (s.port p).ctl = [] ∧ (s.port
    p).resume = false ∧ (s.port p).retry.length < 512 ∧ s.gov.join = none) ∧ (∃ (s : State) (p r : Nat), Linked s p ∧ s.inRun 7 = true ∧
    s.lstat p = 1 ∧ s.time ≤ (s.port p).since + 50000000 ∧ s.clockGone 1 = false ∧ ((s.port p).fromUp = false ∨ (s.port p).lostSince =
    true) ∧ (s.port p).pend = some r ∧ r < 16 ∧ s.gov.join = none) ∧ (∃ (s : State) (p : Nat), Linked s p ∧ s.inRun 7 = true ∧ s.lstat p =
    1 ∧ s.time ≤ (s.port p).since + 50000000 ∧ s.clockGone 1 = false ∧ (s.port p).fromUp = true ∧ (s.port p).lostSince = false ∧ (s.port
    p).ctl = [] ∧ s.gov.join = none) ∧ (∃ (s : State) (p : Nat), Linked s p ∧ s.inRun 7 = true ∧ s.lstat p = 1 ∧ s.time ≤ (s.port p).since
    + 50000000 ∧ s.clockGone 1 = false ∧ (s.port p).fromUp = true ∧ (s.port p).lostSince = false ∧ (s.port p).ctl = [] ∧ s.gov.join =
    none) ∧ (∃ (s : State) (p : Nat), Linked s p ∧ s.lstat p = 1 ∧ (s.port p).since + 50000000 ≤ s.time) ∧ (∃ (s : State) (p : Nat),
    Linked s p ∧ s.inRun 7 = true ∧ s.lstat p = 0 ∧ (s.port p).signal = true ∧ (s.port p).since + 10000000 ≤ s.time) ∧ (∃ (s : State) (p :
    Nat), Linked s p ∧ s.lstat p = 3) ∧ (∃ (s : State) (p : Nat), Linked s p ∧ (s.lstat p = 2 ∨ s.lstat p = 4)) ∧ (∃ (s : State) (p :
    Nat), Linked s p ∧ (s.lstat p = 2 ∨ s.lstat p = 4)) ∧ (∃ (s : State) (p c : Nat), Form s ∧ p < 8 ∧ c < 32 ∧ s.carries p = true) ∧ (∃
    (s : State) (p c : Nat), Form s ∧ p < 8 ∧ c < 32 ∧ s.carries p = true) ∧ (∃ (s : State) (p c : Nat), p < 8 ∧ c < 32 ∧ s.flag (chanReg
    (32 * p + c) 4) 0 = true ∧ s.chanFree (32 * p + c) = 0 ∧ (tget 0 s.link.vAt (32 * p + c) = 0 ∨ tget 0 s.link.vAt (32 * p + c) + 63 ≤
    s.ck)) ∧ (∃ (s : State) (p c : Nat), p < 8 ∧ c < 32 ∧ s.flag (chanReg (32 * p + c) 4) 0 = true ∧ s.chanFree (32 * p + c) = 0 ∧ (tget 0
    s.link.vAt (32 * p + c) = 0 ∨ tget 0 s.link.vAt (32 * p + c) + 63 ≤ s.ck)) :=
  ⟨⟨lkS (0) {} [] {}, 2, ⟨form_of _ (by decide +kernel), by decide +kernel, by decide +kernel⟩, by decide +kernel⟩,
  ⟨lkS (1) { since := 5 } [] {}, 2, ⟨form_of _ (by decide +kernel), by decide +kernel, by decide +kernel⟩, by decide +kernel⟩,
  ⟨lkS (1) { since := 5, want := true } [] {}, 2, ⟨form_of _ (by decide +kernel), by decide +kernel, by decide +kernel⟩,
  by decide +kernel⟩, ⟨lkS (1) { pend := some 6 } [] {}, 2, 6, ⟨form_of _ (by decide +kernel), by decide +kernel, by decide +kernel⟩,
  by decide +kernel⟩, ⟨lkS (1) { fromUp := true } [] {}, 2, ⟨form_of _ (by decide +kernel), by decide +kernel, by decide +kernel⟩,
  by decide +kernel⟩, ⟨lkS (1) { fromUp := true, retry := List.replicate 512 (lfl 0 0) } [] {}, 2, ⟨form_of _ (by decide +kernel),
  by decide +kernel, by decide +kernel⟩, by decide +kernel⟩, ⟨lkS (1) { since := 5 } [] { time := 50000006 }, 2,
  ⟨form_of _ (by decide +kernel), by decide +kernel, by decide +kernel⟩, by decide +kernel⟩,
  ⟨lkS (0) { signal := true } [] { time := 50000006 }, 2, ⟨form_of _ (by decide +kernel), by decide +kernel, by decide +kernel⟩,
  by decide +kernel⟩, ⟨lkS (0x503) {} [] {}, 2, ⟨form_of _ (by decide +kernel), by decide +kernel, by decide +kernel⟩, by decide +kernel⟩,
  ⟨lkS (2) {} [] {}, 2, ⟨form_of _ (by decide +kernel), by decide +kernel, by decide +kernel⟩, by decide +kernel⟩,
  ⟨lkS (4) { retry := [lfl 0 0, lfl 1 0], lostSince := true } [] {}, 2, ⟨form_of _ (by decide +kernel), by decide +kernel,
  by decide +kernel⟩, by decide +kernel⟩, ⟨lkS (4) {} [] {}, 2, 31, form_of _ (by decide +kernel), by decide +kernel⟩,
  ⟨lkS (3) {} [(chanReg 64 0x1C, 0x100000)] {}, 2, 0, form_of _ (by decide +kernel), by decide +kernel⟩, ⟨lkS (3) {} [(ck2 4, 1)] {}, 2,
  3, by decide +kernel⟩, ⟨lkS (3) {} [(ck2 4, 1)] { ck := 70, link := { vAt := [(67, 7)] } }, 2, 3, by decide +kernel⟩⟩

theorem test_witness_LinkFlits :
    (∃ (s : State) (p n m : Nat) (ws : List LinkWord), Linked s p ∧ s.carries p = true ∧ 16 < n + m) ∧ (∃ (s : State) (p n m : Nat) (w :
    LinkWord) (l : LinkFlit), Word1 s p ∧ s.lstat p = 3 ∧ n + m ≤ 16 ∧ linkFlitOf w = l ∧ l.flit.hdrErr ≠ 2 ∧ l.flit.par = 0 ∧ l.ltype = 0
    ∧ l.lseq = s.rxExp p ∧ s.flag (chanReg (32 * p + l.chan) 4) 0 = true ∧ 32 * p + l.chan ∉ s.link.closed ∧ (tget [] s.link.rx (32 * p +
    l.chan)).length < 16) ∧ (∃ (s : State) (p n m e : Nat) (w : LinkWord) (l : LinkFlit), Word1 s p ∧ n + m ≤ 16 ∧ linkFlitOf w = l ∧
    l.flit.hdrErr ≠ 2 ∧ l.flit.par = 0 ∧ l.ltype = 1 ∧ l.control = some (.resume e) ∧ l.lseq = s.rxExp p ∧ (s.port p).ctl = []) ∧ (∃ (s :
    State) (p n m : Nat) (w : LinkWord) (l : LinkFlit), Word1 s p ∧ n + m ≤ 16 ∧ linkFlitOf w = l ∧ l.flit.hdrErr ≠ 2 ∧ l.flit.par = 0 ∧
    l.ltype ≤ 1 ∧ (l.ltype = 0 ∨ (s.port p).resume = false) ∧ 0 < (l.lseq + 4096 - s.rxExp p) % 4096 ∧ (l.lseq + 4096 - s.rxExp p) % 4096
    < 2048 ∧ (s.port p).nak = none) ∧ (∃ (s : State) (p n m : Nat) (w : LinkWord) (l : LinkFlit), Word1 s p ∧ n + m ≤ 16 ∧ linkFlitOf w =
    l ∧ l.flit.hdrErr ≠ 2 ∧ l.flit.par = 0 ∧ l.ltype ≤ 1 ∧ (l.ltype = 0 ∨ (s.port p).resume = false) ∧ 2048 ≤ (l.lseq + 4096 - s.rxExp p)
    % 4096) ∧ (∃ (s : State) (p n i : Nat) (l : LinkFlit), Linked s p ∧ s.carries p = true ∧ s.unackAt p n = some i ∧ (s.port p).retry[i]?
    = some l ∧ (∀ b ∈ (s.port p).back, b.1 = n → b.2 + 2000 ≤ s.time) ∧ (s.port p).streak < 15) ∧ (∃ (s : State) (p n : Nat), Linked s p ∧
    s.carries p = true ∧ s.unackAt p n = none) ∧ (∃ (s : State) (p : Nat) (l : LinkFlit) (r : List LinkFlit), Linked s p ∧ s.carries p =
    true ∧ (s.port p).retry = l :: r ∧ max (s.port p).advance ((s.port p).back.head?.elim 0 (·.2)) + 2000 ≤ s.time ∧ (s.port p).streak <
    15) ∧ (∃ (s : State) (p : Nat), Linked s p ∧ s.lstat p = 3 ∧ (s.port p).retry ≠ [] ∧ max (s.port p).advance ((s.port
    p).back.head?.elim 0 (·.2)) + 2000 ≤ s.time ∧ 15 ≤ (s.port p).streak) ∧ (∃ (s : State) (p c k : Nat) (f : Flit) (rest : List Flit),
    Linked s p ∧ c < 32 ∧ k = 32 * p + c ∧ s.flag (chanReg k 0) 0 = true ∧ tget [] s.txq k = f :: rest ∧ f.epoch = s.pipeEpoch (s.rf
    (chanReg k 0) 2 6) ∧ s.lstat p = 3 ∧ k ∉ s.link.closed ∧ (s.port p).retry.length < 512 ∧ (s.port p).resume = false ∧ s.rf (chanReg k
    0x1C) 16 5 ≠ 0) ∧ (∃ (s : State) (p c k : Nat) (f : Flit) (rest : List Flit), Form s ∧ p < 8 ∧ c < 32 ∧ k = 32 * p + c ∧ s.flag
    (chanReg k 0) 0 = true ∧ tget [] s.txq k = f :: rest ∧ f.epoch ≠ s.pipeEpoch (s.rf (chanReg k 0) 2 6)) ∧ (∃ (s : State) (p c k l :
    Nat) (f g : Flit) (rest : List Flit), Linked s p ∧ c < 32 ∧ k = 32 * p + c ∧ s.carries p = true ∧ (s.port p).ctl = [] ∧ (s.port
    p).resume = false ∧ (s.port p).retry.length < 512 ∧ tget [] s.link.rx k = f :: rest ∧ f.entered < s.ck ∧ tget 0 s.link.gone k ≠ s.ck +
    1 ∧ s.flag (chanReg k 4) 0 = true ∧ s.chanFree k ≠ 0 ∧ (if s.ck % 64 < 32 then s.flag (chanReg k 0xC) (s.ck % 64) else s.flag (chanReg
    k 0x10) (s.ck % 64 - 32)) = true ∧ g =
    { f with dst := s.rf (chanReg k 4) 7 9, src := linkStop p, rsv := true, vc := false, typ := 0, dstQ := s.rf (chanReg k 4) 16 6, epoch := s.pipeEpoch (s.rf (chanReg k 4) 1 6), flow := s.rf (chanReg k 8) 0 13, hdrErr := 0, par := 0, entered := s.ck }
    ∧ g.dst ≤ 447 ∧ g.dst ≠ linkStop p ∧ l = linkTo (linkStop p) g.dst ∧ s.flag (trcReg (dieOf (linkStop p)) 0) 0 = false ∧ (∀ x ∈
    s.mesh.flying, ¬ (x.stop = linkStop p ∧ x.link = l ∧ x.enter = s.ck))) :=
  ⟨⟨lkS (3) { wire := [lwd 0 0] } [] {}, 2, 12, 5, [], ⟨form_of _ (by decide +kernel), by decide +kernel, by decide +kernel⟩,
  by decide +kernel⟩, ⟨lkS (3) {} [(ck2 4, 1)] {}, 2, 5, 0, lwd 0 0, linkFlitOf (lwd 0 0), ⟨⟨form_of _ (by decide +kernel),
  by decide +kernel, by decide +kernel⟩, by decide +kernel, by decide +kernel, by decide +kernel⟩, by decide +kernel⟩,
  ⟨lkS (3) { resume := true } [] {}, 2, 5, 3, 7, lwd 0 1 (some (.resume 7)), linkFlitOf (lwd 0 1 (some (.resume 7))),
  ⟨⟨form_of _ (by decide +kernel), by decide +kernel, by decide +kernel⟩, by decide +kernel, by decide +kernel, by decide +kernel⟩,
  by decide +kernel⟩, ⟨lkS (3) {} [(ck2 4, 1)] {}, 2, 12, 4, lwd 9 0, linkFlitOf (lwd 9 0), ⟨⟨form_of _ (by decide +kernel),
  by decide +kernel, by decide +kernel⟩, by decide +kernel, by decide +kernel, by decide +kernel⟩, by decide +kernel⟩,
  ⟨lkS (3) {} [(ck2 4, 1)] {}, 2, 5, 0, lwd 4095 1, linkFlitOf (lwd 4095 1), ⟨⟨form_of _ (by decide +kernel), by decide +kernel,
  by decide +kernel⟩, by decide +kernel, by decide +kernel, by decide +kernel⟩, by decide +kernel⟩,
  ⟨lkS (3) { retry := [lfl 0 0, lfl 1 0] } [(rihReg 2 4, 2)] {}, 2, 1, 1, lfl 1 0, ⟨form_of _ (by decide +kernel), by decide +kernel,
  by decide +kernel⟩, by decide +kernel⟩, ⟨lkS (3) { retry := [lfl 0 0, lfl 1 0] } [(rihReg 2 4, 2)] {}, 2, 2,
  ⟨form_of _ (by decide +kernel), by decide +kernel, by decide +kernel⟩, by decide +kernel⟩,
  ⟨lkS (3) { retry := [lfl 0 0, lfl 1 0] } [(rihReg 2 4, 2)] { time := 3000 }, 2, lfl 0 0, [lfl 1 0], ⟨form_of _ (by decide +kernel),
  by decide +kernel, by decide +kernel⟩, by decide +kernel⟩, ⟨lkS (3) { retry := [lfl 0 0, lfl 1 0], streak := 15 } [(rihReg 2 4,
  2)] { time := 3000 }, 2, ⟨form_of _ (by decide +kernel), by decide +kernel, by decide +kernel⟩, by decide +kernel⟩, ⟨lkS (3) {} [(ck2 0,
  0x000B0005), (ck2 0x1C, 0x50000)] { txq := [(67, [dflit])] }, 2, 3, 67, dflit, [], ⟨form_of _ (by decide +kernel), by decide +kernel,
  by decide +kernel⟩, by decide +kernel⟩, ⟨lkS (3) {} [(ck2 0, 0x000B0005), (ck2 0x1C,
  0x50000)] { txq := [(67, [{ dflit with epoch := 4 }])] }, 2, 3, 67, { dflit with epoch := 4 }, [], form_of _ (by decide +kernel),
  by decide +kernel⟩, ⟨lkS (3) {} [(ck2 4, 0x00030001 + 35 * 128), (ck2 8, 9), (ck2 0xC, 0xFFFFFFFF), (ck2 0x14, 0x00080009),
  (reg 422 0xF100, 0x8009)] { ck := 5, link := { rx := [(67, [dflit])] } }, 2, 3, 67, linkTo (linkStop 2) 35, dflit,
  { dflit with dst := 35, src := linkStop 2, rsv := true, dstQ := 3, flow := 9, entered := 5 }, [], ⟨form_of _ (by decide +kernel),
  by decide +kernel, by decide +kernel⟩, by decide +kernel⟩⟩

theorem test_witness_JoinedSystem :
    (∃ (s : State) (k : Nat) (c : Cmd) (p : Nat), Linked s p ∧ Begins s k 8 c ∧ s.inRun 7 = true ∧ s.gov.join = none ∧ c.arg 0x30 9 1 = 0
    ∧ s.upPorts = [] ∧ c.arg 0x30 p 1 = 1) ∧ (∃ (s : State) (k : Nat) (c : Cmd), Form s ∧ Begins s k 8 c ∧ s.gov.join = none ∧ c.arg 0x30
    9 1 = 0 ∧ s.upPorts ≠ [] ∧ (c.arg 0x30 0 8 = 0 ∨ s.inRun 7 = true) ∧ c.digest.toNat ≠ s.rdWide 0x00508020 8) ∧ (∃ (s : State) (k :
    Nat) (c : Cmd), Form s ∧ twf {} s.link.ports = true ∧ Begins s k 8 c ∧ s.gov.join = none ∧ c.arg 0x30 9 1 = 1 ∧ (c.arg 0x30 0 8 = 0 ∨
    s.inRun 7 = true)) ∧ (∃ (s : State) (k : Nat) (c : Cmd), Form s ∧ twf {} s.link.ports = true ∧ Begins s k 8 c ∧ s.gov.join = none ∧
    c.arg 0x30 9 1 = 1 ∧ (c.arg 0x30 0 8 = 0 ∨ s.inRun 7 = true)) ∧ (∃ (s : State) (j : JoinRun), s.gov.join = some j ∧ j.start +
    200000000 ≤ s.time) ∧ (∃ (s : State) (p : Nat) (o : JoinInfo) (stamps : List (Int × Int × Int × Int)) (x : Int × Int × Int × Int) (off
    : Int), Linked s p ∧ (s.lstat p = 2 ∨ s.lstat p = 4) ∧ (s.port p).want = true ∧ o.devId < 16 ∧ stamps.length = 4 ∧ stamps[3]? = some x
    ∧ off = s.timeOffset p x ∧ joinCheck (s.joinInfo p) o off = none ∧ off.natAbs ≤ 1000 ∧ (s.port p).ctl = [] ∧ s.gov.join = none) ∧ (∃
    (s : State) (p r : Nat) (o : JoinInfo) (stamps : List (Int × Int × Int × Int)) (x : Int × Int × Int × Int), Linked s p ∧ (s.lstat p =
    2 ∨ s.lstat p = 4) ∧ (s.port p).want = true ∧ o.devId < 16 ∧ stamps.length = 4 ∧ stamps[3]? = some x ∧ joinCheck (s.joinInfo p) o
    (s.timeOffset p x) = some r ∧ r < 7 ∧ s.gov.join = none) ∧ (∃ (s : State) (p r : Nat) (o : JoinInfo) (stamps : List (Int × Int × Int ×
    Int)) (x : Int × Int × Int × Int), Linked s p ∧ (s.lstat p = 2 ∨ s.lstat p = 4) ∧ (s.port p).want = true ∧ o.devId < 16 ∧
    stamps.length = 4 ∧ stamps[3]? = some x ∧ joinCheck (s.joinInfo p) o (s.timeOffset p x) = some r ∧ r < 7 ∧ s.gov.join = none) ∧ (∃ (s
    : State) (p o : Nat), (s.isLost o = true ∨ o = s.devId)) ∧ (∃ (s : State) (p o : Nat), (s.isLost o = true ∨ o = s.devId)) ∧ (∃ (s :
    State) (p o : Nat), Linked s p ∧ s.carries p = true ∧ o < 16 ∧ o ≠ s.devId ∧ s.isLost o = false ∧ s.gov.join = none ∧ s.loadedPipes =
    [] ∧ twf none s.link.origins = true) ∧ (∃ (s : State) (p o : Nat), Linked s p ∧ s.carries p = true ∧ o < 16 ∧ o ≠ s.devId ∧ s.isLost o
    = false ∧ s.gov.join = none ∧ s.loadedPipes = [] ∧ twf none s.link.origins = true) ∧ (∃ (s : State) (d : Nat) (o : Origin), Form s ∧
    twf {} s.link.ports = true ∧ twf none s.link.origins = true ∧ s.origin d = some o ∧ d < 16 ∧ d ≠ s.devId ∧ s.isLost d = false ∧ o.due
    ≤ s.time ∧ s.gov.join = none ∧ s.loadedPipes = []) ∧ (∃ (s : State), Form s ∧ s.boot.started = true ∧ BitVec.ofNat 32 (s.time /
    100000) ≠ s.rd 0x00508010 ∧ s.upPorts = []) ∧ (∃ (s : State) (p : Nat), Linked s p ∧ s.boot.started = true ∧ BitVec.ofNat 32 (s.time /
    100000) ≠ s.rd 0x00508010 ∧ s.upPorts = [p] ∧ (s.port p).ctl = [] ∧ (s.port p).resume = false ∧ (s.port p).retry.length < 512) ∧ (∃ (s
    : State) (t1 t2 t3 t4 off : Int), Form s ∧ s.boot.started = true ∧ BitVec.ofNat 32 (s.time / 100000) ≠ s.rd 0x00508010 ∧ s.upPorts =
    [] ∧ s.leaderOf ≠ s.devId ∧ off = (2 * ((t2 - t1) - (t4 - t3)) - (BitVec.ofNat 16 (s.rf (rihReg 0 0x20) 0 16)).toInt) / 4) ∧ (∃ (s :
    State) (t1 t2 t3 t4 : Int), Form s ∧ s.boot.started = true ∧ BitVec.ofNat 32 (s.time / 100000) ≠ s.rd 0x00508010 ∧ s.upPorts = [] ∧
    s.leaderOf = s.devId ∧ s.flag 0x0000000C 0 = true) ∧ (∃ (s : State) (p d : Nat) (ser : W64) (hb hops par : Nat), Form s ∧ s.upPorts =
    [p] ∧ d < 16 ∧ d ≠ s.devId ∧ s.isLost d = false ∧ (∀ o, s.origin d = some o → o.hb < hb ∧ s.time < hb * 100000 + 30000 + 2000 *
    o.hops)) ∧ (∃ (s : State) (p d : Nat) (ser : W64) (hb hops par : Nat), Form s ∧ s.upPorts = [p] ∧ d < 16 ∧ d ≠ s.devId ∧ s.isLost d =
    false ∧ (∀ o, s.origin d = some o → o.hb < hb ∧ s.time < hb * 100000 + 30000 + 2000 * o.hops)) :=
  ⟨⟨lkS (2) {} [] { boot := { started := true }, host := { cmds := [jc (77 + 4 * 2 ^ 256)] } }, 0, jc (77 + 4 * 2 ^ 256), 2,
  ⟨form_of _ (by decide +kernel), by decide +kernel, by decide +kernel⟩, ⟨by decide +kernel, by decide +kernel, by decide +kernel,
  by decide +kernel⟩, by decide +kernel⟩, ⟨lkS (3) {} [] { boot := { started := true }, host := { cmds := [jc (77 + 4 * 2 ^ 256)] } }, 0,
  jc (77 + 4 * 2 ^ 256), form_of _ (by decide +kernel), ⟨by decide +kernel, by decide +kernel, by decide +kernel, by decide +kernel⟩,
  by decide +kernel⟩, ⟨lkS (3) {} [(rihReg 3 0, 2)] { boot := { started := true }, host := { cmds := [jc (512 * 2 ^ 256)] } }, 0,
  jc (512 * 2 ^ 256), form_of _ (by decide +kernel), by decide +kernel, ⟨by decide +kernel, by decide +kernel, by decide +kernel,
  by decide +kernel⟩, by decide +kernel⟩, ⟨lkS (3) {} [(rihReg 3 0,
  1)] { boot := { started := true }, host := { cmds := [jc (512 * 2 ^ 256)] } }, 0, jc (512 * 2 ^ 256), form_of _ (by decide +kernel),
  by decide +kernel, ⟨by decide +kernel, by decide +kernel, by decide +kernel, by decide +kernel⟩, by decide +kernel⟩,
  ⟨lkS (2) {} [] { time := 200000001, gov := { join := some { cmd := jc 0, ports := [2], digest := 0, stepOk := false, start := 1 } } },
  { cmd := jc 0, ports := [2], digest := 0, stepOk := false, start := 1 }, by decide +kernel⟩, ⟨lkS (2) { want := true } [] {}, 2, joi,
  [(0, 0, 0, 0), (0, 0, 0, 0), (0, 0, 0, 0), (100, 150, 160, 190)], (100, 150, 160, 190),
  (lkS (2) { want := true } [] {}).timeOffset 2 (100, 150, 160, 190), ⟨form_of _ (by decide +kernel), by decide +kernel,
  by decide +kernel⟩, by decide +kernel, by decide +kernel, by decide +kernel, by decide +kernel, by decide +kernel, by decide +kernel,
  by unfold joinCheck; rw [if_neg (fun h => h rfl)]; decide +kernel, by decide +kernel⟩, ⟨lkS (2) { want := true } [] {}, 2, 3,
  { joi with digest := 4 }, [(0, 0, 0, 0), (0, 0, 0, 0), (0, 0, 0, 0), (100, 150, 160, 190)], (100, 150, 160, 190),
  ⟨form_of _ (by decide +kernel), by decide +kernel, by decide +kernel⟩, by decide +kernel, by decide +kernel, by decide +kernel,
  by decide +kernel, by decide +kernel, by unfold joinCheck; rw [if_neg (fun h => h rfl)]; decide +kernel, by decide +kernel⟩,
  ⟨lkS (2) { want := true } [] {}, 2, 6, joi, [(0, 0, 0, 0), (0, 0, 0, 0), (0, 0, 0, 0), (2000, 999, 3000, 4001)], (2000, 999, 3000,
  4001), ⟨form_of _ (by decide +kernel), by decide +kernel, by decide +kernel⟩, by decide +kernel, by decide +kernel, by decide +kernel,
  by decide +kernel, by decide +kernel, by unfold joinCheck; rw [if_neg (fun h => h rfl)]; decide +kernel, by decide +kernel⟩,
  ⟨lkS (0x503) { retry := [lfl 0 0, lfl 1 0] } [(0x00508004, 0x00200000)] {}, 2, 5, by decide +kernel⟩, ⟨lkS (0x503) {} [] {}, 2, 0,
  by decide +kernel⟩, ⟨lkS (0x503) { retry := [lfl 0 0, lfl 1 0], met := true } [(0x00508004,
  0x20)] { link := { origins := [(5, some org)] } }, 2, 5, ⟨form_of _ (by decide +kernel), by decide +kernel, by decide +kernel⟩,
  by decide +kernel⟩, ⟨lkS (0x503) { retry := [lfl 0 0, lfl 1 0] } [(0x00508004, 0x20), (rihReg 3 0,
  0x603)] { link := { origins := [(5, some org)] } }, 2, 5, ⟨form_of _ (by decide +kernel), by decide +kernel, by decide +kernel⟩,
  by decide +kernel⟩, ⟨lkS (0x503) { retry := [lfl 0 0, lfl 1 0], met := true } [(0x00508004, 0x20), (rihReg 4 0,
  0x603)] { time := 1000000, link := { origins := [(5, some org)] } }, 5, org, form_of _ (by decide +kernel), by decide +kernel⟩,
  ⟨{ boot := { started := true }, time := 700000 }, form_of _ (by decide +kernel), by decide +kernel⟩,
  ⟨lkS (0x503) {} [] { boot := { started := true }, time := 700000 }, 2, ⟨form_of _ (by decide +kernel), by decide +kernel,
  by decide +kernel⟩, by decide +kernel⟩, ⟨mk [(0x00508000, 3), (0x00508004, 2), (rihReg 0 0x20,
  0xFFFC)] { boot := { started := true }, time := 700000 }, 100, 150, 160, 190,
  (2 * ((150 - 100) - (190 - 160)) - (BitVec.ofNat 16 ((mk [(0x00508000, 3), (0x00508004, 2), (rihReg 0 0x20,
  0xFFFC)]).rf (rihReg 0 0x20) 0 16)).toInt) / 4, form_of _ (by decide +kernel), by decide +kernel⟩, ⟨mk [(0xC,
  1)] { boot := { started := true }, time := 700000 }, 100, 150, 160, 190, form_of _ (by decide +kernel), by decide +kernel⟩,
  ⟨lkS (0x503) {} [] { time := 700000 }, 2, 6, 77, 7, 1, 0, form_of _ (by decide +kernel), by decide +kernel⟩,
  ⟨lkS (0x503) {} [] { time := 700000, link := { origins := [(6, some org)] } }, 2, 6, 77, 7, 1, 0, form_of _ (by decide +kernel),
  by decide +kernel⟩⟩

theorem test_witness_DomainsStopAndExit :
    (∃ (s : State) (d : Nat), Dom s d ∧ s.phase d = 0 ∧ s.wantedNow d = false ∧ d ∉ s.pwr.stuck ∧ s.refusers d = []) ∧ (∃ (s : State) (d :
    Nat), Dom s d ∧ s.phase d = 0 ∧ s.wantedNow d = false ∧ d ∉ s.pwr.stuck ∧ s.refusers d = []) ∧ (∃ (s : State) (d r : Nat) (rs : List
    Nat), Dom s d ∧ s.phase d = 0 ∧ s.wantedNow d = false ∧ d ∉ s.pwr.stuck ∧ d ∉ s.pwr.counted ∧ s.refusers d = r :: rs) ∧ (∃ (s : State)
    (d r : Nat) (rs : List Nat), Dom s d ∧ s.phase d = 0 ∧ s.wantedNow d = false ∧ d ∉ s.pwr.stuck ∧ d ∉ s.pwr.counted ∧ s.refusers d = r
    :: rs) ∧ (∃ (s : State) (d : Nat), Dom s d ∧ s.phase d = 1 ∧ s.step6 d = 1 ∧ s.quiet d = true ∧ d ∉ s.pwr.woken) ∧ (∃ (s : State) (d :
    Nat), Dom s d ∧ s.phase d = 1 ∧ s.step6 d = 1 ∧ s.quiet d = true ∧ d ∈ s.pwr.woken ∧ tget [] s.pwr.held d = []) ∧ (∃ (s : State) (d :
    Nat), Dom s d ∧ s.phase d = 1 ∧ s.step6 d = 1 ∧ s.quiet d = false ∧ tget 0 s.pwr.entryAt d + 100000 ≤ s.time ∧ tget [] s.pwr.held d =
    []) ∧ (∃ (s : State) (d : Nat), Dom s d ∧ s.phase d = 1 ∧ s.step6 d = 2 ∧ d ∉ s.pwr.woken) ∧ (∃ (s : State) (d : Nat), Dom s d ∧
    s.phase d = 1 ∧ s.step6 d = 2 ∧ d ∉ s.pwr.woken) ∧ (∃ (s : State) (d : Nat), Dom s d ∧ s.phase d = 1 ∧ (s.step6 d = 4 ∨ s.step6 d = 5)
    ∧ d ∉ s.pwr.woken) ∧ (∃ (s : State) (d : Nat), Dom s d ∧ s.phase d = 1 ∧ (s.step6 d = 4 ∨ s.step6 d = 5) ∧ d ∉ s.pwr.woken) ∧ (∃ (s :
    State) (d : Nat), Dom s d ∧ s.phase d = 1 ∧ s.step6 d = 3 ∧ d ∉ s.pwr.woken) ∧ (∃ (s : State) (d : Nat), Dom s d ∧ s.phase d = 1 ∧
    s.step6 d = 3 ∧ d ∉ s.pwr.woken) ∧ (∃ (s : State) (d : Nat), Dom s d ∧ s.phase d = 1 ∧ 2 ≤ s.step6 d ∧ s.step6 d ≤ 5 ∧ d ∈ s.pwr.woken
    ∧ d ≠ 9 ∧ tget [] s.pwr.held d = []) ∧ (∃ (s : State) (d : Nat), Dom s d ∧ s.phase d = 1 ∧ 2 ≤ s.step6 d ∧ s.step6 d ≤ 5 ∧ d ∈
    s.pwr.woken ∧ d ≠ 9 ∧ tget [] s.pwr.held d = []) ∧ (∃ (s : State) (d : Nat), Dom s d ∧ s.phase d = 1 ∧ s.step6 d = 6 ∧ s.loadedPipes =
    []) ∧ (∃ (s : State) (d : Nat), Dom s d ∧ s.phase d = 1 ∧ s.step6 d = 6 ∧ s.loadedPipes = []) ∧ (∃ (s : State) (d : Nat), Dom s d ∧
    s.phase d = 1 ∧ s.step6 d = 6 ∧ s.loadedPipes = []) ∧ (∃ (s : State) (d : Nat), Dom s d ∧ s.phase d = 1 ∧ s.step6 d = 6 ∧
    s.loadedPipes = []) ∧ (∃ (s : State) (d : Nat), Dom s d ∧ s.phase d = 2 ∧ s.called d = true ∧ s.parentsRun d = true ∧ s.clockGone 3 =
    false) ∧ (∃ (s : State) (d : Nat), s.phase d = 2 ∧ s.clockGone 3 = true) ∧ (∃ (s : State) (d : Nat), Dom s d ∧ SaveArea s d ∧ s.phase
    d = 3 ∧ d ≠ 8 ∧ (d = 9 → s.boot.defRhz = none) ∧ tget [] s.pwr.held d = []) ∧ (∃ (s : State) (d : Nat), Dom s d ∧ SaveArea s d ∧
    s.phase d = 3 ∧ d ≠ 8 ∧ (d = 9 → s.boot.defRhz = none) ∧ tget [] s.pwr.held d = []) ∧ (∃ (s : State) (d : Nat), Dom s d ∧ SaveArea s d
    ∧ s.phase d = 3 ∧ d ≠ 8 ∧ (d = 9 → s.boot.defRhz = none) ∧ tget [] s.pwr.held d = []) ∧ (∃ (s : State), Form s ∧ SaveArea s 8 ∧
    s.phase 8 = 3 ∧ tget [] s.pwr.held 8 = []) ∧ (∃ (s : State) (d : Nat), Dom s d ∧ (s.phase d = 0 ∨ s.phase d = 1) ∧ s.loadedPipes = []
    ∧ s.flag 0x00330104 0 = false) ∧ (∃ (s : State) (d : Nat), Dom s d ∧ (s.phase d = 0 ∨ s.phase d = 1) ∧ s.loadedPipes = [] ∧ s.flag
    0x00330104 0 = false) ∧ (∃ (s : State) (d : Nat), Dom s d ∧ (s.phase d = 0 ∨ s.phase d = 1) ∧ s.loadedPipes = [] ∧ s.flag 0x00330104 0
    = false) ∧ (∃ (s : State) (d : Nat), Dom s d ∧ (s.phase d = 0 ∨ s.phase d = 1) ∧ s.loadedPipes = [] ∧ s.flag 0x00330104 0 = false) ∧
    (∃ (s : State) (d : Nat), Dom s d ∧ s.regThere (domReg d + 0x1C) = true ∧ s.answers (addrDomain (domReg d + 0x1C)) = true ∧ s.phase d
    = 4 ∧ s.wantedNow d = true ∧ s.parentsRun d = true ∧ s.clockGone 3 = false) ∧ (∃ (s : State) (d : Nat), Dom s d ∧ s.regThere (domReg d
    + 0x1C) = true ∧ s.answers (addrDomain (domReg d + 0x1C)) = true ∧ (s.phase d ≠ 4 ∨ s.wantedNow d = false)) ∧ (∃ (s : State) (d :
    Nat), Dom s d ∧ s.regThere (domReg d + 0x1C) = true ∧ s.answers (addrDomain (domReg d + 0x1C)) = true ∧ (s.phase d ≠ 4 ∨ s.wantedNow d
    = false)) ∧ (∃ (s : State) (d : Nat), Dom s d ∧ s.regThere (domReg d + 8) = true ∧ s.answers (addrDomain (domReg d + 8)) = true ∧
    s.flag (domReg d) 7 = true) ∧ (∃ (s : State) (d : Nat), Dom s d ∧ s.regThere (domReg d + 8) = true ∧ s.answers (addrDomain (domReg d +
    8)) = true ∧ s.flag (domReg d) 7 = true) ∧ (∃ (s : State) (d : Nat), Dom s d ∧ s.regThere (domReg d + 8) = true ∧ s.answers
    (addrDomain (domReg d + 8)) = true ∧ s.flag (domReg d) 7 = false) :=
  ⟨⟨dmS 7 (0) {} [] {}, 7, ⟨form_of _ (by decide +kernel), by decide +kernel, by decide +kernel⟩, by decide +kernel⟩,
  ⟨dmS 9 (0) { entryAt := [(9, 4)], counted := [9] } [] {}, 9, ⟨form_of _ (by decide +kernel), by decide +kernel, by decide +kernel⟩,
  by decide +kernel⟩, ⟨dmS 7 (0) {} [(rihReg 0 0, 3)] {}, 7, 4, [], ⟨form_of _ (by decide +kernel), by decide +kernel, by decide +kernel⟩,
  by decide +kernel⟩, ⟨dmS 7 (0) {} [(domReg 7 + 8, 1), (rihReg 0 0, 3)] {}, 7, 0, [4], ⟨form_of _ (by decide +kernel), by decide +kernel,
  by decide +kernel⟩, by decide +kernel⟩, ⟨dmS 7 (1 + 8) {} [] {}, 7, ⟨form_of _ (by decide +kernel), by decide +kernel,
  by decide +kernel⟩, by decide +kernel⟩, ⟨dmS 7 (1 + 8) { woken := [7] } [] {}, 7, ⟨form_of _ (by decide +kernel), by decide +kernel,
  by decide +kernel⟩, by decide +kernel⟩, ⟨dmS 1 (1 + 8) {} [] { time := 100000, chain := [{ stop := 33, msg := chm 63 0 0 1 }] }, 1,
  ⟨form_of _ (by decide +kernel), by decide +kernel, by decide +kernel⟩, by decide +kernel⟩,
  ⟨dmS 7 (1 + 16) { saved := [(9, [(0x00600100, 1)])] } [(0x00500100, 9), (0x00600100, 2)] {}, 7, ⟨form_of _ (by decide +kernel),
  by decide +kernel, by decide +kernel⟩, by decide +kernel⟩, ⟨dmS 5 (1 + 16) {} [(camReg 0 0, 1), (lnkReg 3 0, 1)] {}, 5,
  ⟨form_of _ (by decide +kernel), by decide +kernel, by decide +kernel⟩, by decide +kernel⟩, ⟨dmS 7 (1 + 32) {} [] {}, 7,
  ⟨form_of _ (by decide +kernel), by decide +kernel, by decide +kernel⟩, by decide +kernel⟩, ⟨dmS 7 (1 + 40) {} [] {}, 7,
  ⟨form_of _ (by decide +kernel), by decide +kernel, by decide +kernel⟩, by decide +kernel⟩, ⟨dmS 7 (1 + 24) {} [] {}, 7,
  ⟨form_of _ (by decide +kernel), by decide +kernel, by decide +kernel⟩, by decide +kernel⟩, ⟨dmS 9 (1 + 24) {} [] {}, 9,
  ⟨form_of _ (by decide +kernel), by decide +kernel, by decide +kernel⟩, by decide +kernel⟩, ⟨dmS 7 (1 + 16) { woken := [7] } [] {}, 7,
  ⟨form_of _ (by decide +kernel), by decide +kernel, by decide +kernel⟩, by decide +kernel⟩, ⟨dmS 7 (1 + 40) { woken := [7] } [] {}, 7,
  ⟨form_of _ (by decide +kernel), by decide +kernel, by decide +kernel⟩, by decide +kernel⟩,
  ⟨dmS 3 (1 + 48) {} [] { hbm := { bytes := [(5, 1), (0x600000005, 2)] } }, 3, ⟨form_of _ (by decide +kernel), by decide +kernel,
  by decide +kernel⟩, by decide +kernel⟩, ⟨dmS 1 (1 + 48) {} [] { sched := [(33, { cyc := 3 }), (48, { cyc := 4 })] }, 1,
  ⟨form_of _ (by decide +kernel), by decide +kernel, by decide +kernel⟩, by decide +kernel⟩, ⟨dmS 7 (1 + 48) {} [] {}, 7,
  ⟨form_of _ (by decide +kernel), by decide +kernel, by decide +kernel⟩, by decide +kernel⟩, ⟨dmS 9 (1 + 48) {} [] {}, 9,
  ⟨form_of _ (by decide +kernel), by decide +kernel, by decide +kernel⟩, by decide +kernel⟩,
  ⟨dmS 7 (2) { stopAt := [(7, 5)] } [(domReg 7 + 4, 2)] { time := 100 }, 7, ⟨form_of _ (by decide +kernel), by decide +kernel,
  by decide +kernel⟩, by decide +kernel⟩, ⟨dmS 7 (2) { gone := [3] } [(domReg 7 + 4, 2)] {}, 7, by decide +kernel⟩,
  ⟨dmS 5 (3) { saved := [(5, [(0x00400000, 0x12345)])] } [] {}, 5, ⟨form_of _ (by decide +kernel), by decide +kernel, by decide +kernel⟩,
  ⟨by decide +kernel, by decide +kernel, by decide +kernel⟩, by decide +kernel⟩, ⟨dmS 9 (3) {} [] {}, 9, ⟨form_of _ (by decide +kernel),
  by decide +kernel, by decide +kernel⟩, ⟨by decide +kernel, by decide +kernel, by decide +kernel⟩, by decide +kernel⟩,
  ⟨dmS 3 (3) {} [(domReg 4, 2), (0x0010E84C, 1)] {}, 3, ⟨form_of _ (by decide +kernel), by decide +kernel, by decide +kernel⟩,
  ⟨by decide +kernel, by decide +kernel, by decide +kernel⟩, by decide +kernel⟩,
  ⟨dmS 8 (3) { wakeL := true, vector := true, l2 := true, saved := [(8, [(0x0010E84C, 1), (0x0010E85C, 1)])] } [] {},
  form_of _ (by decide +kernel), ⟨by decide +kernel, by decide +kernel, by decide +kernel⟩, by decide +kernel⟩, ⟨dmS 7 (0) {} [] {}, 7,
  ⟨form_of _ (by decide +kernel), by decide +kernel, by decide +kernel⟩, by decide +kernel⟩, ⟨dmS 1 (1 + 16) {} [] {}, 1,
  ⟨form_of _ (by decide +kernel), by decide +kernel, by decide +kernel⟩, by decide +kernel⟩, ⟨dmS 9 (0) {} [] {}, 9,
  ⟨form_of _ (by decide +kernel), by decide +kernel, by decide +kernel⟩, by decide +kernel⟩, ⟨dmS 8 (0) {} [] {}, 8,
  ⟨form_of _ (by decide +kernel), by decide +kernel, by decide +kernel⟩, by decide +kernel⟩, ⟨dmS 7 (4) {} [(domReg 7 + 4, 2),
  (domReg 7 + 0x1C, 1)] {}, 7, ⟨form_of _ (by decide +kernel), by decide +kernel, by decide +kernel⟩, by decide +kernel⟩,
  ⟨dmS 7 (4) {} [(domReg 7 + 0x1C, 1)] {}, 7, ⟨form_of _ (by decide +kernel), by decide +kernel, by decide +kernel⟩, by decide +kernel⟩,
  ⟨dmS 7 (0) {} [(domReg 7 + 4, 2)] {}, 7, ⟨form_of _ (by decide +kernel), by decide +kernel, by decide +kernel⟩, by decide +kernel⟩,
  ⟨dmS 7 (0x80) {} [] {}, 7, ⟨form_of _ (by decide +kernel), by decide +kernel, by decide +kernel⟩, by decide +kernel⟩,
  ⟨dmS 9 (0x80) {} [] { rhz := { pads := [1] } }, 9, ⟨form_of _ (by decide +kernel), by decide +kernel, by decide +kernel⟩,
  by decide +kernel⟩, ⟨dmS 7 (0) {} [] {}, 7, ⟨form_of _ (by decide +kernel), by decide +kernel, by decide +kernel⟩, by decide +kernel⟩⟩

theorem test_witness_WakeSources :
    (∃ (s : State) (a : Nat) (b0 b1 : Byte), Form s ∧ s.pinsHeld = false ∧ s.flag 0x00200444 7 = true ∧ a = s.rf 0x00200444 0 7 ∧ 128 ≤
    b1.toNat ∧ s.flag 0x00200400 31 = true) ∧ (∃ (s : State) (a : Nat) (b0 b1 : Byte), Form s ∧ s.pinsHeld = false ∧ s.flag 0x00200444 7 =
    true ∧ a = s.rf 0x00200444 0 7 ∧ b1.toNat < 128) ∧ (∃ (s : State) (a : Nat) (bs : List Byte), (s.flag 0x00200444 7 = false ∨ a ≠ s.rf
    0x00200444 0 7)) ∧ (∃ (s : State) (a : Nat) (bs : List Byte), (s.flag 0x00200444 7 = false ∨ a ≠ s.rf 0x00200444 0 7)) ∧ (∃ (s :
    State), s.pinsHeld = false ∧ s.flag 0x00200444 7 = true) ∧ (∃ (s : State) (a : Nat), (s.flag 0x00200444 7 = false ∨ a ≠ s.rf
    0x00200444 0 7)) ∧ (∃ (s : State) (pin k e : Nat) (rising : Bool), Form s ∧ s.pinsHeld = false ∧ k < 4 ∧ s.rf (0x00200420 + 4 * k) 0 7
    = pin ∧ e = s.rf (0x00200420 + 4 * k) 7 2 ∧ (e = 2 ∨ (e = 0 ∧ rising = true) ∨ (e = 1 ∧ rising = false)) ∧ s.flag 0x00200404 31 =
    true) ∧ (∃ (s : State) (p : Nat), Form s ∧ p < 8 ∧ s.phase 7 = 2 ∧ s.flag 0x00200408 31 = true) ∧ (∃ (s : State), Form s ∧ s.flag
    0x0020040C 31 = true) ∧ (∃ (s : State), s.flag 0x0020040C 31 = false) ∧ (∃ (s : State), Form s) ∧ (∃ (s : State), Form s ∧ s.pwr.wakeL
    = false ∧ s.pinsHeld = false ∧ s.flag 0x00200410 31 = true) :=
  ⟨⟨dmS 7 (1 + 16) {} [(0x00200444, 0xC2), (0x00200400, 0x80000080)] {}, 0x42, 0x80, 0x80, form_of _ (by decide +kernel),
  by decide +kernel⟩, ⟨dmS 7 (0) {} [(0x00200444, 0xC2), (domReg 7 + 4, 0x3F)] {}, 0x42, 0x80, 0, form_of _ (by decide +kernel),
  by decide +kernel⟩, ⟨dmS 7 (0) {} [] {}, 0x42, [1, 2], by decide +kernel⟩, ⟨dmS 7 (0) {} [(0x00200444, 0xC2)] {}, 0x41, [1, 2],
  by decide +kernel⟩, ⟨dmS 7 (2) {} [(0x00200444, 0xC2)] {}, by decide +kernel⟩, ⟨dmS 7 (2) {} [(0x00200444, 0xC2)] {}, 0x43,
  by decide +kernel⟩, ⟨dmS 7 (2) {} [(0x00200424, 0x100 + 95), (0x00200404, 0x80000080)] {}, 95, 1, 2, false,
  form_of _ (by decide +kernel), by decide +kernel⟩, ⟨dmS 7 (2) {} [(0x00200408, 0x80000080)] {}, 3, form_of _ (by decide +kernel),
  by decide +kernel⟩, ⟨dmS 8 (2) { l2 := true } [(0x0020040C, 0x80000100)] {}, form_of _ (by decide +kernel), by decide +kernel⟩,
  ⟨dmS 7 (2) {} [] {}, by decide +kernel⟩, ⟨dmS 8 (0) {} [(domReg 8 + 4, 0x3F)] {}, form_of _ (by decide +kernel)⟩,
  ⟨dmS 8 (2) { l2 := true } [(0x00200410, 0x80000100)] {}, form_of _ (by decide +kernel), by decide +kernel⟩⟩

theorem test_witness_PointsClocksAndTrips :
    (∃ (s : State) (p : Nat), Form s ∧ s.boot.started = true ∧ p ≤ 3 ∧ p ≤ s.tunable 4 ∧ s.flag 0x00200600 4 = false ∧ p < s.rf 0x00200600
    0 2) ∧ (∃ (s : State) (p : Nat), Form s ∧ s.boot.started = true ∧ p ≤ 3 ∧ p ≤ s.tunable 4 ∧ s.flag 0x00200600 4 = false ∧ s.rf
    0x00200600 0 2 < p) ∧ (∃ (s : State) (p : Nat), s.tunable 4 < p) ∧ (∃ (s : State), Form s ∧ s.flag 0x00200600 4 = true ∧ s.pinsHeld =
    false) ∧ (∃ (s : State), Form s ∧ s.flag 0x00200600 4 = true ∧ s.pwr.opStart + 1000000 ≤ s.time ∧ s.pwr.opPrev < 4) ∧ (∃ (s : State)
    (i m : Nat), s.boot.started = true ∧ i < 448 ∧ 1 ≤ m ∧ m ≤ 16 ∧ s.islandMin i ≤ m) ∧ (∃ (s : State) (i m c : Nat), Form s ∧
    s.boot.started = true ∧ i < 448 ∧ 1 ≤ m ∧ m < s.islandMin i ∧ m ≤ 16 ∧ s.rf 0x00200600 0 2 = c + 1 ∧ c ≤ s.tunable 4 ∧ s.flag
    0x00200600 4 = false) ∧ (∃ (s : State) (i m : Nat), m < s.islandMin i ∧ s.rf 0x00200600 0 2 = 0) ∧ (∃ (s : State) (c : Nat),
    s.clockGone c = true) ∧ (∃ (s : State) (c : Nat), Form s ∧ (c = 0 ∨ c = 4) ∧ s.clockGone c = false) ∧ (∃ (s : State) (c : Nat), Form s
    ∧ (c = 0 ∨ c = 4) ∧ s.clockGone c = false) ∧ (∃ (s : State), Form s ∧ twf {} s.link.ports = true ∧ s.clockGone 1 = false) ∧ (∃ (s :
    State), Form s ∧ s.answers 5 = true ∧ s.clockGone 2 = false) ∧ (∃ (s : State), Form s ∧ s.loadedPipes = [] ∧ s.flag 0x00330104 0 =
    false ∧ s.clockGone 3 = false) ∧ (∃ (s : State) (c : Nat), Form s ∧ c ≤ 4) ∧ (∃ (s : State) (c : Nat), Form s ∧ c ≤ 4) ∧ (∃ (s :
    State) (n : Nat), Form s ∧ n < 4 ∧ (s.phase (1 + n) = 0 ∨ s.phase (1 + n) = 1) ∧ s.loadedPipes = [] ∧ s.flag 0x00330104 0 = false) ∧
    (∃ (s : State) (n : Nat), Form s ∧ n < 4 ∧ (s.phase (1 + n) = 0 ∨ s.phase (1 + n) = 1) ∧ s.loadedPipes = [] ∧ s.flag 0x00330104 0 =
    false) ∧ (∃ (s : State), Form s) :=
  ⟨⟨bt (mk [(0x00200600, 0xA)]), 1, form_of _ (by decide +kernel), by decide +kernel⟩, ⟨bt (mk [(0x00200600, 0x5)]), 2,
  form_of _ (by decide +kernel), by decide +kernel⟩, ⟨bt { host := { tun := [(4, 1)] } }, 2, by decide +kernel⟩, ⟨mk [(0x00200600,
  0x19)] { dbg := { ir := 1 } }, form_of _ (by decide +kernel), by decide +kernel⟩, ⟨mk [(0x00200600,
  0x19)] { time := 1000000, pwr := { opPrev := 1 } }, form_of _ (by decide +kernel), by decide +kernel⟩, ⟨bt {}, 33, 16,
  by decide +kernel⟩, ⟨bt (isl 0xA), 33, 4, 1, form_of _ (by decide +kernel), by decide +kernel⟩, ⟨bt (isl 0), 33, 4, by decide +kernel⟩,
  ⟨{ pwr := { gone := [0] } }, 0, by decide +kernel⟩, ⟨mk [(0x00200800, 0x1F)], 0, form_of _ (by decide +kernel), by decide +kernel⟩,
  ⟨mk [(0x00200800, 0x1F)], 4, form_of _ (by decide +kernel), by decide +kernel⟩, ⟨lkS 3 { retry := [lfl 0 0] } [(0x00200800, 0x1F)],
  form_of _ (by decide +kernel), by decide +kernel⟩, ⟨mk [(0x00200800, 0x1F), (lnkReg 3 0, 1)], form_of _ (by decide +kernel),
  by decide +kernel⟩, ⟨mk [(0x00200800, 0x1F), (domReg 4, 2), (domReg 7, 0x11)], form_of _ (by decide +kernel), by decide +kernel⟩,
  ⟨mk [(0x00200800, 0x10800)] { pwr := { gone := [3, 1] } }, 3, form_of _ (by decide +kernel), by decide +kernel⟩, ⟨mk [(0x00200800,
  0x800)], 4, form_of _ (by decide +kernel), by decide +kernel⟩, ⟨{}, 0, form_of _ (by decide +kernel), by decide +kernel⟩, ⟨{}, 3,
  form_of _ (by decide +kernel), by decide +kernel⟩, ⟨mk [(0x00200914, 0x10)], form_of _ (by decide +kernel)⟩⟩

theorem test_witness_ResetBootAndStaging :
    (∃ (s : State) (straps : Nat), Form s ∧ straps < 16) ∧ (∃ (s : State) (straps : Nat), Form s ∧ straps < 16) ∧ (∃ (s : State) (pins :
    Nat), Form s) ∧ (∃ (s : State) (pins : Nat), Form s) ∧ (∃ (s : State) (straps : Nat), Form s ∧ straps < 16 ∧ s.boot.bank0 = none ∧
    s.boot.bank1 = none) ∧ (∃ (s : State) (straps : Nat) (b : FwBank), Form s ∧ straps < 16 ∧ s.boot.helper = false ∧ s.boot.stageObj =
    none ∧ s.boot.bank0 = some b ∧ s.boot.bank1 = none ∧ objVerify b.obj 1 true 0 = none ∧ b.obj.keyHash = Config.vendorKey 0 ∧ b.obj.sv <
    2 ^ 32) ∧ (∃ (s : State), Form s ∧ s.rf 0x00300000 0 2 = 1 ∧ s.boot.started = false ∧ s.boot.fwRatchet = false ∧ s.boot.defRhz = none
    ∧ s.gov.pipes = []) ∧ (∃ (s : State) (o : SignedObj), Form s ∧ s.flag 0x00300110 0 = false ∧ s.serves 1 = true) ∧ (∃ (s : State) (o :
    SignedObj), Form s ∧ s.flag 0x00300110 0 = false ∧ s.serves 1 = true) ∧ (∃ (s : State) (o : SignedObj) (d : RhzDesign), Form s ∧
    s.flag 0x00300110 0 = false ∧ s.serves 2 = true) ∧ (∃ (s : State) (o : SignedObj) (b : OwnerBody), Form s ∧ s.flag 0x00300110 0 =
    false ∧ s.serves 3 = true) ∧ (∃ (s : State) (n : Nat) (o : SignedObj) (f u : Bool), Form s ∧ s.boot.stageObj = some (n, o) ∧
    s.boot.stageErr ≠ 0 ∧ s.boot.stageErr < 16) ∧ (∃ (s : State) (o : SignedObj) (f u : Bool), Form s ∧ s.boot.stageObj = some (1, o) ∧
    s.boot.stageErr = 0 ∧ s.rf 0x00300000 0 2 = 1 ∧ s.flag 0x00300000 2 = false) ∧ (∃ (s : State) (o : SignedObj) (f u : Bool), Form s ∧
    s.boot.stageObj = some (1, o) ∧ s.boot.stageErr = 0 ∧ s.rf 0x00300000 0 2 = 1 ∧ s.flag 0x00300000 2 = false) ∧ (∃ (s : State) (o :
    SignedObj) (f u : Bool), Form s ∧ s.boot.stageObj = some (1, o) ∧ s.boot.stageErr = 0 ∧ s.rf 0x00300000 0 2 = 1 ∧ s.flag 0x00300000 2
    = false) ∧ (∃ (s : State) (o : SignedObj) (d : RhzDesign), Form s ∧ s.boot.stageObj = some (2, o) ∧ s.boot.stageErr = 0 ∧
    s.boot.stageRhz = some d) ∧ (∃ (s : State) (o : SignedObj) (b : OwnerBody), Form s ∧ s.boot.stageObj = some (3, o) ∧ s.boot.stageErr =
    0 ∧ s.boot.stageOwner = some b ∧ s.boot.slots = [] ∧ b.ownerHash ≠ 0 ∧ b.oseq < 2 ^ 32) :=
  ⟨⟨btS [(0x00508000, 3), (cgwState, 2), (reg 33 4, 7)] { bank0 := none, slots := [] } { chal := 4 }, 0x5, form_of _ (by decide +kernel),
  by decide +kernel⟩, ⟨btS [(0x00300000,
  1)] { bank0 := some { obj := vobj, gen := 3 }, bank1 := some { obj := vobj, gen := 2 }, stageObj := some (1, vobj) }, 0,
  form_of _ (by decide +kernel), by decide +kernel⟩, ⟨btS [], 0x85, form_of _ (by decide +kernel)⟩, ⟨btS [], 0x2004,
  form_of _ (by decide +kernel)⟩, ⟨btS [], 2, form_of _ (by decide +kernel), by decide +kernel⟩,
  ⟨btS [] { bank0 := some { obj := vobj, gen := 3 }, helper := false }, 2, { obj := vobj, gen := 3 }, form_of _ (by decide +kernel),
  by decide +kernel, by decide +kernel, by decide +kernel, rfl, by decide +kernel, by decide +kernel, rfl, by decide +kernel⟩,
  ⟨btS [(0x00300000, 1)] { helper := true }, form_of _ (by decide +kernel), by decide +kernel⟩, ⟨btS [(0x00300108,
  20544)] { started := true }, sobj 1, form_of _ (by decide +kernel), by decide +kernel⟩, ⟨btS [] { started := true }, sobj 1,
  form_of _ (by decide +kernel), by decide +kernel⟩, ⟨btS [] { started := true }, sobj 2, dsg, form_of _ (by decide +kernel),
  by decide +kernel⟩, ⟨btS [] { started := true }, sobj 3, obody, form_of _ (by decide +kernel), by decide +kernel⟩, ⟨btS [(0x00300110,
  1)] { stageObj := some (1, sobj 1), stageErr := 3 }, 1, sobj 1, true, false, form_of _ (by decide +kernel), by decide +kernel⟩,
  ⟨btS [(0x00300110, 1), (0x00300000, 1)] { stageObj := some (1, sobj 1), stageErr := 0 }, sobj 1, true, true,
  form_of _ (by decide +kernel), by decide +kernel⟩, ⟨btS [(0x00300110, 1), (0x00300000,
  1)] { stageObj := some (1, sobj 1), stageErr := 0 }, sobj 1, false, true, form_of _ (by decide +kernel), by decide +kernel⟩,
  ⟨btS [(0x00300110, 1), (0x00300000, 1)] { stageObj := some (1, sobj 1), stageErr := 0 }, sobj 1, true, false,
  form_of _ (by decide +kernel), by decide +kernel⟩, ⟨btS [(0x00300110,
  1)] { stageObj := some (2, sobj 2), stageErr := 0, stageRhz := some dsg }, sobj 2, dsg, form_of _ (by decide +kernel),
  by decide +kernel⟩, ⟨btS [(0x00300110, 1)] { stageObj := some (3, sobj 3), stageErr := 0, stageOwner := some obody }, sobj 3, obody,
  form_of _ (by decide +kernel), by decide +kernel⟩⟩

theorem test_witness_AttestationTokensAndLock :
    (∃ (s : State), Reaches s 0x00300240 ∧ s.flag 0x00300244 0 = false ∧ s.boot.started = true) ∧ (∃ (s : State), Reaches s 0x00300240 ∧
    s.flag 0x00300244 0 = false ∧ s.boot.started = true) ∧ (∃ (s : State), Form s ∧ s.flag 0x00300244 0 = true ∧ s.boot.attBody = none) ∧
    (∃ (s : State) (b body : List Byte), Form s ∧ s.flag 0x00300244 0 = true ∧ s.boot.attBody = some b ∧ s.flag 0x00700008 0 = true ∧
    s.boot.attAt + 10000000 ≤ s.time ∧ body = b.take 0x164 ++ leBytes 0 12 ++ [0xFF] ++ b.drop 0x171) ∧ (∃ (s : State) (b : List Byte),
    s.boot.attBody = some b ∧ s.flag 0x00700008 0 = true ∧ s.time < s.boot.attAt + 10000000) ∧ (∃ (s : State) (b body : List Byte), Form s
    ∧ s.flag 0x00300244 0 = true ∧ s.boot.attBody = some b ∧ s.flag 0x00700008 0 = false ∧ (s.cstate = 2 ∨ s.cstate = 3) ∧ s.cap.ctr < 2 ^
    24 ∧ body = b.take 0x164 ++ (leBytes s.cap.swid.toNat 4 ++ leBytes s.cap.version.toNat 4 ++ leBytes (s.cap.ctr + boolNat s.pinSealed *
    2 ^ 24 + s.cstate * 2 ^ 25) 4 ++ [0]) ++ b.drop 0x171) ∧ (∃ (s : State) (o : SignedObj) (b : TokenBody), Reaches s 0x0033004C ∧ s.flag
    0x00330050 0 = false ∧ s.boot.started = true) ∧ (∃ (s : State) (o : SignedObj) (b : TokenBody), Reaches s 0x0033004C ∧ s.flag
    0x00330050 0 = false ∧ s.boot.started = true) ∧ (∃ (s : State) (o : SignedObj) (b : TokenBody), Reaches s 0x0033004C ∧ s.flag
    0x00330050 0 = false ∧ s.boot.started = true) ∧ (∃ (s : State) (perms : Nat), Form s ∧ s.dbg.tok = some (0, perms) ∧ perms < 4) ∧ (∃
    (s : State) (st perms : Nat), Form s ∧ s.dbg.tok = some (st, perms) ∧ 0 < st ∧ st < 8) ∧ (∃ (s : State), Reaches s 0x0033004C ∧
    s.dbg.tok = none ∧ s.flag 0x00330050 4 = true) ∧ (∃ (s : State) (x : Nat × Nat), Reaches s 0x0033004C ∧ s.dbg.tok = some x ∧ s.flag
    0x00330050 4 = false) :=
  ⟨⟨btS [(0x00300000, 0x11)] { started := true }, ⟨form_of _ (by decide +kernel), by decide +kernel, by decide +kernel⟩,
  by decide +kernel⟩, ⟨btS [] { started := true }, ⟨form_of _ (by decide +kernel), by decide +kernel, by decide +kernel⟩,
  by decide +kernel⟩, ⟨btS [(0x00300244, 1)] { started := true }, form_of _ (by decide +kernel), by decide +kernel⟩,
  ⟨{ btS [(0x00300244, 1), (0x00700008, 1)] { started := true, attBody := some (List.replicate 448 5) } with time := 10000000 },
  List.replicate 448 5, List.replicate 0x164 5 ++ leBytes 0 12 ++ [0xFF] ++ (List.replicate 448 5).drop 0x171,
  form_of _ (by decide +kernel), by decide +kernel⟩,
  ⟨{ btS [(0x00300244, 1), (0x00700008, 1)] { started := true, attBody := some (List.replicate 448 5) } with time := 9999999 },
  List.replicate 448 5, by decide +kernel⟩, ⟨(btS [(0x00300244, 1), (cgwState,
  2)] { started := true, attBody := some (List.replicate 448 5) }), List.replicate 448 5,
  (List.replicate 448 (5 : Byte)).take 0x164 ++ (leBytes (btS [(0x00300244, 1), (cgwState,
  2)] { started := true, attBody := some (List.replicate 448 5) }).cap.swid.toNat 4 ++ leBytes (btS [(0x00300244, 1), (cgwState,
  2)] { started := true, attBody := some (List.replicate 448 5) }).cap.version.toNat 4 ++ leBytes ((btS [(0x00300244, 1), (cgwState,
  2)] { started := true, attBody := some (List.replicate 448 5) }).cap.ctr + boolNat (btS [(0x00300244, 1), (cgwState,
  2)] { started := true, attBody := some (List.replicate 448 5) }).pinSealed * 2 ^ 24 + (btS [(0x00300244, 1), (cgwState,
  2)] { started := true, attBody := some (List.replicate 448 5) }).cstate * 2 ^ 25) 4 ++ [0]) ++ (List.replicate 448 (5 : Byte)).drop 0x171,
  form_of _ (by decide +kernel), by decide +kernel⟩, ⟨btS [(0x00330048, 20544)] { started := true }, sobj 6, tbody,
  ⟨form_of _ (by decide +kernel), by decide +kernel, by decide +kernel⟩, by decide +kernel⟩, ⟨btS [] { started := true }, sobj 6, tbody,
  ⟨form_of _ (by decide +kernel), by decide +kernel, by decide +kernel⟩, by decide +kernel⟩, ⟨btS [(0x00330050, 16)] { started := true },
  sobj 6, tbody, ⟨form_of _ (by decide +kernel), by decide +kernel, by decide +kernel⟩, by decide +kernel⟩, ⟨btS [(0x00330050,
  1)] {} { tok := some (0, 3) }, 3, form_of _ (by decide +kernel), by decide +kernel⟩, ⟨btS [(0x00330050, 1)] {} { tok := some (7, 3) },
  7, 3, form_of _ (by decide +kernel), by decide +kernel⟩, ⟨btS [(0x00330050, 0x70), (0x00300000, 0x41), (reg 33 0xF800, 1),
  (reg 33 0xF840, 9)] {} { hzOld := [(33, 4)] }, ⟨form_of _ (by decide +kernel), by decide +kernel, by decide +kernel⟩,
  by decide +kernel⟩, ⟨btS [(0x00330050, 1)] {} { tok := some (2, 3) }, (2, 3), ⟨form_of _ (by decide +kernel), by decide +kernel,
  by decide +kernel⟩, by decide +kernel⟩⟩

theorem test_witness_SelfTestAndTap :
    (∃ (s : State) (st : Nat), Reaches s 0x00330100 ∧ s.flag 0x00330104 0 = false ∧ s.boot.started = true ∧ s.bistRefusal (s.rf 0x00330100
    0 11) = some st) ∧ (∃ (s : State) (st : Nat), Reaches s 0x00330100 ∧ s.flag 0x00330104 0 = false ∧ s.boot.started = true ∧
    s.bistRefusal (s.rf 0x00330100 0 11) = some st) ∧ (∃ (s : State), Reaches s 0x00330100 ∧ s.flag 0x00330104 0 = false ∧ s.boot.started
    = true ∧ s.bistRefusal (s.rf 0x00330100 0 11) = none ∧ bistDoms (s.rf 0x00330100 0 11) ≠ []) ∧ (∃ (s : State) (n : Nat) (rest : List
    BistStep), Form s ∧ s.dbg.bist = .pc n :: rest ∧ rest ≠ []) ∧ (∃ (s : State) (n : Nat) (rest : List BistStep), Form s ∧ s.dbg.bist =
    .stop n :: rest ∧ rest ≠ [] ∧ n < 448) ∧ (∃ (s : State) (n : Nat) (rest : List BistStep), Form s ∧ s.dbg.bist = .stop n :: rest ∧ rest
    ≠ [] ∧ n < 448) ∧ (∃ (s : State) (n : Nat) (rest : List BistStep), Form s ∧ s.dbg.bist = .stop n :: rest ∧ rest ≠ [] ∧ n < 448) ∧ (∃
    (s : State) (n : Nat), Form s ∧ s.dbg.bist = [.line n]) ∧ (∃ (s : State) (n : Nat), Form s ∧ s.dbg.bist = [.line n]) ∧ (∃ (s : State)
    (n : Nat) (rest : List BistStep), Form s ∧ s.dbg.bist = .pc n :: rest ∧ rest ≠ [] ∧ s.rf 0x00330104 16 16 < 16 ∧ n < 64) ∧ (∃ (s :
    State) (n : Nat) (rest : List BistStep), Form s ∧ s.dbg.bist = .pc n :: rest ∧ rest ≠ [] ∧ s.rf 0x00330104 16 16 < 16 ∧ n < 64) ∧ (∃
    (s : State) (bits : BitVec 325), (s.pinsHeld = false ∨ s.dbg.live = [])) ∧ (∃ (s : State), (s.pinsHeld = false ∨ s.dbg.live = [])) ∧
    (∃ (s : State) (pins : BitVec 325) (bits : Option (BitVec 325)), (s.pinsHeld = false ∨ s.dbg.live = [])) ∧ (∃ (s : State) (pins :
    BitVec 325) (bits : Option (BitVec 325)), (s.pinsHeld = false ∨ s.dbg.live = [])) ∧ (∃ (s : State) (c : Instr) (opc : Nat),
    (s.pinsHeld = false ∨ s.dbg.live = []) ∧ (c, opc) ∈ [(Instr.highz, 4), (.clamp, 5), (.testLogicReset, 1)]) ∧ (∃ (s : State) (opc :
    Nat), (s.pinsHeld = false ∨ s.dbg.live = []) ∧ opc < 256 ∧ opc ∉ [0, 1, 2, 4, 5]) ∧ (∃ (s : State) (n : Nat), Form s ∧ s.pinsHeld =
    true ∧ s.answers 9 = true ∧ n < 96 ∧ s.dbg.live = [(n, 2)] ∧ s.lstate ≠ 4 ∧ s.rhz.overlaps = []) ∧ (∃ (s : State) (n : Nat), Form s ∧
    s.pinsHeld = true ∧ s.answers 9 = true ∧ n < 96 ∧ s.dbg.live = [(n, 2)] ∧ s.lstate ≠ 4 ∧ s.rhz.overlaps = []) :=
  ⟨⟨btS [(0x00330100, 64)] { started := true }, 3, ⟨form_of _ (by decide +kernel), by decide +kernel, by decide +kernel⟩,
  by decide +kernel⟩, ⟨btS [(0x00330100, 8), (domReg 3, 2)] { started := true }, 2, ⟨form_of _ (by decide +kernel), by decide +kernel,
  by decide +kernel⟩, by decide +kernel⟩, ⟨btS [(0x00330100, 8)] { started := true }, ⟨form_of _ (by decide +kernel), by decide +kernel,
  by decide +kernel⟩, by decide +kernel⟩,
  ⟨{ btS [(0x1024, 32)] {} { bist := [.pc 5, .pc 6] } with hbm := { bytes := [(0x500, 1), (0x600, 2)] } }, 5, [.pc 6],
  form_of _ (by decide +kernel), by decide +kernel⟩,
  ⟨{ btS [(0x1024, 32), (reg 33 4, 1)] {} { bist := [.stop 33, .stop 34] } with pmem := [(33 * 4096, 5), (34 * 4096, 5)], at_ := [(33, { held := 1 }), (34, { held := 1 })] },
  33, [.stop 34], form_of _ (by decide +kernel), by decide +kernel⟩,
  ⟨{ btS [(0x1024, 32)] {} { bist := [.stop 32, .stop 34] } with hbm := { bytes := [(0x500, 1)] } }, 32, [.stop 34],
  form_of _ (by decide +kernel), by decide +kernel⟩,
  ⟨{ btS [(0x1024, 32)] {} { bist := [.stop 0, .stop 34] } with hbm := { bytes := [(0x500, 1)] } }, 0, [.stop 34],
  form_of _ (by decide +kernel), by decide +kernel⟩, ⟨btS [(0x1024, 32), (0x00330104, 1)] {} { bist := [.line 5], bistBad := true }, 5,
  form_of _ (by decide +kernel), by decide +kernel⟩, ⟨btS [(0x1024, 32), (0x00330104, 1)] {} { bist := [.line 5] }, 5,
  form_of _ (by decide +kernel), by decide +kernel⟩, ⟨btS [(0x1024, 32), (0x00330104, 0x00030001)] {} { bist := [.pc 5, .pc 6] }, 5,
  [.pc 6], form_of _ (by decide +kernel), by decide +kernel⟩, ⟨btS [(0x1024, 32), (0x00330104,
  0x000F0001)] {} { bist := [.pc 63, .pc 6] }, 63, [.pc 6], form_of _ (by decide +kernel), by decide +kernel⟩, ⟨btS [], 5,
  by decide +kernel⟩, ⟨btS [], by decide +kernel⟩, ⟨btS [], 5, none, by decide +kernel⟩, ⟨btS [], 5, some 6, by decide +kernel⟩, ⟨btS [],
  .clamp, 5, by decide +kernel, by simp⟩, ⟨btS [], 255, by decide +kernel⟩, ⟨btS [] {} { ir := 4, live := [(5, 2)] }, 5,
  form_of _ (by decide +kernel), by decide +kernel⟩, ⟨btS [] {} { ir := 0, live := [(0, 2)] }, 0, form_of _ (by decide +kernel),
  by decide +kernel⟩⟩

theorem test_witness_LoadsAndUpdates :
    (∃ (s : State) (k : Nat) (c : Cmd) (obj : SignedObj) (img : Tjl) (fl : List (List Flip)), Loads s k c 0 obj img ∧ (FirstPass s k
    c).loadCheck (c.arg 0x18 0 32) 0 (c.arg 0x1C 2 1 == 1) obj img = none ∧ (FirstPass s k c).replaced img = [] ∧ obj.ratchet = false ∧ (∀
    e ∈ img.pipes, e.id < 64)) ∧ (∃ (s : State) (k code detail : Nat) (c : Cmd) (obj : SignedObj) (img : Tjl) (ch : Bool) (fl : List (List
    Flip)), Loads s k c 0 obj img ∧ (FirstPass s k c).loadCheck (c.arg 0x18 0 32) 0 (c.arg 0x1C 2 1 == 1) obj img = some (code, detail)) ∧
    (∃ (s : State) (k : Nat) (c : Cmd) (obj : SignedObj) (img : Tjl) (ch : Bool) (fl : List (List Flip)), Begins s k 1 c ∧ c.arg 0x1C 0 2
    = 3) ∧ (∃ (s : State) (k : Nat) (c : Cmd) (obj : SignedObj) (img : Tjl) (ch : Bool) (fl : List (List Flip)), Begins s k 1 c ∧ c.arg
    0x1C 0 2 = 0 ∧ c.arg 0x10 0 6 = 0 ∧ (Taken s k).loadBlocked img = true) ∧ (∃ (s : State) (k : Nat) (c : Cmd) (obj : SignedObj) (img :
    Tjl) (ch : Bool) (fl : List (List Flip)), Form s ∧ Begins s k 1 c ∧ c.arg 0x1C 0 2 = 0 ∧ (s.loadDomains c obj img).all s.inRun =
    false) ∧ (∃ (s : State) (k : Nat) (c : Cmd) (obj : SignedObj) (img : Tjl), Loads s k c 2 obj img ∧ imgIds img ≠ [] ∧ obj.ratchet =
    false ∧ (∀ p ∈ imgIds img, p < 64 ∧ s.pstate p = 2 ∧ (s.pipeAt p).update = none) ∧ (FirstPass s k c).updateCheck (c.arg 0x18 0 32) obj
    img = none) ∧ (∃ (s : State) (k code detail : Nat) (c : Cmd) (obj : SignedObj) (img : Tjl), Loads s k c 2 obj img ∧ imgIds img ≠ [] ∧
    (∀ p ∈ imgIds img, s.pstate p = 2 ∧ (s.pipeAt p).update = none) ∧ (FirstPass s k c).updateCheck (c.arg 0x18 0 32) obj img = some
    (code, detail)) ∧ (∃ (s : State) (p f : Nat) (u : Update), Form s ∧ p < 64 ∧ (s.pipeAt p).update = some u ∧ s.time < u.start + 250000
    ∧ s.sourceFrame p = some f ∧ pastFrame f u.frame = false ∧ u.frame < 16 ∧ (∀ x ∈ s.gov.pipes, x.1 ≠ p → ∀ v, x.2.update = some v →
    v.cmd ≠ u.cmd)) ∧ (∃ (s : State) (p : Nat) (u : Update), Form s ∧ p < 64 ∧ (s.pipeAt p).update = some u ∧ s.time < u.start + 250000 ∧
    s.sourceFrame p = none ∧ u.epoch < 256) ∧ (∃ (s : State) (p f : Nat) (u : Update), Form s ∧ p < 64 ∧ Placed s p ∧ (s.pipeAt p).update
    = some u ∧ u.epoch < 256 ∧ (u.start + 250000 ≤ s.time ∨ (s.sourceFrame p = some f ∧ pastFrame f u.frame = true))) ∧ (∃ (s : State) (p
    f : Nat) (u : Update), Form s ∧ p < 64 ∧ Placed s p ∧ (s.pipeAt p).update = some u ∧ u.epoch < 256 ∧ (u.start + 250000 ≤ s.time ∨
    (s.sourceFrame p = some f ∧ pastFrame f u.frame = true))) ∧ (∃ (s : State) (p : Nat) (u : Update), Form s ∧ p < 64 ∧ Placed s p ∧
    (s.pipeAt p).update = some u ∧ u.start + 250000 ≤ s.time ∧ u.epoch < 256) ∧ (∃ (s : State) (p : Nat) (u : Update), Form s ∧ p < 64 ∧
    Placed s p ∧ (s.pipeAt p).update = some u ∧ u.start + 250000 ≤ s.time ∧ u.epoch < 256) ∧ (∃ (s : State) (p : Nat) (u : Update),
    (s.pipeAt p).update = some u ∧ s.time < u.start + 250000) :=
  ⟨⟨ldS 0 [], 0, lcmd 0, lob, limg, [], ⟨form_of _ (by decide +kernel), ⟨by decide +kernel, by decide +kernel, by decide +kernel,
  by decide +kernel⟩, by decide +kernel, by decide +kernel, by decide +kernel, by decide +kernel⟩, by decide +kernel⟩, ⟨ldS 0 [], 0, 3, 0,
  lcmd 0, lob, limgM 0 2 5, false, [], ⟨form_of _ (by decide +kernel), ⟨by decide +kernel, by decide +kernel, by decide +kernel,
  by decide +kernel⟩, by decide +kernel, by decide +kernel, by decide +kernel, by decide +kernel⟩, by decide +kernel⟩, ⟨ldS 3 [], 0,
  lcmd 3, lob, limg, false, [], ⟨by decide +kernel, by decide +kernel, by decide +kernel, by decide +kernel⟩, by decide +kernel⟩,
  ⟨ldS 0 [(0x00330104, 1)] { dbg := { mask := 2 } }, 0, lcmd 0, lob, limgT, false, [], ⟨by decide +kernel, by decide +kernel,
  by decide +kernel, by decide +kernel⟩, by decide +kernel⟩, ⟨ldS 0 [(domReg 1, 1)], 0, lcmd 0, lob, limgT, false, [],
  form_of _ (by decide +kernel), ⟨by decide +kernel, by decide +kernel, by decide +kernel, by decide +kernel⟩, by decide +kernel⟩,
  ⟨ldS 2 [(pipeReg 1,
  2)] { gov := { pipes := [(1, { info := some (inf1 []) })], imgs := [{ digest := 0, profile := 1, pipes := [1], hbmA := 0, hbmB := 0, segCells := 0, segA := 0, segB := 0, firstA := 0, firstB := 0, baseA := 0, baseB := 0 }] } },
  0, lcmd 2, lob, limgM 2 1 0, ⟨form_of _ (by decide +kernel), ⟨by decide +kernel, by decide +kernel, by decide +kernel,
  by decide +kernel⟩, by decide +kernel, by decide +kernel, by decide +kernel, by decide +kernel⟩, by decide +kernel⟩, ⟨ldS 2 [(pipeReg 1,
  2)] { gov := { pipes := [(1, { info := some (inf1 []) })], imgs := [{ digest := 0, profile := 1, pipes := [1], hbmA := 0, hbmB := 0, segCells := 0, segA := 0, segB := 0, firstA := 0, firstB := 0, baseA := 0, baseB := 0 }] } },
  0, 1, 0, lcmd 2, lob, limgM 0 1 0, ⟨form_of _ (by decide +kernel), ⟨by decide +kernel, by decide +kernel, by decide +kernel,
  by decide +kernel⟩, by decide +kernel, by decide +kernel, by decide +kernel, by decide +kernel⟩, by decide +kernel⟩,
  ⟨upS [0] [(camReg 0 0x20, 5)] (upd 7) 200, 1, 5, upd 7, form_of _ (by decide +kernel), by decide +kernel⟩, ⟨upS [] [] (upd 7) 200, 1,
  upd 7, form_of _ (by decide +kernel), by decide +kernel⟩, ⟨upS [] [] (upd 7) 250100, 1, 0, upd 7, form_of _ (by decide +kernel),
  by decide +kernel, ⟨by decide +kernel, by decide +kernel⟩, by decide +kernel⟩, ⟨upS [0] [(camReg 0 0x20, 8)] (upd 7) 200, 1, 8, upd 7,
  form_of _ (by decide +kernel), by decide +kernel, ⟨by decide +kernel, by decide +kernel⟩, by decide +kernel⟩, ⟨upS [] [] (upd 7) 250100,
  1, upd 7, form_of _ (by decide +kernel), by decide +kernel, ⟨by decide +kernel, by decide +kernel⟩, by decide +kernel⟩,
  ⟨upS [] [(epochReg 1, 0x1703FFFF)] (upd 7) 900000, 1, upd 7, form_of _ (by decide +kernel), by decide +kernel, ⟨by decide +kernel,
  by decide +kernel⟩, by decide +kernel⟩, ⟨upS [] [] (upd 7) 250099, 1, upd 7, by decide +kernel⟩⟩

end Sys2Proof.Tests
end

/-! # Host accesses (O35): registers of BAR0 by access type, HBM through BAR2 -/

namespace Sys2Proof.Proofs

open Sys2Proof.Machine Sys2Proof.Claims Sys2Proof.Laws

/-! ## Hazards outside debug mode -/

theorem hazard_of_noDebug {s : State} (h : s.debugPerm 0 = false) (stop code detail : Nat) : s.hazard stop code detail = s := by
  unfold State.hazard State.hazardOf
  split
  · rfl
  · simp [h]

theorem bankEarly_of_noDebug {s : State} (h : s.debugPerm 0 = false) (stop bank col : Nat) : s.bankEarly stop bank col = s := by
  simp [State.bankEarly, hazard_of_noDebug h]

theorem debugPerm_wr_other {s : State} (hs : regWf s.regs = true) {a : Nat} (ha : a ≠ 0x00330050) (v : Word) (i : Nat) :
    (s.wr a v).debugPerm i = s.debugPerm i := by
  simp only [State.debugPerm, State.flag, rd_wr_other hs v ha.symm]

/-! ## Writes of registers -/

theorem execRegisterWrite_eq (s : State) (a : Nat) (v : W64) (size : Nat) :
    exec (.registerWrite a v size) s = .next (s.hostWrite a v size) := rfl

theorem le_of_windowOf {a : Nat} {w : Nat × Nat} (h : windowOf a = some w) : 0x01000000 ≤ a := by
  unfold windowOf at h
  split at h
  · omega
  · cases h

/-- Only the enables of the traces, the vectors of MSI-X and the column banks have something follow their write, the banks only in
debug mode. -/
theorem afterWrite_eq_self {s : State} {a : Nat} (hdbg : windowOf a ≠ none → s.debugPerm 0 = false) (ht0 : a ≠ 0x03010000)
    (ht1 : a ≠ 0x03010100) (hvec : a < 0x0010E000 ∨ 0x0010F000 ≤ a) (old : Word) : s.afterWrite a old = s := by
  have hv : ¬ (0x0010E000 ≤ a ∧ a < 0x0010F000 ∧ a % 16 = 12) := by omega
  simp only [State.afterWrite, ht0, ht1, hv, false_or, false_and, if_false]
  cases hw : windowOf a with
  | none => rfl
  | some w => simp [bankEarly_of_noDebug (hdbg (by simp [hw]))]

/-- R5: a write of a register without an effect of its own goes by the access types of its fields. -/
theorem regWrite_byAccess {s : State} {a : Nat} {r : RegRow} (hs : regWf s.regs = true) (hrow : regRow a = some r)
    (hring : ringCfgOf a = none) (hlock : s.hostLocked a = false) (hown : ownCommand a = 0) (hclk : a ≠ 0x2000)
    (hdbg : s.debugPerm 0 = false) (ht0 : a ≠ 0x03010000) (ht1 : a ≠ 0x03010100) (hvec : a < 0x0010E000 ∨ 0x0010F000 ≤ a) (v : Word) :
    s.regWrite a v = s.wr a (accessWrite (BitVec.ofNat 32 r.rw) (BitVec.ofNat 32 r.w1c) (s.rd a) v) := by
  have hafter (x : Word) : (s.wr a x).afterWrite a (s.rd a) = s.wr a x := by
    refine afterWrite_eq_self (fun hw => ?_) ht0 ht1 hvec _
    obtain ⟨w, hw⟩ := Option.ne_none_iff_exists'.mp hw
    have := le_of_windowOf hw
    rw [debugPerm_wr_other hs (by omega), hdbg]
  have hones (x : Word) : x &&& 4294967295#32 = x := BitVec.and_allOnes
  simp [State.regWrite, hrow, hring, hlock, hown, State.rwNow, hclk, hafter, hones]

theorem cgwThere_of_outside (s : State) {a : Nat} (ha : a < 0x00700000 ∨ 0x00800000 ≤ a) : s.cgwThere a = false := by
  simp only [State.cgwThere, Bool.and_eq_false_iff, decide_eq_false_iff_not]
  omega

/-- An aligned word that the host writes in a domain in Run, outside the Capsule gateway's range: the register takes it, or none lies
there. -/
theorem hostWrite_word {s : State} {a : Nat} (hcgw : a < 0x00700000 ∨ 0x00800000 ≤ a) (htop : a < 0x04000000) (hal : a % 4 = 0)
    (hrun : s.inRun (addrDomain a) = true) (v : W64) :
    s.hostWrite a v 4 = if s.regThere a then s.regWrite a (v.extractLsb' 0 32) else s.unmapped a false true := by
  have hin : ¬ 0x04000000 ≤ a := by omega
  cases h : s.regThere a <;>
    simp [State.hostWrite, State.applyWrite, accessWords, cgwThere_of_outside s hcgw, hin, hal, hrun, h]

/-- R404: SEC_UNMAPPED counts the access and its next word holds the address. -/
theorem unmapped_records {s : State} (hs : regWf s.regs = true) (off : Nat) (bar2 write : Bool) :
    (s.unmapped off bar2 write).rf 0x00300F00 0 32 = holdAt (2 ^ 32 - 1) (s.rf 0x00300F00 0 32 + 1) ∧
      (s.unmapped off bar2 write).rd 0x00300F08 = BitVec.ofNat 32 off ∧
      Kept s (s.unmapped off bar2 write) [0x00300F00, 0x00300F08, 0x00300F0C] ∧
      s.unmapped off bar2 write = { s with regs := (s.unmapped off bar2 write).regs } := by
  have h1 := count_wf hs 0x00300F00 0 32 1
  have h2 := wr_wf h1 0x00300F08 (BitVec.ofNat 32 off)
  refine ⟨?_, ?_, fun b hb => ?_, rfl⟩
  · rw [← rf_count_same hs 0x00300F00 0 32 1 (by omega), State.unmapped, State.rf, rd_wr_other h2 _ (by omega),
      rd_wr_other h1 _ (by omega), State.rf]
  · rw [State.unmapped, rd_wr_other h2 _ (by omega), rd_wr_same h1]
  · simp only [List.mem_cons, List.not_mem_nil, or_false, not_or] at hb
    obtain ⟨hb0, hb8, hbC⟩ := hb
    rw [State.unmapped, rd_wr_other h2 _ hbC, rd_wr_other h1 _ hb8, rd_count_other hs _ _ _ hb0]

theorem kept_wr {s : State} (hs : regWf s.regs = true) (a : Nat) (v : Word) : Kept s (s.wr a v) [a] := fun b hb =>
  rd_wr_other hs v (by simpa using hb)

/-! ## The parts of an access, and bytes of a table -/

/-- Where the first k words of an access of n bytes from a have brought it: the address after their last byte. -/
def partsEnd (a n k : Nat) : Nat := max a (min (a + n) (a / 8 * 8 + 8 * k))

/-- Part k of an access: from where the parts before it end, up to the end of its word or of the access. -/
def partAt (a n k : Nat) : Nat × Nat := (partsEnd a n k, partsEnd a n (k + 1) - partsEnd a n k)

/-- The number of 64-bit words that an access of n bytes from a touches. -/
def partCount (a n : Nat) : Nat := (a % 8 + n + 7) / 8

theorem wordParts_eq_map_partAt (a n : Nat) : wordParts a n = (List.range (partCount a n)).map (partAt a n) := by
  refine List.map_congr_left fun k hk => ?_
  have hk : k < (a % 8 + n + 7) / 8 := List.mem_range.mp hk
  simp only [partAt, partsEnd, Prod.mk.injEq]
  omega

@[simp] theorem partsEnd_zero (a n : Nat) : partsEnd a n 0 = a := by unfold partsEnd; omega

@[simp] theorem partsEnd_partCount (a n : Nat) : partsEnd a n (partCount a n) = a + n := by unfold partsEnd partCount; omega

/-- What is folded over the parts of an access, by how far they have come: it holds of the access's end when it holds of its start and
goes over each part, which lies within the access and within one word. -/
theorem foldl_wordParts {σ : Type} {a n : Nat} {f : σ → Nat × Nat → σ} {x : σ} (Inv : Nat → σ → Prop) (start : Inv a x)
    (part : ∀ b m y, (b, m) ∈ wordParts a n → a ≤ b → b + m ≤ a + n → b % 8 + m ≤ 8 → Inv b y → Inv (b + m) (f y (b, m))) :
    Inv (a + n) ((wordParts a n).foldl f x) := by
  have upTo : ∀ k ≤ partCount a n, Inv (partsEnd a n k) (((List.range k).map (partAt a n)).foldl f x) := by
    intro k hk
    induction k with
    | zero => simpa using start
    | succ k ih =>
      have hmem : partAt a n k ∈ wordParts a n := by
        rw [wordParts_eq_map_partAt]
        exact List.mem_map_of_mem (List.mem_range.mpr hk)
      have hend : (partAt a n k).1 + (partAt a n k).2 = partsEnd a n (k + 1) := by simp only [partAt, partsEnd]; omega
      rw [List.range_succ, List.map_append, List.foldl_append, ← hend]
      refine part _ _ _ hmem ?_ ?_ ?_ (ih (by omega)) <;> simp only [partAt, partsEnd, partCount] at * <;> omega
  simpa [wordParts_eq_map_partAt] using upTo _ (Nat.le_refl _)

theorem getBytes_append (t : Tbl Byte) (a m n : Nat) : getBytes t a m ++ getBytes t (a + m) n = getBytes t a (m + n) := by
  simp [getBytes, List.range_add, Nat.add_assoc, Function.comp_def]

/-- Bytes in the middle of a stretch. -/
theorem take_drop_getBytes (t : Tbl Byte) (a i m n : Nat) (h : i + m ≤ n) :
    ((getBytes t a n).drop i).take m = getBytes t (a + i) m := by
  obtain ⟨k, rfl⟩ := Nat.exists_eq_add_of_le h
  have hi : (getBytes t a i).length = i := by simp [getBytes]
  have hm : (getBytes t (a + i) m).length = m := by simp [getBytes]
  rw [← getBytes_append, ← getBytes_append, List.append_assoc, List.drop_left' hi, List.take_left' hm]

/-! ## HBM through BAR2 -/

/-- HBM holds no word with an ECC error. -/
structure HbmClean (s : State) : Prop where
  ue : s.hbm.ue = []
  ce : s.hbm.ce = []

/-- The state with other bytes in HBM. -/
def withHbmBytes (s : State) (m : Tbl Byte) : State := { s with hbm := { s.hbm with bytes := m } }

theorem withHbmBytes_clean {s : State} (hc : HbmClean s) (m : Tbl Byte) : HbmClean (withHbmBytes s m) := ⟨hc.ue, hc.ce⟩

theorem withHbmBytes_of_frame {s t : State} (h : t = withHbmBytes s t.hbm.bytes) (m : Tbl Byte) : withHbmBytes t m = withHbmBytes s m := by
  rw [h]
  rfl

theorem bar2Word_hbm {a : Nat} (ha : a < 0x600000000) : bar2Word a = some (.hbm, 0, a / 8) := by
  rw [bar2Word, if_pos (by omega)]

theorem bar2Domain_hbmA {a : Nat} (ha : a < 0x600000000) : bar2Domain a = 3 := by
  rw [bar2Domain, if_pos ha, dHbmA]

theorem cellsWait_hbm (s : State) (write : Bool) {a : Nat} (ha : a < 0x600000000) : s.cellsWait write a = false := by
  simp [State.cellsWait, bar2Word_hbm ha]

theorem takePort_hbm (s : State) (write : Bool) {a : Nat} (ha : a < 0x600000000) : s.takePort write a = s := by
  simp [State.takePort, bar2Word_hbm ha]

theorem memRegion_hbm (s : State) (stop w : Nat) : s.memRegion .hbm stop w = s := rfl

theorem memRead_hbm {s : State} (hc : HbmClean s) (stop w : Nat) : s.memRead .hbm stop w = (s, getBytes s.hbm.bytes (8 * w) 8) := by
  simp [State.memRead, State.memErrs, State.memBytes, hc.ue, hc.ce]

theorem memPut_hbm {s : State} (hc : HbmClean s) (stop w : Nat) (bs : List Byte) :
    s.memPut .hbm stop w bs = withHbmBytes s (putBytes s.hbm.bytes (8 * w) bs) := by
  simp [State.memPut, State.hbmPut, withHbmBytes, hc.ue, hc.ce]

theorem part_lt_hbm {a n : Nat} {p : Nat × Nat} (ha : a < 0x600000000) (han : a + n ≤ 0x600000000) (hp : p ∈ wordParts a n) :
    p.1 < 0x600000000 := by
  simp only [wordParts, List.mem_map, List.mem_range] at hp
  obtain ⟨k, hk, rfl⟩ := hp
  simp only
  omega

/-- No part of an access to HBM has to wait for the cells of a memory tile. -/
theorem any_cellsWait_hbm (s : State) (write : Bool) {ps : List (Nat × Nat)} (hps : ∀ p ∈ ps, p.1 < 0x600000000) :
    (ps.any fun p => s.cellsWait write p.1) = false := by
  simp only [List.any_eq_false, Bool.not_eq_true]
  exact fun p hp => cellsWait_hbm s write (hps p hp)

/-- Every part of an access to HBM lies in a memory. -/
theorem find_isNone_hbm {ps : List (Nat × Nat)} (hps : ∀ p ∈ ps, p.1 < 0x600000000) :
    (ps.find? fun p => (bar2Word p.1).isNone) = none := by
  simp only [List.find?_eq_none]
  intro p hp
  simp [bar2Word_hbm (hps p hp)]

/-- R403, R491: a read of HBM finds the bytes that stand there. -/
theorem bar2Read_hbm {s : State} {a n : Nat} (ha : a < 0x600000000) (han : a + n ≤ 0x600000000) (hup : s.answers 3 = true)
    (hc : HbmClean s) : s.bar2Read a n = { s with out := getBytes s.hbm.bytes a n } := by
  have hps : ∀ p ∈ wordParts a n, p.1 < 0x600000000 := fun p hp => part_lt_hbm ha han hp
  have htop : ¬ 2 ^ 36 < a + n := by omega
  simp only [State.bar2Read, htop, bar2Domain_hbmA ha, hup, any_cellsWait_hbm s false hps, find_isNone_hbm hps, if_false, Bool.not_true,
    Bool.false_eq_true]
  rw [foldl_wordParts (fun e x => x = (s, getBytes s.hbm.bytes a (e - a))) (x := (s, [])) (by simp [getBytes])]
  · rw [foldl_wordParts (fun _ t => t = { s with out := getBytes s.hbm.bytes a n }) (by simp)]
    rintro b m t hmem - - - rfl
    exact takePort_hbm _ _ (hps _ hmem)
  · rintro b m x hmem hab - hbm rfl
    have hword : 8 * (b / 8) + b % 8 = b := Nat.div_add_mod b 8
    have hlen : b + m - a = b - a + m := by omega
    have hstart : a + (b - a) = b := by omega
    simp only [bar2Word_hbm (hps _ hmem), memRegion_hbm, memRead_hbm hc, take_drop_getBytes _ _ _ _ _ hbm, hword, hlen, ← getBytes_append,
      hstart]

/-- The bytes of a 64-bit word with some of them, from byte `i`, replaced. -/
def mergeWord (t : Tbl Byte) (w i : Nat) (bs : List Byte) : List Byte :=
  (getBytes t (8 * w) 8).take i ++ bs ++ (getBytes t (8 * w) 8).drop (i + bs.length)

theorem memMerge_hbm {s : State} (hc : HbmClean s) (stop w i : Nat) (bs : List Byte) :
    s.memMerge .hbm stop w i bs = withHbmBytes s (putBytes s.hbm.bytes (8 * w) (mergeWord s.hbm.bytes w i bs)) := by
  simp only [State.memMerge, memRegion_hbm, memRead_hbm hc, memPut_hbm hc]
  split
  · next h =>
    obtain ⟨rfl, hlen⟩ := h
    have hall : (getBytes s.hbm.bytes (8 * w) 8).drop 8 = [] := by simp [getBytes]
    simp [mergeWord, hlen, hall]
  · rfl

theorem mergeWord_length (t : Tbl Byte) (w : Nat) {i : Nat} {bs : List Byte} (hi : i + bs.length ≤ 8) :
    (mergeWord t w i bs).length = 8 := by
  simp only [mergeWord, getBytes, List.length_append, List.length_take, List.length_drop, List.length_map, List.length_range]
  omega

/-- Byte k of a merged word: of the bytes that replace, or the one that stood there. -/
theorem getD_mergeWord (t : Tbl Byte) (w : Nat) {i k : Nat} {bs : List Byte} (hi : i + bs.length ≤ 8) (hk : k < 8) :
    (mergeWord t w i bs).getD k 0 = if i ≤ k ∧ k < i + bs.length then bs.getD (k - i) 0 else tget 0 t (8 * w + k) := by
  have hbefore : ((getBytes t (8 * w) 8).take i).length = i := by
    simp only [getBytes, List.length_take, List.length_map, List.length_range]
    omega
  have hget (l : Nat) (hl : l < 8) : (getBytes t (8 * w) 8)[l]?.getD 0 = tget 0 t (8 * w + l) := by simp [getBytes, hl]
  simp only [mergeWord, List.append_assoc, List.getD_eq_getElem?_getD, List.getElem?_append, hbefore]
  rcases Nat.lt_or_ge k i with h1 | h1
  · rw [if_pos h1, if_neg (by omega), List.getElem?_take_of_lt h1, hget k hk]
  · rw [if_neg (by omega)]
    by_cases h2 : k - i < bs.length
    · rw [if_pos h2, if_pos (by omega)]
    · rw [if_neg h2, if_neg (by omega), List.getElem?_drop, ← hget k hk]
      congr 2
      omega

/-- A merged word stored: the bytes replaced, and no others. -/
theorem tget_putBytes_mergeWord {t : Tbl Byte} (ht : Memory.wf t = true) {w i : Nat} {bs : List Byte} (hi : i + bs.length ≤ 8) (j : Nat) :
    tget 0 (putBytes t (8 * w) (mergeWord t w i bs)) j =
      if 8 * w + i ≤ j ∧ j < 8 * w + i + bs.length then bs.getD (j - (8 * w + i)) 0 else tget 0 t j := by
  rw [tget_putBytes ht, mergeWord_length t w hi]
  by_cases hj : 8 * w ≤ j ∧ j < 8 * w + 8
  · have hback : 8 * w + (j - 8 * w) = j := by omega
    have hoff : j - 8 * w - i = j - (8 * w + i) := by omega
    have hin : (i ≤ j - 8 * w ∧ j - 8 * w < i + bs.length) ↔ (8 * w + i ≤ j ∧ j < 8 * w + i + bs.length) := by omega
    rw [if_pos hj, getD_mergeWord t w hi (by omega), hback, hoff]
    simp only [hin]
  · rw [if_neg hj, if_neg (by omega)]

/-- HBM after the bytes of a write from `a` up to the address `e` are stored: those and no others, and nothing else has changed. -/
structure Stored (s : State) (a : Nat) (data : List Byte) (e : Nat) (t : State) : Prop where
  wf : Memory.wf t.hbm.bytes = true
  bytes : ∀ j, tget 0 t.hbm.bytes j = if a ≤ j ∧ j < e then data.getD (j - a) 0 else tget 0 s.hbm.bytes j
  frame : t = withHbmBytes s t.hbm.bytes

theorem stored_none {s : State} (h : Memory.wf s.hbm.bytes = true) (a : Nat) (data : List Byte) : Stored s a data a s where
  wf := h
  bytes j := by rw [if_neg (by omega)]
  frame := rfl

/-- R491: the next part of a write to HBM, merged into its word. -/
theorem stored_memMerge {s t : State} {a b m : Nat} {data : List Byte} (hc : HbmClean s) (h : Stored s a data b t) (hab : a ≤ b)
    (hend : b + m ≤ a + data.length) (hword : b % 8 + m ≤ 8) (stop : Nat) :
    Stored s a data (b + m) (t.memMerge .hbm stop (b / 8) (b % 8) ((data.drop (b - a)).take m)) := by
  have hct : HbmClean t := by rw [h.frame]; exact withHbmBytes_clean hc _
  have hlen : ((data.drop (b - a)).take m).length = m := by simp only [List.length_take, List.length_drop]; omega
  rw [memMerge_hbm hct]
  refine ⟨putBytes_wf h.wf, fun j => ?_, withHbmBytes_of_frame h.frame _⟩
  have hsplit : 8 * (b / 8) + b % 8 = b := Nat.div_add_mod b 8
  simp only [withHbmBytes]
  rw [tget_putBytes_mergeWord h.wf (by omega), hsplit, hlen, h.bytes]
  by_cases hj : b ≤ j ∧ j < b + m
  · have hoff : b - a + (j - b) = j - a := by omega
    rw [if_pos hj, if_pos (by omega), List.getD_eq_getElem?_getD, List.getElem?_take_of_lt (by omega), List.getElem?_drop, hoff,
      List.getD_eq_getElem?_getD]
  · have hin : (a ≤ j ∧ j < b) ↔ (a ≤ j ∧ j < b + m) := by omega
    simp only [hj, hin, if_false]

/-- R403, R491: a write to HBM stores its bytes. -/
theorem bar2Write_hbm {s : State} {a : Nat} {data : List Byte} (hwf : Memory.wf s.hbm.bytes = true) (ha : a < 0x600000000)
    (hend : a + data.length ≤ 0x600000000) (hup : s.answers 3 = true) (hc : HbmClean s) :
    Stored s a data (a + data.length) (s.bar2Write a data) := by
  have hps : ∀ p ∈ wordParts a data.length, p.1 < 0x600000000 := fun p hp => part_lt_hbm ha hend hp
  have htop : ¬ 2 ^ 36 < a + data.length := by omega
  simp only [State.bar2Write, htop, bar2Domain_hbmA ha, hup, any_cellsWait_hbm s true hps, find_isNone_hbm hps, if_false, Bool.not_true,
    Bool.false_eq_true]
  refine foldl_wordParts (Stored s a data) (stored_none hwf a data) fun b m t hmem hab hbend hword h => ?_
  have hb := hps _ hmem
  simp only [bar2Word_hbm hb, takePort_hbm _ _ hb, reduceCtorEq, false_and, if_false]
  exact stored_memMerge hc h hab hbend hword 0

/-! ## The obligation -/

/-- Settles O35: register writes by access type (R5), accesses where no register lies (R6, R404), and HBM through BAR2 (R403, R491), each
from the lemma that says what its access does. -/
theorem hostAccesses : Obligations.HostAccesses := by
  unfold Obligations.HostAccesses
  refine ⟨?byAccess, ?noRegister, ?read, ?write⟩
  case byAccess =>
    intro s a v r hf hcgw htop hal hclk hdbg hrun hthere hrow hring hlock hown ht0 ht1 hvec
    rw [execRegisterWrite_eq, hostWrite_word hcgw htop hal hrun, if_pos hthere,
      regWrite_byAccess hf.regs hrow hring hlock hown hclk hdbg ht0 ht1 hvec]
    exact ⟨_, rfl, rd_wr_same hf.regs _ _, kept_wr hf.regs _ _, rfl⟩
  case noRegister =>
    intro s a v hf hcgw htop hal hrun hthere
    obtain ⟨hcount, haddr, hkept, hframe⟩ := unmapped_records hf.regs a false true
    refine ⟨s.unmapped a false true, ?_, hcount, ?_, hkept, hframe⟩
    · rw [execRegisterWrite_eq, hostWrite_word hcgw htop hal hrun, hthere, if_neg Bool.false_ne_true]
    · rw [haddr, BitVec.toNat_ofNat, Nat.mod_eq_of_lt (by omega)]
  case read =>
    intro s a n ha hend hup hue hce
    exact congrArg _ (bar2Read_hbm ha hend hup ⟨hue, hce⟩)
  case write =>
    intro s a data hf ha hend hup hue hce
    obtain ⟨-, hbytes, hframe⟩ := bar2Write_hbm hf.hbm ha hend hup ⟨hue, hce⟩
    refine ⟨s.bar2Write a data, rfl, fun i hi => ?_, fun b hb => ?_, hframe⟩
    · rw [hbytes, if_pos (by omega), Nat.add_sub_cancel_left]
    · rw [hbytes, if_neg (by omega)]

end Sys2Proof.Proofs

/-! # Lane operations and RUN of special-function tiles (O14, O15) -/

namespace Sys2Proof.Proofs

open Sys2Proof.Machine Sys2Proof.Claims Sys2Proof.Laws

/-! ## Registers of one window -/

@[simp] theorem reg_lt_reg (stop a b : Nat) : reg stop a < reg stop b ↔ a < b := Nat.add_lt_add_iff_left

@[simp] theorem reg_le_reg (stop a b : Nat) : reg stop a ≤ reg stop b ↔ a ≤ b := Nat.add_le_add_iff_left

@[simp] theorem reg_inj (stop a b : Nat) : reg stop a = reg stop b ↔ a = b := Nat.add_left_cancel_iff

/-! ## Bundles with one operation -/

/-- Opcode 0 names no operation. -/
theorem opOf_zero (k : Kind) (i w : Nat) : opOf k i 0 w = none := by
  unfold opOf
  split
  case h_25 => rfl
  all_goals omega

/-- A slot that holds an operation stands in a bundle of format 0 (R136). -/
theorem bFormat_of_slotOp {stop : Nat} {b : Bundle} {i : Nat} {o : TileOp} (h : slotOp stop b i = some o) : bFormat b = 0 := by
  refine Decidable.byContradiction fun hf => ?_
  have hopc : bOpc b i = 0 := by simp only [bOpc, bSlot, if_neg hf, Nat.zero_div]
  rw [slotOp, hopc, opOf_zero] at h
  cases h

theorem literalWrites_of_slotOp {stop : Nat} {b : Bundle} {i : Nat} {o : TileOp} (h : slotOp stop b i = some o) :
    literalWrites b = [] := by
  simp [literalWrites, bFormat_of_slotOp h]

theorem holdsOp_of_slotOp {stop : Nat} {b : Bundle} {i : Nat} {o : TileOp} (hi : i < 3) (h : slotOp stop b i = some o) :
    holdsOp stop b o = true := by
  simp only [holdsOp, List.any_eq_true, List.mem_range]
  exact ⟨i, hi, by simp [h]⟩

theorem checkBundle_of_clean {s : State} {stop : Nat} (hue : (s.sch stop).pmUe = []) (hce : (s.sch stop).pmCe = []) :
    s.checkBundle stop = (s, true) := by
  have hcorrected (pc : Nat) : (List.range 2).filter (fun h => (s.sch stop).pmCe.contains (2 * pc + h)) = [] := by
    rw [hce]
    rfl
  have hbad (pc : Nat) : (List.range 2).any (fun h => (s.sch stop).pmUe.contains (2 * pc + h)) = false := by
    rw [hue]
    rfl
  simp only [State.checkBundle, hcorrected, hbad, List.foldl_nil, Bool.false_eq_true, if_false]

theorem waitMet_of_ctlNone (s : State) (stop : Nat) {b : Bundle} (h : bCtlOp b = 0) : s.waitMet stop b = true := by
  simp [State.waitMet, h, ctlWaitq, ctlWaith, ctlWaita, ctlWaits]

theorem passWait_of_ctlNone (s : State) (stop : Nat) {b : Bundle} (h : bCtlOp b = 0) : s.passWait stop b = s := by
  simp [State.passWait, h, ctlWaita, ctlWaits]

theorem doCtl_of_ctlNone (s : State) (stop : Nat) {b : Bundle} (h : bCtlOp b = 0) (first last : Bool) :
    s.doCtl stop b first last = (s, []) := by
  simp [State.doCtl, h, ctlWaits, ctlSig, ctlRst, ctlArm, ctlCadd]

/-- R147: a command that names the one operation of a bundle without a wait issues that bundle. -/
theorem runOp_of_lone {s : State} {stop i w : Nat} {o : TileOp} (h : Lone s stop i o w) (hi : i < 3) :
    s.runOp stop o = s.issue stop (s.nextBundle stop) := by
  simp [State.runOp, State.runIf, State.runBundle, h.tile, holdsOp_of_slotOp hi h.op, h.run, schRun, checkBundle_of_clean h.ue h.ce,
    waitMet_of_ctlNone _ _ h.ctl, passWait_of_ctlNone _ _ h.ctl]

/-! ## What follows the cycle of an issue -/

/-- From s to t only the sequencer of a tile has moved: its schedule, and of the registers those of its window from 0xD000 on, but
not SCH_ISSUE. -/
structure SequencerMoves (s t : State) (stop : Nat) : Prop where
  regs : regWf t.regs = true
  rd : ∀ a, a < reg stop 0xD000 ∨ a = reg stop 0xD014 → t.rd a = s.rd a
  frame : t = { s with regs := t.regs, sched := t.sched, at_ := t.at_ }

namespace SequencerMoves

variable {s t : State} {stop : Nat}

theorem refl (hs : regWf s.regs = true) : SequencerMoves s s stop := ⟨hs, fun _ _ => rfl, rfl⟩

/-- A register beside those kept is written. -/
theorem wr (h : SequencerMoves s t stop) {a : Nat} (ha : reg stop 0xD000 ≤ a ∧ a ≠ reg stop 0xD014) (v : Word) :
    SequencerMoves s (t.wr a v) stop where
  regs := wr_wf h.regs _ _
  rd b hb := by rw [rd_wr_other h.regs v (by omega), h.rd b hb]
  frame := by rw [h.frame]; rfl

theorem wf (h : SequencerMoves s t stop) {a : Nat} (ha : reg stop 0xD000 ≤ a ∧ a ≠ reg stop 0xD014) (lo n v : Nat) :
    SequencerMoves s (t.wf a lo n v) stop := h.wr ha _

theorem setSch (h : SequencerMoves s t stop) (x : Sched) : SequencerMoves s (t.setSch stop x) stop where
  regs := h.regs
  rd := h.rd
  frame := by rw [h.frame]; rfl

theorem setAt (h : SequencerMoves s t stop) (x : At) : SequencerMoves s (t.setAt stop x) stop where
  regs := h.regs
  rd := h.rd
  frame := by rw [h.frame]; rfl

theorem setSchState (h : SequencerMoves s t stop) (v : Nat) : SequencerMoves s (t.setSchState stop v) stop := by
  have h1 := h.wf (a := reg stop 0xD004) (by simp) 0 3 v
  unfold State.setSchState
  split
  · exact h1
  · exact h1.wf (by simp) 16 4 0

theorem stopWith (h : SequencerMoves s t stop) (v : Nat) : SequencerMoves s (t.stopWith stop v) stop := by
  unfold State.stopWith
  split
  · exact (h.setAt _).setSchState v
  · exact h.setSchState v

theorem goTo (h : SequencerMoves s t stop) (next : Nat) : SequencerMoves s (t.goTo stop next) stop := by
  unfold State.goTo
  split
  · exact (h.stopWith _).wf (by simp [schErr]) 2 1 1
  · exact h.wf (by simp) 4 12 next

theorem pushLoop (h : SequencerMoves s t stop) (pc n e : Nat) (unb : Bool) : SequencerMoves s (t.pushLoop stop pc n e unb) stop := by
  simp only [State.pushLoop]
  split
  · exact h
  · exact ((h.wr (by simp only [loopReg, reg]; omega) _).wr (by simp only [loopReg, reg]; omega) _).wf (by simp) 20 3 _

theorem closeLoops (h : SequencerMoves s t stop) (pc d : Nat) : SequencerMoves s (t.closeLoops stop pc d).1 stop := by
  induction d generalizing t with
  | zero => exact h
  | succ d ih =>
    have hloop : reg stop 0xD000 ≤ loopReg stop d ∧ loopReg stop d ≠ reg stop 0xD014 := by simp only [loopReg, reg]; omega
    simp only [State.closeLoops]
    split
    · exact h
    · split
      · exact h
      · split
        · exact h.wf hloop _ _ _
        · exact ih (((h.wf hloop _ _ _).wf hloop _ _ _).wf (by simp) _ _ _)

theorem advance (h : SequencerMoves s t stop) (b : Bundle) (n : Nat) : SequencerMoves s (t.advance stop b n) stop := by
  simp only [State.advance]
  split
  · exact (h.pushLoop _ _ _ _).goTo _
  · split
    · split
      · exact h.goTo _
      · exact (h.pushLoop _ _ _ _).goTo _
    · split
      · exact h.stopWith _
      · exact (h.closeLoops _ _).goTo _

end SequencerMoves

/-- R137, R138: after the cycle of an issue only the sequencer moves. -/
theorem sequencerMoves_issue {s : State} {stop : Nat} {b : Bundle} (h : regWf (s.issueCycle stop b true).1.regs = true) :
    SequencerMoves (s.issueCycle stop b true).1 (s.issue stop b) stop := by
  simp only [State.issue]
  split
  · exact ((SequencerMoves.refl h).setSch _).advance _ _
  · exact (SequencerMoves.refl h).setSch _

/-! ## The tile cycle of a special-function tile -/

/-- The state in which the slots of a special-function tile's next tile cycle find it. -/
def nextCycle (s : State) (stop : Nat) : State := s.modSch stop fun x => { x with cyc := x.cyc + 1, fresh := [] }

theorem beginCycle_sft (s : State) {stop : Nat} (hk : kindOf stop = .sft) : s.beginCycle stop = nextCycle s stop := by
  simp [State.beginCycle, hk, nextCycle]

theorem cycOf_nextCycle {s : State} (hs : twf {} s.sched = true) (stop : Nat) : (nextCycle s stop).cycOf stop = s.cycOf stop + 1 := by
  simp [nextCycle, State.modSch, State.setSch, State.cycOf, State.sch, hs]

/-- The operations of the OP slot of a special-function tile (R179). -/
def IsLaneOp : TileOp → Prop
  | .add | .mul | .max | .tbl | .run _ => True
  | _ => False

theorem kindOf_of_laneOp {stop i : Nat} {b : Bundle} {o : TileOp} (h : slotOp stop b i = some o) (ho : IsLaneOp o) :
    kindOf stop = .sft := by
  unfold slotOp opOf at h
  split at h <;> cases h <;> simp_all [IsLaneOp]

theorem runFn_of_slotOp {stop i fn : Nat} {b : Bundle} (h : slotOp stop b i = some (.run fn)) : osel (bSlot b i) 20 4 = fn := by
  unfold slotOp opOf at h
  split at h <;> simp_all

theorem formOf_of_laneOp {o : TileOp} (ho : IsLaneOp o) (w : Nat) : formOf o w = none := by
  cases o <;> simp_all [IsLaneOp, formOf]

theorem slotPost_of_none {s : State} {stop i : Nat} {b : Bundle} (h : slotOp stop b i = none) : s.slotPost stop b i = [] := by
  simp [State.slotPost, h]

theorem doSlot_of_none {s : State} {stop i : Nat} {b : Bundle} (h : slotOp stop b i = none) (c : Nat) (ok : Bool) :
    s.doSlot stop b i c ok = s := by
  simp [State.doSlot, h]

theorem endCycle_sft {s : State} {stop : Nat} (hk : kindOf stop = .sft) (hp : s.pairAt stop = none) :
    s.endCycle stop = (s.sftEnd stop (s.cycOf stop), []) := by
  have : (s.sftEnd stop (s.cycOf stop)).pairAt stop = none := hp
  simp [State.endCycle, hk, State.pairDue, this]

/-- The cycle in which a special-function tile issues a bundle whose one operation is one of its OP slot: the operation, the end of the
cycle, and the count of the issue (R137, R157). -/
theorem issueCycle_laneOp {s u : State} {stop w : Nat} {o : TileOp} (h : Lone s stop 1 o w) (ho : IsLaneOp o)
    (hu : (nextCycle s stop).doOp stop o w (s.cycOf stop + 1) (s.blockOk stop) = u) (hsched : u.sched = (nextCycle s stop).sched)
    (hpair : u.pairAt stop = none) :
    (s.issueCycle stop (s.nextBundle stop) true).1 = (u.sftEnd stop (s.cycOf stop + 1)).wr (reg stop 0xD014)
      ((u.sftEnd stop (s.cycOf stop + 1)).rd (reg stop 0xD014) + 1) := by
  have hk := kindOf_of_laneOp h.op ho
  have hcyc : u.cycOf stop = s.cycOf stop + 1 := by rw [← cycOf_nextCycle h.form.sched, State.cycOf, State.sch, hsched]; rfl
  have hpost (x : State) : x.slotPost stop (s.nextBundle stop) 1 = [] := by simp [State.slotPost, h.op, formOf_of_laneOp ho]
  have hop (x : State) (c : Nat) (ok : Bool) : x.doSlot stop (s.nextBundle stop) 1 c ok = x.doOp stop o w c ok := by
    simp [State.doSlot, h.op, h.word]
  have h0 := h.others 0 (by omega) (by omega)
  have h2 := h.others 2 (by omega) (by omega)
  simp only [State.issueCycle, beginCycle_sft s hk, cycOf_nextCycle h.form.sched, slotPost_of_none h0, slotPost_of_none h2, hpost,
    doSlot_of_none h0, doSlot_of_none h2, hop, hu, doCtl_of_ctlNone _ _ h.ctl, endCycle_sft hk hpair, hcyc, literalWrites_of_slotOp h.op,
    State.ctxWrites, List.append_nil, List.foldl_nil]

/-- The end of a tile cycle in which no write is due and no RUN ends leaves the datapath as it is, but for sends that are over. -/
theorem sftile_sftEnd {s : State} {stop c : Nat} (hs : twf {} s.sft = true) (hwr : ∀ x ∈ (s.sftile stop).wr, c < x.at_)
    (hrun : ∀ r, (s.sftile stop).run = some r → c < r.last) :
    (s.sftEnd stop c).sftile stop =
      { s.sftile stop with outs := (s.sftile stop).outs.filter fun t => decide (c < t) } := by
  have hdue : (s.sftile stop).wr.filter (fun x => decide (x.at_ ≤ c)) = [] := by
    simpa [List.filter_eq_nil_iff] using hwr
  have hstay : (s.sftile stop).wr.filter (fun x => decide (c < x.at_)) = (s.sftile stop).wr := by
    simpa [List.filter_eq_self] using hwr
  have hread (x : Sft) (f : Nat) : ((s.setSft stop x).bump.wf (reg stop 0x0010) 2 1 f).sftile stop = x := tget_tput_same hs _ _
  simp only [State.sftEnd, hdue, hstay, List.foldl_nil, hread]
  cases hr : (s.sftile stop).run with
  | none => rfl
  | some r => simp [Nat.not_le.mpr (hrun r hr)]

theorem sftEnd_wf {s : State} (h : regWf s.regs = true) (stop c : Nat) : regWf (s.sftEnd stop c).regs = true := wr_wf h _ _

theorem rd_sftEnd_other {s : State} (h : regWf s.regs = true) {stop c a : Nat} (ha : a ≠ reg stop 0x10) :
    (s.sftEnd stop c).rd a = s.rd a := rd_wr_other h _ ha

theorem rf_sftEnd_lctx {s : State} (h : regWf s.regs = true) (stop c : Nat) :
    (s.sftEnd stop c).rf (reg stop 0x10) 0 2 = s.rf (reg stop 0x10) 0 2 :=
  rf_wf_other (s := (s.setSft stop _).bump) h _ _ _ _ _ _ (by omega)

/-- How the state `t` after an issue comes from the state `u` in which the slots of its tile cycle c have left a special-function tile. -/
structure IssuedFrom (u t : State) (stop c : Nat) : Prop where
  tile : t.sftile stop = (u.sftEnd stop c).sftile stop
  mesh : t.mesh = u.mesh
  count : t.rd (reg stop 0xD014) = u.rd (reg stop 0xD014) + 1
  rd : ∀ a < reg stop 0xD000, a ≠ reg stop 0x10 → t.rd a = u.rd a
  lctx : t.rf (reg stop 0x10) 0 2 = u.rf (reg stop 0x10) 0 2

/-- The issue of a bundle whose one operation is one of the OP slot of a special-function tile (R137). -/
theorem runOp_laneOp {s u : State} {stop w : Nat} {o : TileOp} (h : Lone s stop 1 o w) (ho : IsLaneOp o)
    (hu : (nextCycle s stop).doOp stop o w (s.cycOf stop + 1) (s.blockOk stop) = u) (hregs : regWf u.regs = true)
    (hsched : u.sched = (nextCycle s stop).sched) (hpair : u.pairAt stop = none) :
    IssuedFrom u (s.runOp stop o) stop (s.cycOf stop + 1) := by
  have hend : regWf (u.sftEnd stop (s.cycOf stop + 1)).regs = true := sftEnd_wf hregs _ _
  have hcycle := issueCycle_laneOp h ho hu hsched hpair
  have hmove := sequencerMoves_issue (s := s) (stop := stop) (b := s.nextBundle stop) (by rw [hcycle]; exact wr_wf hend _ _)
  rw [← runOp_of_lone h (by omega), hcycle] at hmove
  have hlow (a : Nat) (ha : a < reg stop 0xD000) : (s.runOp stop o).rd a = (u.sftEnd stop (s.cycOf stop + 1)).rd a := by
    rw [hmove.rd a (.inl ha), rd_wr_other hend _ (by simp only [reg] at ha ⊢; omega)]
  refine ⟨?tile, ?mesh, ?count, fun a ha hne => ?rd, ?lctx⟩
  case tile => rw [hmove.frame]; rfl
  case mesh => rw [hmove.frame]; rfl
  case count => rw [hmove.rd _ (.inr rfl), rd_wr_same hend, rd_sftEnd_other hregs (by simp)]
  case rd => rw [hlow a ha, rd_sftEnd_other hregs hne]
  case lctx => rw [State.rf, hlow _ (by simp), ← State.rf, rf_sftEnd_lctx hregs]


/-! ## Special-function tiles at rest -/

/-- Nothing is under way in the datapath of a special-function tile. -/
structure SftIdle (s : State) (stop : Nat) : Prop where
  pair : s.pairAt stop = none
  wr : (s.sftile stop).wr = []
  run : (s.sftile stop).run = none

theorem sftIdle_of_inFlight {s : State} {stop : Nat} (hk : kindOf stop = .sft) (h : s.inFlight stop = false) : SftIdle s stop := by
  simp only [State.inFlight, hk, Bool.or_eq_false_iff, Bool.not_eq_false', List.isEmpty_iff, Option.isSome_eq_false_iff,
    Option.isNone_iff_eq_none] at h
  obtain ⟨⟨hpair, -⟩, ⟨hwr, hrun⟩, -⟩ := h
  exact ⟨hpair, hwr, hrun⟩

theorem runBusy_of_none {s : State} {stop : Nat} (h : (s.sftile stop).run = none) (c : Nat) : s.runBusy stop c = false := by
  simp [State.runBusy, h]

theorem runBusy_of_some {s : State} {stop c : Nat} {r : Run} (h : (s.sftile stop).run = some r) (hc : c ≤ r.last) :
    s.runBusy stop c = true := by
  simp [State.runBusy, h, hc]

theorem lmErrors_of_clean {s : State} {stop : Nat} (hue : (s.sftile stop).lmUe = []) (hce : (s.sftile stop).lmCe = []) (ws : List Nat) :
    s.lmErrors stop ws = s := by
  simp only [State.lmErrors, hue, hce, List.not_mem_nil, if_false]
  induction ws with
  | nil => rfl
  | cons w ws ih => exact ih

@[simp] theorem sftile_nextCycle (s : State) (stop : Nat) : (nextCycle s stop).sftile stop = s.sftile stop := rfl

@[simp] theorem sftile_setFlag (s : State) (stop a i : Nat) : (s.setFlag a i).sftile stop = s.sftile stop := rfl

theorem nextCycle_wf {s : State} (h : regWf s.regs = true) (stop : Nat) : regWf (nextCycle s stop).regs = true := h

/-! ## Operations counted -/

theorem sftOp_wf {s : State} (h : regWf s.regs = true) (stop : Nat) (n : Option Nat) : regWf (s.sftOp stop n).regs = true := by
  cases n with
  | none => exact wrap_wf h _ _ _ _
  | some n => exact wf_wf (wrap_wf h _ _ _ _) _ _ _ _

/-- Of the registers only SFT_STATUS counts an operation (R93). -/
theorem rd_sftOp_other {s : State} (h : regWf s.regs = true) {stop a : Nat} (ha : a ≠ reg stop 0x10) (n : Option Nat) :
    (s.sftOp stop n).rd a = s.rd a := by
  have hwrap : (s.wrap (reg stop 0x10) 16 16).rd a = s.rd a := rd_wr_other h _ ha
  cases n with
  | none => exact hwrap
  | some n => rw [← hwrap]; exact rd_wr_other (wrap_wf h _ _ _ _) _ ha

@[simp] theorem sftOp_sft (s : State) (stop : Nat) (n : Option Nat) : (s.sftOp stop n).sft = s.sft := by cases n <;> rfl

@[simp] theorem sftOp_pair (s : State) (stop : Nat) (n : Option Nat) : (s.sftOp stop n).pair = s.pair := by cases n <;> rfl

@[simp] theorem sftOp_sched (s : State) (stop : Nat) (n : Option Nat) : (s.sftOp stop n).sched = s.sched := by cases n <;> rfl

@[simp] theorem sftOp_mesh (s : State) (stop : Nat) (n : Option Nat) : (s.sftOp stop n).mesh = s.mesh := by cases n <;> rfl

theorem sftile_sftOp (s : State) (stop : Nat) (n : Option Nat) : (s.sftOp stop n).sftile stop = s.sftile stop := by
  simp only [State.sftile, sftOp_sft]

theorem sftLat_sftOp {s : State} (h : regWf s.regs = true) (stop base field : Nat) (n : Option Nat) :
    (s.sftOp stop n).sftLat stop base field = s.sftLat stop base field := by
  simp only [State.sftLat, State.rf, rd_sftOp_other h (show reg stop 0xD400 ≠ reg stop 0x10 by simp)]

theorem sftile_sftLater {s : State} (hs : twf {} s.sft = true) (stop n : Nat) (tgt : SftTarget) :
    (s.sftLater stop n tgt).sftile stop = { s.sftile stop with wr := (s.sftile stop).wr ++ [.mk n tgt] } :=
  tget_tput_same hs _ _

/-! ## Lane operations -/

/-- ADD, MUL and MAX while no RUN is in progress (R181): the lanes go to their register after the latency. -/
theorem opAlu_of_idle {s : State} {stop : Nat} (hs : regWf s.regs = true) (hrun : (s.sftile stop).run = none) (w c : Nat)
    (f : Word → Word → Word) :
    s.opAlu stop w c f = (s.sftOp stop none).sftLater stop (c + s.sftLat stop 4 2) (.vreg (osel w 21 3)
      ((List.range 64).map fun l => f ((s.sftile stop).lane (osel w 18 3) l) ((s.sftile stop).lane (osel w 15 3) l))) := by
  simp only [State.opAlu, runBusy_of_none hrun, Bool.false_eq_true, if_false, sftLat_sftOp hs, sftile_sftOp]

/-- TBL while no RUN is in progress, from a local memory without errors (R82, R181). -/
theorem opTbl_of_idle {s : State} {stop : Nat} (hs : regWf s.regs = true) (hrun : (s.sftile stop).run = none)
    (hue : (s.sftile stop).lmUe = []) (hce : (s.sftile stop).lmCe = []) (w c : Nat) :
    s.opTbl stop w c = (s.sftOp stop none).sftLater stop (c + s.sftLat stop 6 3) (.vreg (osel w 21 3)
      (((s.sftile stop).vec (osel w 18 3)).map (tblEval ((s.sftile stop).tblRd (osel w 15 3))))) := by
  have hclean := lmErrors_of_clean (s := s.sftOp stop none) (stop := stop) (by rw [sftile_sftOp, hue]) (by rw [sftile_sftOp, hce])
  simp only [State.opTbl, runBusy_of_none hrun, Bool.false_eq_true, if_false, hclean, sftLat_sftOp hs, sftile_sftOp]

/-- The issue of an operation that writes a target n tile cycles later, in a tile where nothing was under way (R178). -/
theorem runOp_later {s : State} {stop w n : Nat} {o : TileOp} {tgt : SftTarget} (h : Lone s stop 1 o w) (ho : IsLaneOp o)
    (hfl : s.inFlight stop = false) (hn : 0 < n)
    (hop : (nextCycle s stop).doOp stop o w (s.cycOf stop + 1) (s.blockOk stop) =
      ((nextCycle s stop).sftOp stop none).sftLater stop (s.cycOf stop + 1 + n) tgt) :
    Issued s (s.runOp stop o) stop ∧ ((s.runOp stop o).sftile stop).wr = [.mk (s.cycOf stop + 1 + n) tgt] ∧
      ((s.runOp stop o).sftile stop).v = (s.sftile stop).v ∧ ((s.runOp stop o).sftile stop).lm = (s.sftile stop).lm ∧
      (s.runOp stop o).mesh = s.mesh := by
  have hidle := sftIdle_of_inFlight (kindOf_of_laneOp h.op ho) hfl
  generalize hu : ((nextCycle s stop).sftOp stop none).sftLater stop (s.cycOf stop + 1 + n) tgt = u at hop
  have hsft : twf {} u.sft = true := by rw [← hu]; exact tput_wf h.form.sft
  have htile : u.sftile stop = { s.sftile stop with wr := [.mk (s.cycOf stop + 1 + n) tgt] } := by
    rw [← hu, sftile_sftLater (s := (nextCycle s stop).sftOp stop none) h.form.sft, sftile_sftOp, sftile_nextCycle, hidle.wr]
    rfl
  have hregs : u.regs = ((nextCycle s stop).sftOp stop none).regs := by rw [← hu]; rfl
  have hfrom := runOp_laneOp h ho hop (by rw [hregs]; exact sftOp_wf (nextCycle_wf h.form.regs _) _ _) (by rw [← hu]; rfl)
    (by rw [← hu]; exact hidle.pair)
  have hend := sftile_sftEnd (stop := stop) (c := s.cycOf stop + 1) hsft (by simp [htile, hn]) (by simp [htile, hidle.run])
  have hcount : u.rd (reg stop 0xD014) = s.rd (reg stop 0xD014) := by
    rw [State.rd, hregs]
    exact rd_sftOp_other (nextCycle_wf h.form.regs _) (by simp) none
  refine ⟨?_, ?_, ?_, ?_, ?_⟩
  · rw [Issued, hfrom.count, hcount]
  · rw [hfrom.tile, hend, htile]
  · rw [hfrom.tile, hend, htile]
  · rw [hfrom.tile, hend, htile]
  · rw [hfrom.mesh, ← hu]; rfl

/-- The issue of an operation of the OP slot that a RUN in progress drops (R182): `run_busy` is set, and the RUN goes on. -/
theorem runOp_dropped {s : State} {stop w : Nat} {o : TileOp} {r : Run} (h : Lone s stop 1 o w) (ho : IsLaneOp o)
    (hrun : (s.sftile stop).run = some r) (hlast : s.cycOf stop + 1 < r.last) (hwr : (s.sftile stop).wr = [])
    (hpair : s.pairAt stop = none)
    (hop : (nextCycle s stop).doOp stop o w (s.cycOf stop + 1) (s.blockOk stop) = (nextCycle s stop).setFlag (reg stop 0x0210) 4) :
    (s.runOp stop o).flag (reg stop 0x0210) 4 = true ∧ ((s.runOp stop o).sftile stop).wr = [] ∧
      ((s.runOp stop o).sftile stop).run = some r := by
  have hfrom := runOp_laneOp h ho hop (setFlag_wf h.form.regs _ _) rfl hpair
  have hend := sftile_sftEnd (s := (nextCycle s stop).setFlag (reg stop 0x0210) 4) (stop := stop) (c := s.cycOf stop + 1) h.form.sft
    (by simp [hwr]) (by simpa [hrun] using hlast)
  refine ⟨?_, ?_, ?_⟩
  · rw [State.flag, hfrom.rd _ (by simp) (by simp), ← State.flag, flag_setFlag (nextCycle_wf h.form.regs _) _ _ _ _ (by omega)]
    simp
  · rw [hfrom.tile, hend]; exact hwr
  · rw [hfrom.tile, hend]; exact hrun

/-- The binary lane operations, each with its command and its FP32 operation. -/
theorem exec_alu {c : Nat → Instr} {o : TileOp} {g : Word → Word → Word}
    (h : (c, o, g) ∈ [(Instr.add, TileOp.add, fadd), (Instr.mul, TileOp.mul, fmul), (Instr.max, TileOp.max, fmax)]) :
    IsLaneOp o ∧ (∀ stop s, exec (c stop) s = .next (s.runOp stop o)) ∧
      ∀ (s : State) stop w k ok, s.doOp stop o w k ok = s.opAlu stop w k g := by
  simp only [List.mem_cons, Prod.mk.injEq, List.not_mem_nil, or_false] at h
  rcases h with ⟨rfl, rfl, rfl⟩ | ⟨rfl, rfl, rfl⟩ | ⟨rfl, rfl, rfl⟩
  all_goals exact ⟨trivial, fun _ _ => rfl, fun _ _ _ _ _ => rfl⟩

/-- R182: while a RUN is in progress every lane operation is dropped. -/
theorem exec_laneOp_busy {c : Nat → Instr} {o : TileOp}
    (h : (c, o) ∈ [(Instr.add, TileOp.add), (Instr.mul, TileOp.mul), (Instr.max, TileOp.max), (Instr.tbl, TileOp.tbl)]) :
    IsLaneOp o ∧ (∀ stop s, exec (c stop) s = .next (s.runOp stop o)) ∧
      ∀ (s : State) stop w k ok, s.runBusy stop k = true → s.doOp stop o w k ok = s.setFlag (reg stop 0x0210) 4 := by
  simp only [List.mem_cons, Prod.mk.injEq, List.not_mem_nil, or_false] at h
  rcases h with ⟨rfl, rfl⟩ | ⟨rfl, rfl⟩ | ⟨rfl, rfl⟩ | ⟨rfl, rfl⟩
  all_goals exact ⟨trivial, fun _ _ => rfl, fun _ _ _ _ _ hb => if_pos hb⟩

/-- Settles O14: what each lane operation writes and when (R82, R181), and that a RUN in progress drops it (R182). -/
theorem sftLaneOperations : Obligations.SftLaneOperations := by
  unfold Obligations.SftLaneOperations
  refine ⟨?alu, ?tbl, ?busy⟩
  case alu =>
    intro c o g s stop w hc h hfl
    obtain ⟨ho, hexec, hop⟩ := exec_alu hc
    have hrun := (sftIdle_of_inFlight (kindOf_of_laneOp h.op ho) hfl).run
    refine ⟨_, hexec stop s, runOp_later h ho hfl (by simp only [State.sftLat]; omega) ?_⟩
    rw [hop]
    exact opAlu_of_idle (nextCycle_wf h.form.regs _) hrun w _ g
  case tbl =>
    intro s stop w h hfl hue hce
    have hrun := (sftIdle_of_inFlight (kindOf_of_laneOp h.op trivial) hfl).run
    refine ⟨_, rfl, runOp_later h trivial hfl (by simp only [State.sftLat]; omega) ?_⟩
    exact opTbl_of_idle (nextCycle_wf h.form.regs _) hrun hue hce w _
  case busy =>
    intro c o s stop w r hc h hrun hlast hwr hpair
    obtain ⟨ho, hexec, hop⟩ := exec_laneOp_busy hc
    refine ⟨_, hexec stop s, runOp_dropped h ho hrun hlast hwr hpair (hop _ _ _ _ _ ?_)⟩
    exact runBusy_of_some (s := nextCycle s stop) hrun (by omega)


/-! ## What the start of a RUN counts and logs -/

/-- From s to t a tile has counted and logged: its datapath, its schedule and every register below those of its monitors are as before,
but for SFT_OPERR, and outside debug mode nothing has been sent. -/
structure LogsOnly (s t : State) (stop : Nat) : Prop where
  regs : regWf t.regs = true
  rd : ∀ a < reg stop 0xE000, a ≠ reg stop 0x210 → t.rd a = s.rd a
  sft : t.sft = s.sft
  pair : t.pair = s.pair
  sched : t.sched = s.sched
  mesh : s.debugPerm 0 = false → t.mesh = s.mesh

namespace LogsOnly

variable {s t : State} {stop : Nat}

theorem refl (hs : regWf s.regs = true) : LogsOnly s s stop := ⟨hs, fun _ _ _ => rfl, rfl, rfl, rfl, fun _ => rfl⟩

/-- A register of the monitors or of the hazard log is written, or SFT_OPERR. -/
theorem wr (h : LogsOnly s t stop) {a : Nat} (ha : reg stop 0xE000 ≤ a ∨ a = reg stop 0x210) (v : Word) :
    LogsOnly s (t.wr a v) stop where
  regs := wr_wf h.regs _ _
  rd b hb hne := by rw [rd_wr_other h.regs v (by omega), h.rd b hb hne]
  sft := h.sft
  pair := h.pair
  sched := h.sched
  mesh := h.mesh

theorem setMon (h : LogsOnly s t stop) (n : Nat) (x : Mon) : LogsOnly s (t.setMon stop n x) stop :=
  ⟨h.regs, h.rd, h.sft, h.pair, h.sched, h.mesh⟩

theorem debugPerm (h : LogsOnly s t stop) (i : Nat) : t.debugPerm i = s.debugPerm i := by
  simp only [State.debugPerm, State.flag, h.rd 0x00330050 (by simp only [reg]; omega) (by simp only [reg]; omega)]

theorem ite (h : LogsOnly s t stop) {u : State} (hu : LogsOnly s u stop) (p : Prop) [Decidable p] :
    LogsOnly s (if p then t else u) stop := by
  split
  · exact h
  · exact hu

theorem setDbg (h : LogsOnly s t stop) (x : Dbg) : LogsOnly s { t with dbg := x } stop :=
  ⟨h.regs, h.rd, h.sft, h.pair, h.sched, h.mesh⟩

theorem event_inDebug (h : LogsOnly s t stop) (hdbg : s.debugPerm 0 = true) (code n value : Nat) (pipe : Option Nat) :
    LogsOnly s (t.event code n value pipe) stop :=
  ⟨h.regs, h.rd, h.sft, h.pair, h.sched, fun hoff => by simp [hdbg] at hoff⟩

/-- R230: whichever place an entry takes in the hazard log, it lies above the registers kept. -/
theorem hazardLog (h : LogsOnly s t stop) (hdbg : s.debugPerm 0 = true) (code pipe detail cyc : Nat) :
    LogsOnly s (t.hazardLog stop code pipe detail cyc) stop := by
  have hput (k : Nat) (v v' : Word) : LogsOnly s ((t.wr (reg stop (0xF840 + 8 * k)) v).wr (reg stop (0xF844 + 8 * k)) v') stop :=
    (h.wr (.inl (by simp only [reg_le_reg]; omega)) _).wr (.inl (by simp only [reg_le_reg]; omega)) _
  have hcount : reg stop 0xE000 ≤ reg stop 0xF80C := by simp
  have hfree (k : Nat) (v v' n : Word) (x : Dbg) := ((hput k v v').wr (.inl hcount) n).setDbg x
  have hold (k : Nat) (v v' : Word) (x : Dbg) := (hput k v v').setDbg x
  exact ((hfree _ _ _ _ _).ite ((hold _ _ _ _).ite (h.wr (.inl hcount) _) _) _).event_inDebug hdbg _ _ _ _

theorem hazard (h : LogsOnly s t stop) (code detail : Nat) : LogsOnly s (t.hazard stop code detail) stop := by
  cases hdbg : s.debugPerm 0 with
  | false => rw [hazard_of_noDebug (by rw [h.debugPerm, hdbg])]; exact h
  | true =>
    unfold State.hazard State.hazardOf
    split
    · exact h
    · exact (h.hazardLog hdbg _ _ _ _).ite h _

theorem hazard_elim (h : LogsOnly s t stop) (x : Option Nat) (code : Nat) :
    LogsOnly s (x.elim t fun y => t.hazard stop code y) stop := by
  cases x with
  | none => exact h
  | some y => exact h.hazard code y

theorem monLatch (h : LogsOnly s t stop) (n : Nat) : LogsOnly s (t.monLatch stop n) stop := by
  have hmon (off : Nat) (hoff : 0xE000 ≤ off) : reg stop 0xE000 ≤ reg stop off := by simpa using hoff
  simp only [State.monLatch]
  split
  · exact h
  · exact (((h.wr (.inl (hmon _ (by omega))) _).ite h _).wr (.inl (hmon _ (by omega))) _).setMon _ _

theorem monCount (h : LogsOnly s t stop) (n : Nat) (tag epoch : Tag) (rs : List Narrowed) :
    LogsOnly s (t.monCount stop n tag epoch rs) stop := by
  unfold State.monCount
  exact h.ite (((h.monLatch n).ite h _).setMon _ _) _

theorem rangeFlag (h : LogsOnly s t stop) (p : Prop) [Decidable p] :
    LogsOnly s (if p then t.setFlag (reg stop 0x0210) 3 else t) stop :=
  ite (h.wr (.inr rfl) _) h p

theorem sftile (h : LogsOnly s t stop) : t.sftile stop = s.sftile stop := by simp only [State.sftile, h.sft]

theorem sftLat (h : LogsOnly s t stop) (base field : Nat) : t.sftLat stop base field = s.sftLat stop base field := by
  simp only [State.sftLat, State.rf, h.rd (reg stop 0xD400) (by simp) (by simp)]

/-- A local memory without errors reports none (R77). -/
theorem lmErrors (h : LogsOnly s t stop) (hue : (s.sftile stop).lmUe = []) (hce : (s.sftile stop).lmCe = []) (ws : List Nat) :
    LogsOnly s (t.lmErrors stop ws) stop := by
  rw [lmErrors_of_clean (by rw [h.sftile, hue]) (by rw [h.sftile, hce])]
  exact h

theorem wmReads (h : LogsOnly s t stop) (hue : (s.sftile stop).lmUe = []) (hce : (s.sftile stop).lmCe = []) (rs : List (Nat × Nat)) :
    LogsOnly s (t.wmReads stop rs) stop :=
  (h.rangeFlag _).lmErrors hue hce _

end LogsOnly

/-! ## The functions of RUN -/

/-- Every function of RUN takes at least one tile cycle. -/
theorem cycles_pos_of_runPlan {s : State} {stop fn cr n : Nat} {p : RunPlan} (h : s.runPlan stop fn cr n = some p) : 0 < p.cycles := by
  simp only [State.runPlan] at h
  split at h
  case h_11 => cases h
  all_goals
    simp only [planSoftmax, planLnorm, planGnStat, planGnApply, planPool, planResizeN, planResizeB, planTopk, planDwconv,
      Option.ite_none_right_eq_some, Option.some.injEq] at h
    obtain ⟨-, rfl⟩ := h
    grind

/-- The start of a RUN with parameters within the limits, in a tile where nothing was under way (R182). -/
theorem opRun_of_idle {s : State} {stop w c : Nat} {p : RunPlan} (hs : regWf s.regs = true) (hidle : SftIdle s stop)
    (hue : (s.sftile stop).lmUe = []) (hce : (s.sftile stop).lmCe = [])
    (hplan : s.runPlan stop (osel w 20 4) (osel w 15 5) (osel w 0 2) = some p) :
    ∃ r v, s.opRun stop w c = v.setSft stop { s.sftile stop with run := some r } ∧
      LogsOnly (s.sftOp stop (some (osel w 0 2))) v stop ∧ r.results = p.results ∧ r.touched = false ∧
      r.last = c + s.sftLat stop p.cycles 6 := by
  have hop := LogsOnly.refl (stop := stop) (sftOp_wf hs stop (some (osel w 0 2)))
  rw [← sftile_sftOp s stop (some (osel w 0 2))] at hue hce
  have hlogs (x : Option Nat) (q : Prop) [Decidable q] (n : Nat) (tag epoch : Tag) :=
    (((((hop.hazard_elim x 11).rangeFlag q).wmReads hue hce p.reads).lmErrors hue hce p.table).monCount n tag epoch p.codes)
  have hhit (uses : List (Nat × Nat)) (last : Nat) : (s.sftile stop).landsIn uses last = none := by simp [Sft.landsIn, hidle.wr]
  simp only [State.opRun, runBusy_of_none hidle.run, Bool.false_eq_true, if_false, hplan, (hlogs _ _ _ _ _).sftile,
    (hlogs _ _ _ _ _).sftLat, sftile_sftOp, hhit, Option.elim_none, sftLat_sftOp hs]
  exact ⟨_, _, rfl, hlogs _ _ _ _ _, rfl, rfl, rfl⟩

/-- A RUN whose parameters break a limit (R182). -/
theorem opRun_of_badParams {s : State} {stop w : Nat} (hrun : (s.sftile stop).run = none)
    (hplan : s.runPlan stop (osel w 20 4) (osel w 15 5) (osel w 0 2) = none) (c : Nat) :
    s.opRun stop w c = (s.setFlag (reg stop 0x0210) 5).event 11 stop (osel w 20 4) (some (s.pipeOf stop)) := by
  simp only [State.opRun, runBusy_of_none hrun, Bool.false_eq_true, if_false, hplan]

/-- SFT_STATUS names the layer context of the operation counted (R93). -/
theorem rf_sftOp_lctx {s : State} (h : regWf s.regs = true) (stop n : Nat) :
    (s.sftOp stop (some n)).rf (reg stop 0x10) 0 2 = n % 2 ^ 2 :=
  rf_wf_same (wrap_wf h _ _ _ _) _ _ _ _ (by omega)

theorem runPlan_nextCycle (s : State) (stop fn cr n : Nat) : (nextCycle s stop).runPlan stop fn cr n = s.runPlan stop fn cr n := rfl

/-- The issue of a RUN with parameters within the limits (R182): its results wait for its last cycle. -/
theorem runOp_run {s : State} {stop w fn : Nat} {p : RunPlan} (h : Lone s stop 1 (.run fn) w) (hfl : s.inFlight stop = false)
    (hue : (s.sftile stop).lmUe = []) (hce : (s.sftile stop).lmCe = []) (hplan : s.runPlan stop fn (osel w 15 5) (osel w 0 2) = some p) :
    ∃ r, Issued s (s.runOp stop (.run fn)) stop ∧ ((s.runOp stop (.run fn)).sftile stop).run = some r ∧ r.results = p.results ∧
      r.touched = false ∧ r.last = s.cycOf stop + 1 + s.sftLat stop p.cycles 6 ∧
      (s.runOp stop (.run fn)).rf (reg stop 0x0010) 0 2 = osel w 0 2 ∧
      ((s.runOp stop (.run fn)).sftile stop).v = (s.sftile stop).v ∧ ((s.runOp stop (.run fn)).sftile stop).lm = (s.sftile stop).lm ∧
      (s.debugPerm 0 = false → (s.runOp stop (.run fn)).mesh = s.mesh) := by
  have hidle := sftIdle_of_inFlight (kindOf_of_laneOp h.op trivial) hfl
  have hfn : osel w 20 4 = fn := h.word ▸ runFn_of_slotOp h.op
  have hregs := nextCycle_wf h.form.regs stop
  obtain ⟨r, v, hop, hlogs, hresults, htouched, hlast⟩ := opRun_of_idle (w := w) (c := s.cycOf stop + 1) hregs
    ⟨hidle.pair, hidle.wr, hidle.run⟩ hue hce (by rw [hfn, runPlan_nextCycle, hplan])
  rw [sftile_nextCycle] at hop
  generalize hu : v.setSft stop { s.sftile stop with run := some r } = u at hop
  have hsft : twf {} v.sft = true := by rw [hlogs.sft, sftOp_sft]; exact h.form.sft
  have htile : u.sftile stop = { s.sftile stop with run := some r } := by rw [← hu]; exact tget_tput_same hsft _ _
  have hrd (a : Nat) (ha : a < reg stop 0xE000) (hne : a ≠ reg stop 0x210) :
      u.rd a = ((nextCycle s stop).sftOp stop (some (osel w 0 2))).rd a := by rw [← hu]; exact hlogs.rd a ha hne
  have hpair : u.pair = s.pair := by rw [← hu]; exact hlogs.pair.trans (sftOp_pair _ _ _)
  have hfrom := runOp_laneOp h trivial hop (by rw [← hu]; exact hlogs.regs) (by rw [← hu]; exact hlogs.sched.trans (sftOp_sched _ _ _))
    (by rw [State.pairAt, hpair]; exact hidle.pair)
  have hcycles := cycles_pos_of_runPlan hplan
  have hafter : s.cycOf stop + 1 < r.last := by rw [hlast]; simp only [State.sftLat]; omega
  have hend := sftile_sftEnd (stop := stop) (c := s.cycOf stop + 1) (show twf {} u.sft = true by rw [← hu]; exact tput_wf hsft)
    (by simp [htile, hidle.wr]) (by simpa [htile] using hafter)
  refine ⟨r, ?_, ?_, hresults, htouched, hlast, ?_, ?_, ?_, fun hdbg => ?_⟩
  · rw [Issued, hfrom.count, hrd _ (by simp) (by simp), rd_sftOp_other hregs (by simp)]
    rfl
  · rw [hfrom.tile, hend, htile]
  · rw [hfrom.lctx, State.rf, hrd _ (by simp) (by simp), ← State.rf, rf_sftOp_lctx hregs, osel, Nat.mod_mod]
  · rw [hfrom.tile, hend, htile]
  · rw [hfrom.tile, hend, htile]
  · rw [hfrom.mesh, ← hu]
    refine (hlogs.mesh ?_).trans (sftOp_mesh _ _ _)
    rw [← hdbg]
    simp only [State.debugPerm, State.flag, rd_sftOp_other hregs (show 0x00330050 ≠ reg stop 0x10 by simp only [reg]; omega)]
    rfl

/-- The issue of a RUN whose parameters break a limit (R182): nothing is started, `run_param` is set and an event goes out. -/
theorem runOp_badParams {s : State} {stop w fn : Nat} (h : Lone s stop 1 (.run fn) w) (hfl : s.inFlight stop = false)
    (hplan : s.runPlan stop fn (osel w 15 5) (osel w 0 2) = none) :
    Issued s (s.runOp stop (.run fn)) stop ∧ (s.runOp stop (.run fn)).flag (reg stop 0x0210) 5 = true ∧
      ((s.runOp stop (.run fn)).sftile stop).run = none ∧
      Sends s (s.runOp stop (.run fn)) [eventFlit { code := 11, stop := stop, value := fn, pipe := some (s.pipeOf stop) }] ∧
      ((s.runOp stop (.run fn)).sftile stop).lm = (s.sftile stop).lm := by
  have hidle := sftIdle_of_inFlight (kindOf_of_laneOp h.op trivial) hfl
  have hfn : osel w 20 4 = fn := h.word ▸ runFn_of_slotOp h.op
  have hregs := nextCycle_wf h.form.regs stop
  generalize hu : ((nextCycle s stop).setFlag (reg stop 0x0210) 5).event 11 stop fn (some (s.pipeOf stop)) = u
  have hop : (nextCycle s stop).doOp stop (.run fn) w (s.cycOf stop + 1) (s.blockOk stop) = u := by
    rw [← hu, ← hfn]
    exact opRun_of_badParams (s := nextCycle s stop) hidle.run (by rw [hfn, runPlan_nextCycle, hplan]) _
  have htile : u.sftile stop = s.sftile stop := by rw [← hu]; rfl
  have hrd (a : Nat) : u.rd a = ((nextCycle s stop).setFlag (reg stop 0x0210) 5).rd a := by rw [← hu]; rfl
  have hfrom := runOp_laneOp h trivial hop (by rw [← hu]; exact setFlag_wf hregs _ _) (by rw [← hu]; rfl)
    (by rw [← hu]; exact hidle.pair)
  have hend := sftile_sftEnd (s := u) (stop := stop) (c := s.cycOf stop + 1) (by rw [← hu]; exact h.form.sft)
    (by simp [htile, hidle.wr]) (by simp [htile, hidle.run])
  refine ⟨?_, ?_, ?_, ?_, ?_⟩
  · rw [Issued, hfrom.count, hrd, rd_setFlag_other hregs (by simp)]
    rfl
  · rw [State.flag, hfrom.rd _ (by simp) (by simp), hrd, ← State.flag, flag_setFlag hregs _ _ _ _ (by omega)]
    simp
  · rw [hfrom.tile, hend, htile]; exact hidle.run
  · rw [Sends, hfrom.mesh, ← hu]; rfl
  · rw [hfrom.tile, hend, htile]

/-- Each command that runs a function is the operation RUN with that function's number (R183). -/
theorem exec_run {c : Nat → Instr} {fn : Nat}
    (h : (c, fn) ∈ [(Instr.softmax, 0), (Instr.lnorm, 1), (Instr.gnStat, 2), (Instr.gnApply, 3), (Instr.maxpool, 4), (Instr.avgpool, 5),
      (Instr.resizeN, 6), (Instr.resizeB, 7), (Instr.topk, 8), (Instr.dwconv, 9)]) (stop : Nat) (s : State) :
    exec (c stop) s = .next (s.runOp stop (.run fn)) := by
  simp only [List.mem_cons, Prod.mk.injEq, List.not_mem_nil, or_false] at h
  rcases h with ⟨rfl, rfl⟩ | ⟨rfl, rfl⟩ | ⟨rfl, rfl⟩ | ⟨rfl, rfl⟩ | ⟨rfl, rfl⟩ | ⟨rfl, rfl⟩ | ⟨rfl, rfl⟩ |
    ⟨rfl, rfl⟩ | ⟨rfl, rfl⟩ | ⟨rfl, rfl⟩
  all_goals rfl

/-- Settles O15: RUN within the limits of its parameters and beyond them (R182, R183). -/
theorem sftRunFunctions : Obligations.SftRunFunctions := by
  unfold Obligations.SftRunFunctions
  refine ⟨?within, ?beyond⟩
  case within =>
    intro c fn s stop w p hc h hfl hue hce hplan
    obtain ⟨r, hrun⟩ := runOp_run h hfl hue hce hplan
    exact ⟨_, r, exec_run hc stop s, hrun⟩
  case beyond =>
    intro c fn s stop w hc h hfl hplan
    exact ⟨_, exec_run hc stop s, runOp_badParams h hfl hplan⟩

end Sys2Proof.Proofs

/-! # Streams, the fetch engine and the HBM ports (O21) -/

namespace Sys2Proof.Proofs

open Sys2Proof.Machine Sys2Proof.Claims Sys2Proof.Laws

/-! ## Tables in any order -/

/-- Without any assumption on the table, a write leaves the other keys. -/
theorem tget_tput_ne {α : Type} [DecidableEq α] {d : α} (t : Tbl α) {k j : Nat} (v : α) (hj : j ≠ k) :
    tget d (tput d t k v) j = tget d t j := by
  induction t with
  | nil => by_cases hv : v = d <;> simp [tput, tget, hv, hj.symm]
  | cons x r ih =>
    obtain ⟨a, w⟩ := x
    simp only [tput]
    split
    · split <;> simp [tget, hj.symm]
    · split
      · next hk => split <;> simp [tget, ← hk, hj.symm]
      · simp only [tget, ih]

/-- Without any assumption on the table, a value that is not what unlisted keys read as is read back. -/
theorem tget_tput_of_ne_default {α : Type} [DecidableEq α] {d v : α} (t : Tbl α) (k : Nat) (hv : v ≠ d) :
    tget d (tput d t k v) k = v := by
  induction t with
  | nil => simp [tput, tget, hv]
  | cons x r ih =>
    obtain ⟨a, w⟩ := x
    simp only [tput, hv, if_false]
    split
    · simp [tget]
    · split
      · simp [tget]
      · next hk => rw [tget, if_neg (Ne.symm hk), ih]

/-! ## Fields that hold what is written -/

theorem rf_lt (s : State) (a lo n : Nat) : s.rf a lo n < 2 ^ n := bitsOf_lt _ _ _

theorem rf_wf_of_lt {s : State} (h : regWf s.regs = true) (a lo n : Nat) {v : Nat} (hw : lo + n ≤ 32) (hv : v < 2 ^ n) :
    (s.wf a lo n v).rf a lo n = v := by
  rw [rf_wf_same h _ _ _ _ hw, Nat.mod_eq_of_lt hv]

theorem rd_wf_other {s : State} (h : regWf s.regs = true) {a b : Nat} (lo n v : Nat) (hb : b ≠ a) : (s.wf a lo n v).rd b = s.rd b :=
  rd_wr_other h _ hb

theorem rf_pred_lt (s : State) (a lo n : Nat) : s.rf a lo n - 1 < 2 ^ n := Nat.lt_of_le_of_lt (Nat.sub_le _ _) (rf_lt _ _ _ _)

theorem kept_refl (s : State) (as : List Nat) : Kept s s as := fun _ _ => rfl

theorem kept_wf {s t : State} {as : List Nat} (hk : Kept s t as) (ht : regWf t.regs = true) {a : Nat} (ha : a ∈ as) (lo n v : Nat) :
    Kept s (t.wf a lo n v) as := fun b hb => by
  have hne : b ≠ a := by rintro rfl; exact hb ha
  rw [rd_wf_other ht _ _ _ hne, hk b hb]

/-! ## The regulator and the HBM ports -/

theorem bucketTick_tokens_lt {n tokens depth : Nat} (acc rate : Nat) (ht : tokens < n) (hd : depth < n) :
    (bucketTick acc tokens rate depth).2 < n := by
  simp only [bucketTick]
  split <;> omega

/-- The tokens of stack A, of stack B and the global ones are set. -/
def setTokens (s : State) (a b g : Nat) : State := ((s.wf 0x0300F00C 0 16 a).wf 0x0300F00C 16 16 b).wf 0x0300F010 0 16 g

theorem setTokens_tokens {s : State} (h : regWf s.regs = true) {a b g : Nat} (ha : a < 2 ^ 16) (hb : b < 2 ^ 16) (hg : g < 2 ^ 16) :
    (setTokens s a b g).rf 0x0300F00C 0 16 = a ∧ (setTokens s a b g).rf 0x0300F00C 16 16 = b ∧
      (setTokens s a b g).rf 0x0300F010 0 16 = g ∧ Kept s (setTokens s a b g) [0x0300F00C, 0x0300F010] := by
  have hA := wf_wf h 0x0300F00C 0 16 a
  have hB := wf_wf hA 0x0300F00C 16 16 b
  refine ⟨?_, ?_, rf_wf_of_lt hB _ _ _ (by omega) hg, ?_⟩
  · rw [setTokens, rf_wf_elsewhere hB _ _ _ _ _ (by omega), rf_wf_other hA _ _ _ _ _ _ (by omega), rf_wf_of_lt h _ _ _ (by omega) ha]
  · rw [setTokens, rf_wf_elsewhere hB _ _ _ _ _ (by omega), rf_wf_of_lt hA _ _ _ (by omega) hb]
  · exact kept_wf (kept_wf (kept_wf (kept_refl _ _) h (.head _) _ _ _) hA (.head _) _ _ _) hB (.tail _ (.head _)) _ _ _

/-- R124: a regulator tick sets the tokens to those that each bucket's tick gives. -/
theorem regulator_tokens {s : State} (h : regWf s.regs = true) :
    s.regulator.rf 0x0300F00C 0 16 = (bucketTick s.bucket.accA (s.rf 0x0300F00C 0 16) (s.rf 0x0300F000 0 12) (s.rf 0x0300F000 16 16)).2 ∧
    s.regulator.rf 0x0300F00C 16 16 = (bucketTick s.bucket.accB (s.rf 0x0300F00C 16 16) (s.rf 0x0300F004 0 12) (s.rf 0x0300F004 16 16)).2 ∧
    s.regulator.rf 0x0300F010 0 16 = (bucketTick s.bucket.accG (s.rf 0x0300F010 0 16) (s.rf 0x0300F008 0 13) (s.rf 0x0300F008 16 16)).2 ∧
    Kept s s.regulator [0x0300F00C, 0x0300F010] := by
  have hlt (acc rate a b lo lo' : Nat) : (bucketTick acc (s.rf a lo 16) rate (s.rf b lo' 16)).2 < 2 ^ 16 :=
    bucketTick_tokens_lt _ _ (rf_lt _ _ _ _) (rf_lt _ _ _ _)
  exact setTokens_tokens h (hlt _ _ _ _ _ _) (hlt _ _ _ _ _ _) (hlt _ _ _ _ _ _)

/-- R123: a token of the stack whose bucket stands at bit `lo` and a global one are taken. -/
def takeTokens (s : State) (lo : Nat) : State :=
  (s.wf 0x0300F00C lo 16 (s.rf 0x0300F00C lo 16 - 1)).wf 0x0300F010 0 16 (s.rf 0x0300F010 0 16 - 1)

theorem takeTokens_tokens {s : State} (h : regWf s.regs = true) {lo : Nat} (hlo : lo + 16 ≤ 32) :
    (takeTokens s lo).rf 0x0300F00C lo 16 = s.rf 0x0300F00C lo 16 - 1 ∧
      (∀ lo', lo' + 16 ≤ lo ∨ lo + 16 ≤ lo' → (takeTokens s lo).rf 0x0300F00C lo' 16 = s.rf 0x0300F00C lo' 16) ∧
      (takeTokens s lo).rf 0x0300F010 0 16 = s.rf 0x0300F010 0 16 - 1 ∧ Kept s (takeTokens s lo) [0x0300F00C, 0x0300F010] := by
  have hw := wf_wf h 0x0300F00C lo 16 (s.rf 0x0300F00C lo 16 - 1)
  refine ⟨?_, fun lo' hd => ?_, rf_wf_of_lt hw _ _ _ (by omega) (rf_pred_lt _ _ _ _), ?_⟩
  · rw [takeTokens, rf_wf_elsewhere hw _ _ _ _ _ (by omega), rf_wf_of_lt h _ _ _ hlo (rf_pred_lt _ _ _ _)]
  · rw [takeTokens, rf_wf_elsewhere hw _ _ _ _ _ (by omega), rf_wf_other h _ _ _ _ _ _ hd]
  · exact kept_wf (kept_wf (kept_refl _ _) h (.head _) _ _ _) hw (.tail _ (.head _)) _ _ _

/-- R123: the state after the admission of read `r` at a port. -/
def readAdmitted (s : State) (port : Nat) (r : FRead) : State :=
  { takeTokens s (if stackOf r.addr = 0 then 0 else 16) with
    reads := s.reads.map (fun x => if x = r then { x with admitted := true } else x)
    hbpCk := tput 0 s.hbpCk port (s.ck + 1) }

theorem portAdmit_granted {s : State} {port : Nat} {r : FRead} (hc : s.candidate port = some r)
    (hg : (grantReads (((List.range 16).filterMap s.candidate).foldl (fun l r => insertRead r l) []) (s.rf 0x0300F00C 0 16)
      (s.rf 0x0300F00C 16 16) (s.rf 0x0300F010 0 16)).contains r = true) : s.portAdmit port = readAdmitted s port r := by
  simp only [State.portAdmit, hc, hg, if_true, readAdmitted]
  split <;> rfl

/-- R123: an admission takes a token of the stack's bucket and one of the global bucket. -/
theorem readAdmitted_tokens {s : State} (h : regWf s.regs = true) (port : Nat) (r : FRead) :
    (readAdmitted s port r).rf 0x0300F00C 0 16 = s.rf 0x0300F00C 0 16 - (if stackOf r.addr = 0 then 1 else 0) ∧
      (readAdmitted s port r).rf 0x0300F00C 16 16 = s.rf 0x0300F00C 16 16 - (if stackOf r.addr = 0 then 0 else 1) ∧
      (readAdmitted s port r).rf 0x0300F010 0 16 = s.rf 0x0300F010 0 16 - 1 ∧
      Kept s (readAdmitted s port r) [0x0300F00C, 0x0300F010] := by
  by_cases hst : stackOf r.addr = 0
  · obtain ⟨hA, hB, hG, hK⟩ := takeTokens_tokens h (lo := 0) (by omega)
    simp only [readAdmitted, hst, if_true]
    exact ⟨hA, hB 16 (by omega), hG, hK⟩
  · obtain ⟨hB, hA, hG, hK⟩ := takeTokens_tokens h (lo := 16) (by omega)
    simp only [readAdmitted, hst, if_false]
    exact ⟨hA 0 (by omega), hB, hG, hK⟩

/-! ## What a memory tile holds -/

theorem mtile_modMt {s : State} (h : twf {} s.mt = true) (stop : Nat) (f : Mt → Mt) : (s.modMt stop f).mtile stop = f (s.mtile stop) :=
  tget_tput_same h _ _

theorem modMt_wf {s : State} (h : twf {} s.mt = true) (stop : Nat) (f : Mt → Mt) : twf {} (s.modMt stop f).mt = true := tput_wf h

theorem qx_modQx {s : State} (h : twf {} s.mt = true) (stop q : Nat) {f : QX → QX} (hf : f (s.qx stop q) ≠ {}) :
    (s.modQx stop q f).qx stop q = f (s.qx stop q) := by
  rw [State.qx, State.modQx, mtile_modMt h]
  exact tget_tput_of_ne_default _ _ hf

theorem strm_setStrm_same {s : State} (h : twf {} s.mt = true) (stop k : Nat) {x : Strm} (hx : x ≠ {}) :
    (s.setStrm stop k x).strm stop k = x := by
  rw [State.strm, State.setStrm, mtile_modMt h]
  exact tget_tput_of_ne_default _ _ hx

theorem strm_setStrm_other {s : State} (h : twf {} s.mt = true) (stop : Nat) {j k : Nat} (x : Strm) (hj : j ≠ k) :
    (s.setStrm stop k x).strm stop j = s.strm stop j := by
  rw [State.strm, State.setStrm, mtile_modMt h]
  exact tget_tput_ne _ _ hj

theorem strm_ne_default_of_next {x : Strm} (h : x.next ≠ 0) : x ≠ {} := by rintro rfl; exact h rfl

theorem strm_ne_default_of_resvEnd {x : Strm} (h : x.resvEnd ≠ 0) : x ≠ {} := by rintro rfl; exact h rfl

/-! ## What the fetch engine does for a slot -/

/-- From s to t nothing has changed that the fetch engine looks at for slot `j` of a memory tile: descriptor, status, progress, and
the ring writers. -/
structure SameSlot (s t : State) (stop j : Nat) : Prop where
  desc : ∀ off, 0x2000 ≤ off → off < 0x2400 → t.rd (reg stop off) = s.rd (reg stop off)
  stat : t.rd (sstat stop j) = s.rd (sstat stop j)
  writer : ∀ off, 0x3100 ≤ off → t.rd (reg stop off) = s.rd (reg stop off)
  wrt : (t.mtile stop).wrt = (s.mtile stop).wrt
  strm : t.strm stop j = s.strm stop j

theorem sdesc_congr {s t : State} {stop j : Nat} (hj : j < 16)
    (h : ∀ off, 0x2000 ≤ off → off < 0x2400 → t.rd (reg stop off) = s.rd (reg stop off)) : t.sdesc stop j = s.sdesc stop j := by
  have hraw : (List.range 16).foldl (fun (b : BitVec 512) w =>
        b ||| ((t.rd (reg stop (0x2000 + 0x40 * j + 4 * w))).setWidth 512 <<< (32 * w))) 0 =
      (List.range 16).foldl (fun (b : BitVec 512) w =>
        b ||| ((s.rd (reg stop (0x2000 + 0x40 * j + 4 * w))).setWidth 512 <<< (32 * w))) 0 := by
    refine List.foldl_rel (r := Eq) rfl fun w hw b c hbc => ?_
    have hw := List.mem_range.mp hw
    rw [hbc, h _ (by omega) (by omega)]
  simp only [State.sdesc, hraw]

theorem feNext_congr {s t : State} {stop j : Nat} (hj : j < 16) (h : SameSlot s t stop j) : t.feNext stop j = s.feNext stop j := by
  have hdesc := sdesc_congr hj h.desc
  have hw (k off : Nat) : t.rd (rwReg stop k off) = s.rd (rwReg stop k off) := h.writer _ (by omega)
  have hwf (k off lo n : Nat) : t.rf (rwReg stop k off) lo n = s.rf (rwReg stop k off) lo n := by simp only [State.rf, hw]
  have hwflag (k off i : Nat) : t.flag (rwReg stop k off) i = s.flag (rwReg stop k off) i := by simp only [State.flag, hw]
  have hwrt (k : Nat) : t.wrt stop k = s.wrt stop k := by simp only [State.wrt, h.wrt]
  have htakes : t.dstTakes stop (s.sdesc stop j) = s.dstTakes stop (s.sdesc stop j) := by
    simp only [State.dstTakes, State.writerOf, State.writerTakes, hwf, hwflag, hwrt]
  have hactive (i : Nat) : t.flag (sstat stop j) i = s.flag (sstat stop j) i := by simp only [State.flag, h.stat]
  have hflight : t.rf (sstat stop j) 8 8 = s.rf (sstat stop j) 8 8 := by simp only [State.rf, h.stat]
  simp only [State.feNext, hdesc, h.strm, hactive, hflight, htakes]

theorem perCell_mul_esize (s : State) (stop k : Nat) : (s.sdesc stop k).perCell * (s.sdesc stop k).esize = 64 := by
  have sizes : ∀ n, 64 / [1, 2, 4, 64].getD n 1 * [1, 2, 4, 64].getD n 1 = 64
    | 0 | 1 | 2 | 3 => rfl
    | _ + 4 => by simp
  exact sizes _

/-- A cell some element of which is missing is one of its packet. -/
theorem cell_ne_pktCells {d : Desc} (hd : d.perCell * d.esize = 64) {data : Tbl (List Byte)} {j i : Nat}
    (h : d.cellBytes data j i = none) : i ≠ d.pktCells := by
  rintro rfl
  have hall : d.perPacket ≤ d.pktCells * d.perCell := by
    refine Nat.le_of_mul_le_mul_right (c := d.esize) ?_ (Nat.pos_of_ne_zero fun h0 => by simp [h0] at hd)
    rw [Nat.mul_assoc, hd, Desc.pktCells]
    omega
  have hnone : min d.perCell (d.perPacket - d.pktCells * d.perCell) = 0 := by rw [Nat.sub_eq_zero_of_le hall, Nat.min_zero]
  simp [Desc.cellBytes, hnone] at h

/-- R119: a slot that goes on and whose next cell has elements still to come has nothing to do at FE. -/
theorem feNext_idle_of_missing {s : State} {stop k : Nat} (hstop : (s.strm stop k).stopping = 0)
    (hpkt : (s.strm stop k).pkt * (s.sdesc stop k).perPacket < (s.sdesc stop k).total)
    (hcell : (s.sdesc stop k).cellBytes (s.strm stop k).data (s.strm stop k).pkt (s.strm stop k).cell = none) :
    s.feNext stop k = .idle := by
  have hne := cell_ne_pktCells (perCell_mul_esize s stop k) hcell
  simp [State.feNext, hstop, hcell, hne, Nat.not_le.mpr hpkt]

theorem feRun_of_idle {s : State} {stop : Nat} (h : ∀ j < 16, s.feNext stop j = .idle) : s.feRun stop = s := by
  have hnone : (List.range 16).find? (fun k => s.feNext stop k != .idle && !((s.feNext stop k).pushes && (s.mtile stop).cy.fe)) = none :=
    List.find?_eq_none.mpr fun j hj => by simp [h j (List.mem_range.mp hj)]
  rw [State.feRun, State.fePump]
  simp only [hnone]

/-- R119: with its elements `data`, `p` of them new, slot k has no complete cell to push, or nothing is new; the other slots have
nothing to do at FE. -/
def CompletesNoCell (s : State) (stop k p : Nat) (d : Desc) (x : Strm) (data : Tbl (List Byte)) : Prop :=
  p = 0 ∨ (x.pkt * d.perPacket < d.total ∧ d.cellBytes data x.pkt x.cell = none ∧ ∀ j < 16, j ≠ k → s.feNext stop j = .idle)

/-- From s to t the state is in canonical form and only slot k of a memory tile has moved on, with its own registers and registers
below the descriptors. -/
structure SlotMoves (s t : State) (stop k : Nat) : Prop where
  regs : regWf t.regs = true
  mt : twf {} t.mt = true
  rd : ∀ off, 0x2000 ≤ off → off ≠ 0x2404 + 16 * k → off ≠ 0x2408 + 16 * k → t.rd (reg stop off) = s.rd (reg stop off)
  wrt : (t.mtile stop).wrt = (s.mtile stop).wrt
  strm : ∀ j, j ≠ k → t.strm stop j = s.strm stop j

namespace SlotMoves

variable {s t : State} {stop k : Nat}

theorem refl (h : Form s) : SlotMoves s s stop k := ⟨h.regs, h.mt, fun _ _ _ _ => rfl, rfl, fun _ _ => rfl⟩

theorem wf (h : SlotMoves s t stop k) {off : Nat} (hoff : off < 0x2000 ∨ off = 0x2404 + 16 * k ∨ off = 0x2408 + 16 * k) (lo n v : Nat) :
    SlotMoves s (t.wf (reg stop off) lo n v) stop k where
  regs := wf_wf h.regs _ _ _ _
  mt := h.mt
  rd o ho h4 h8 := by
    have hne : reg stop o ≠ reg stop off := by simp only [ne_eq, reg_inj]; omega
    rw [rd_wf_other h.regs _ _ _ hne, h.rd o ho h4 h8]
  wrt := h.wrt
  strm := h.strm

theorem setStrm (h : SlotMoves s t stop k) (x : Strm) : SlotMoves s (t.setStrm stop k x) stop k where
  regs := h.regs
  mt := modMt_wf h.mt _ _
  rd := h.rd
  wrt := by rw [State.setStrm, mtile_modMt h.mt]; exact h.wrt
  strm j hj := by rw [strm_setStrm_other h.mt _ _ hj, h.strm j hj]

theorem setReads (h : SlotMoves s t stop k) (rs : List FRead) : SlotMoves s { t with reads := rs } stop k :=
  ⟨h.regs, h.mt, h.rd, h.wrt, h.strm⟩

theorem sdesc (h : SlotMoves s t stop k) {j : Nat} (hj : j < 16) : t.sdesc stop j = s.sdesc stop j :=
  sdesc_congr hj fun off h1 h2 => h.rd off h1 (by omega) (by omega)

theorem sameSlot (h : SlotMoves s t stop k) (hk : k < 16) {j : Nat} (hj : j ≠ k) (hj16 : j < 16) : SameSlot s t stop j where
  desc off h1 h2 := h.rd off h1 (by omega) (by omega)
  stat := h.rd _ (by omega) (by omega) (by omega)
  writer off h1 := h.rd off (by omega) (by omega) (by omega)
  wrt := h.wrt
  strm := h.strm j hj

/-- The engine pushes nothing where slot k goes on and lacks elements of its next cell and the other slots had nothing to do. -/
theorem feRun (h : SlotMoves s t stop k) (hk : k < 16) {d : Desc} {x : Strm} (hd : s.sdesc stop k = d) (hx : t.strm stop k = x)
    (hstop : x.stopping = 0) (hpkt : x.pkt * d.perPacket < d.total) (hcell : d.cellBytes x.data x.pkt x.cell = none)
    (hidle : ∀ j < 16, j ≠ k → s.feNext stop j = .idle) : t.feRun stop = t := by
  subst hx
  rw [← hd, ← h.sdesc hk] at hpkt hcell
  refine feRun_of_idle fun j hj => ?_
  by_cases hjk : j = k
  · rw [hjk]
    exact feNext_idle_of_missing hstop hpkt hcell
  · rw [feNext_congr hj (h.sameSlot hk hjk hj), hidle j hj hjk]

/-- R118: padded elements next in turn are at hand without a read, and nothing else changes, where they complete no cell. -/
theorem takePads (h : SlotMoves s t stop k) (hk : k < 16) {d : Desc} {x : Strm} {p : Nat} {data : Tbl (List Byte)}
    (hd : s.sdesc stop k = d) (hx : t.strm stop k = x) (hstop : x.stopping = 0) (hresv : x.resvEnd ≠ 0)
    (hp : d.padRun x.next (x.resvEnd - x.next) = p)
    (hdata : tputAll [] x.data ((List.range p).map fun i => (x.next + i, List.replicate d.esize d.padValue)) = data)
    (hrest : CompletesNoCell s stop k p d x data) :
    (t.takePads stop k).strm stop k = { x with next := x.next + p, data := data } ∧
      t.takePads stop k = { t with mt := (t.takePads stop k).mt } := by
  have hdt := (h.sdesc hk).trans hd
  by_cases hp0 : p = 0
  · subst hp0 hdata
    have hself : t.takePads stop k = t := by simp only [State.takePads, hdt, hx, hp, if_true]
    rw [hself]
    exact ⟨hx, rfl⟩
  · obtain ⟨hpkt, hcell, hidle⟩ := hrest.resolve_left hp0
    have hx' := strm_setStrm_same h.mt stop k (x := { x with next := x.next + p, data := data }) (strm_ne_default_of_resvEnd hresv)
    have hrun : t.takePads stop k = t.setStrm stop k { x with next := x.next + p, data := data } := by
      simp only [State.takePads, hdt, hx, hp, hp0, if_false, hdata]
      exact (h.setStrm _).feRun hk hd hx' hstop hpkt hcell hidle
    rw [hrun]
    exact ⟨hx', rfl⟩

end SlotMoves

/-! ## Reserving a packet in a queue -/

/-- R121: the state in which a slot has reserved its next packet in its queue. -/
def reservedIn (s : State) (stop k : Nat) (d : Desc) (x : Strm) : State :=
  (s.setQf stop d.dstQ 0x10 16 16 (s.qResv stop d.dstQ + d.pktCells)).setStrm stop k
    { x with resvEnd := x.next + d.perPacket, resv := x.resv + d.pktCells }

/-- R121: a slot of the tile's epoch that neither stops nor waits for a handle, has issued its reads and has elements left may reserve
its next packet. -/
structure MayReserve (s : State) (stop k : Nat) (d : Desc) (x : Strm) : Prop where
  active : s.flag (sstat stop k) 0 = true
  desc : s.sdesc stop k = d
  strm : s.strm stop k = x
  epoch : d.epoch = s.epochOf stop
  goes : x.stopping = 0
  free : x.popping = false
  issued : x.resvEnd ≤ x.next
  left : x.next < d.total

theorem reserve_inQueue {s : State} {stop k : Nat} {d : Desc} {x : Strm} (h : MayReserve s stop k d x) (hq : d.toBuf = false)
    (hroom : s.qLevel stop d.dstQ + (s.qx stop d.dstQ).behind false + s.qOpenLen stop d.dstQ + s.qResv stop d.dstQ + d.pktCells ≤
      s.qLimit stop d.dstQ) : s.reserve stop k = (reservedIn s stop k d x).takePads stop k := by
  simp [State.reserve, reservedIn, h.active, h.desc, h.strm, h.epoch, h.goes, h.free, Nat.not_lt.mpr h.issued, Nat.not_le.mpr h.left, hq,
    hroom]

theorem dstQ_lt (s : State) (stop k : Nat) : (s.sdesc stop k).dstQ < 64 := BitVec.isLt _

theorem foldl_mul_zero (l : List Nat) : l.foldl (· * ·) 0 = 0 :=
  List.foldlRecOn (motive := fun n => n = 0) l _ rfl fun n hn a _ => by rw [hn, Nat.zero_mul]

/-- A stream with elements has some in every packet. -/
theorem perPacket_pos_of_total_pos {d : Desc} (h : 0 < d.total) : 0 < d.perPacket := by
  have hsplit : d.total = (d.counts.drop (d.pktDim + 1)).foldl (· * ·) d.perPacket := by
    rw [Desc.perPacket, ← List.foldl_append, List.take_append_drop, Desc.total]
  refine Nat.pos_of_ne_zero fun h0 => ?_
  rw [hsplit, h0, foldl_mul_zero] at h
  exact Nat.lt_irrefl 0 h

theorem slotMoves_reservedIn {s : State} (h : Form s) (stop k : Nat) {d : Desc} (hq : d.dstQ < 64) (x : Strm) :
    SlotMoves s (reservedIn s stop k d x) stop k :=
  ((SlotMoves.refl h).wf (.inl (by omega)) _ _ _).setStrm _

/-- R118, R121: a packet reserved in its queue, with the padded elements that it begins with at hand. -/
theorem reserve_inQueue_effect {s : State} {stop k p : Nat} {d : Desc} {x : Strm} {data : Tbl (List Byte)} (h : Form s) (hk : k < 16)
    (hmay : MayReserve s stop k d x) (hq : d.toBuf = false)
    (hroom : s.qLevel stop d.dstQ + (s.qx stop d.dstQ).behind false + s.qOpenLen stop d.dstQ + s.qResv stop d.dstQ + d.pktCells ≤
      s.qLimit stop d.dstQ)
    (hp : d.padRun x.next d.perPacket = p)
    (hdata : tputAll [] x.data ((List.range p).map fun i => (x.next + i, List.replicate d.esize d.padValue)) = data)
    (hrest : CompletesNoCell s stop k p d x data) :
    (s.reserve stop k).qResv stop d.dstQ = s.qResv stop d.dstQ + d.pktCells ∧
      (s.reserve stop k).strm stop k =
        { x with next := x.next + p, resvEnd := x.next + d.perPacket, resv := x.resv + d.pktCells, data := data } ∧
      Kept s (s.reserve stop k) [qReg stop d.dstQ 0x10] ∧
      s.reserve stop k = { s with regs := (s.reserve stop k).regs, mt := (s.reserve stop k).mt } := by
  have hpos := perPacket_pos_of_total_pos (Nat.zero_lt_of_lt hmay.left)
  have hresv : x.next + d.perPacket ≠ 0 := by omega
  have hprog : (reservedIn s stop k d x).strm stop k = { x with resvEnd := x.next + d.perPacket, resv := x.resv + d.pktCells } :=
    strm_setStrm_same h.mt _ _ (strm_ne_default_of_resvEnd hresv)
  have hlen : x.next + d.perPacket - x.next = d.perPacket := Nat.add_sub_cancel_left _ _
  have hmoves := slotMoves_reservedIn h stop k (hmay.desc ▸ dstQ_lt s stop k) x
  obtain ⟨hstrm, hframe⟩ := hmoves.takePads hk hmay.desc hprog hmay.goes hresv (hlen.symm ▸ hp) hdata hrest
  have hlimit : s.qLimit stop d.dstQ < 2 ^ 16 := rf_lt _ _ _ _
  rw [reserve_inQueue hmay hq hroom]
  refine ⟨?_, hstrm, ?_, ?_⟩
  all_goals rw [hframe]
  · exact rf_wf_of_lt h.regs _ _ _ (by omega) (by omega)
  · exact kept_wf (kept_refl s _) h.regs (.head _) _ _ _
  · rfl

/-! ## Issuing a read -/

theorem slotReady_of_chooseSlot {s : State} {stop k : Nat} (h : s.chooseSlot stop = some k) : k < 16 ∧ s.slotReady stop k = true := by
  have hmem : ∀ k, s.chooseSlot stop = some k → k ∈ (List.range 16).filter (s.slotReady stop) := by
    unfold State.chooseSlot
    refine List.foldlRecOn (motive := fun b => ∀ k, b = some k → k ∈ (List.range 16).filter (s.slotReady stop)) _ _ (by simp) ?_
    intro b hb k hk j hj
    cases b with
    | none => cases hj; exact hk
    | some i =>
      simp only at hj
      split at hj
      · cases hj; exact hk
      · exact hb j hj
  simpa using hmem k h

theorem padRun_of_addr {d : Desc} {e : Nat} {a : Int} (h : d.addr e = some a) (n : Nat) : d.padRun e n = 0 := by
  cases n <;> simp [Desc.padRun, h]

/-- R122: the state in which the engine has issued a read for slot k, whose progress is then `x`. -/
def readIssued (s : State) (stop k : Nat) (x : Strm) (r : FRead) : State :=
  { ((s.setStrm stop k x).wf (sstat stop k) 8 8 (s.rf (sstat stop k) 8 8 + 1)).wf (reg stop (0x2408 + 16 * k)) 0 24 r.key with
    reads := s.reads ++ [r] }

/-- R116, R122: the read that the engine issues for n elements from `x.next` on, the first of which lies at address a. -/
def readOf (s : State) (stop k : Nat) (x : Strm) (n : Nat) (a : Int) : FRead :=
  { stop := stop, slot := k, el := x.next, n := n, addr := (a / 64).toNat * 64, key := s.slotKey stop k, admitted := false }

theorem issueRead_eq {s : State} {stop k n : Nat} {a : Int} {d : Desc} {x : Strm}
    (hsum : ((List.range 16).map fun j => s.rf (sstat stop j) 8 8).sum < 128) (hk : s.chooseSlot stop = some k) (hd : s.sdesc stop k = d)
    (hx : s.strm stop k = x) (hnext : x.next < x.resvEnd) (ha : d.addr x.next = some a) (h0 : 0 ≤ a) (hend : a < 0xC00000000)
    (hn : d.blockRun (a / 64) x.next (x.resvEnd - x.next) = n) :
    s.issueRead stop = (readIssued s stop k { x with next := x.next + n } (readOf s stop k x n a)).takePads stop k := by
  have hpads : s.takePads stop k = s := by simp only [State.takePads, hd, hx, padRun_of_addr ha, if_true]
  have hin : ¬ (hbmEnd : Int) ≤ a := Int.not_le.mpr hend
  have hgood : addrBad a = false := by simp [addrBad, h0, hin]
  simp only [State.issueRead, Nat.not_le.mpr hsum, if_false, hk, hpads, hd, hx, hnext, if_true, ha, hgood, Bool.false_eq_true, hn]
  rfl

theorem slotKey_lt (s : State) (stop k : Nat) : s.slotKey stop k < 2 ^ 24 := by
  simp only [State.slotKey, streamKey]
  split <;> omega

theorem slotMoves_readIssued {s : State} (h : Form s) (stop k : Nat) (x : Strm) (r : FRead) :
    SlotMoves s (readIssued s stop k x r) stop k :=
  ((((SlotMoves.refl h).setStrm x).wf (.inr (.inl rfl)) _ _ _).wf (.inr (.inr rfl)) _ _ _).setReads _

/-- A read issued is counted in its slot's status, and the slot's key recorded beside it. -/
theorem readIssued_registers {s : State} (h : Form s) {stop k : Nat} (x : Strm) {r : FRead} (hcount : s.rf (sstat stop k) 8 8 < 128)
    (hkey : r.key < 2 ^ 24) :
    (readIssued s stop k x r).rf (sstat stop k) 8 8 = s.rf (sstat stop k) 8 8 + 1 ∧
      (readIssued s stop k x r).rf (reg stop (0x2408 + 16 * k)) 0 24 = r.key ∧
      Kept s (readIssued s stop k x r) [sstat stop k, reg stop (0x2408 + 16 * k)] := by
  have h1 := wf_wf h.regs (sstat stop k) 8 8 (s.rf (sstat stop k) 8 8 + 1)
  have hne : sstat stop k ≠ reg stop (0x2408 + 16 * k) := by simp only [sstat, ne_eq, reg_inj]; omega
  refine ⟨?_, rf_wf_of_lt h1 _ _ _ (by omega) hkey,
    kept_wf (kept_wf (kept_refl s _) h.regs (.head _) _ _ _) h1 (.tail _ (.head _)) _ _ _⟩
  exact (rf_wf_elsewhere h1 _ _ _ _ _ hne).trans (rf_wf_of_lt h.regs _ _ _ (by omega) (by omega))

/-- R122: with fewer than 128 reads of the tile in flight, each slot has fewer. -/
theorem slotFlight_lt {s : State} {stop k : Nat} (hsum : ((List.range 16).map fun j => s.rf (sstat stop j) 8 8).sum < 128) (hk : k < 16) :
    s.rf (sstat stop k) 8 8 < 128 := by
  have hmem : s.rf (sstat stop k) 8 8 ∈ (List.range 16).map fun j => s.rf (sstat stop j) 8 8 :=
    List.mem_map.mpr ⟨k, List.mem_range.mpr hk, rfl⟩
  obtain ⟨before, after, hparts⟩ := List.append_of_mem hmem
  rw [hparts, List.sum_append_nat, List.sum_cons] at hsum
  omega

/-- R116, R118, R122: a read issued for the slot that the engine chooses, with the padded elements after it at hand. -/
theorem issueRead_effect {s : State} {stop k n p : Nat} {a : Int} {d : Desc} {x : Strm} {data : Tbl (List Byte)} (h : Form s)
    (hsum : ((List.range 16).map fun j => s.rf (sstat stop j) 8 8).sum < 128) (hchoose : s.chooseSlot stop = some k)
    (hd : s.sdesc stop k = d) (hx : s.strm stop k = x) (ha : d.addr x.next = some a) (h0 : 0 ≤ a) (hend : a < 0xC00000000)
    (hn : d.blockRun (a / 64) x.next (x.resvEnd - x.next) = n) (hp : d.padRun (x.next + n) (x.resvEnd - (x.next + n)) = p)
    (hdata : tputAll [] x.data ((List.range p).map fun i => (x.next + n + i, List.replicate d.esize d.padValue)) = data)
    (hrest : CompletesNoCell s stop k p d x data) :
    (s.issueRead stop).reads = s.reads ++ [readOf s stop k x n a] ∧
      (s.issueRead stop).strm stop k = { x with next := x.next + n + p, data := data } ∧
      (s.issueRead stop).rf (sstat stop k) 8 8 = s.rf (sstat stop k) 8 8 + 1 ∧
      (s.issueRead stop).rf (reg stop (0x2408 + 16 * k)) 0 24 = s.slotKey stop k ∧
      Kept s (s.issueRead stop) [sstat stop k, reg stop (0x2408 + 16 * k)] ∧
      s.issueRead stop =
        { s with regs := (s.issueRead stop).regs, mt := (s.issueRead stop).mt, reads := (s.issueRead stop).reads } := by
  obtain ⟨hk, hready⟩ := slotReady_of_chooseSlot hchoose
  simp only [State.slotReady, hx, Bool.and_eq_true, beq_iff_eq, decide_eq_true_eq] at hready
  obtain ⟨⟨-, hgoes⟩, hnext⟩ := hready
  have hresv : x.resvEnd ≠ 0 := by omega
  have hprog : (readIssued s stop k { x with next := x.next + n } (readOf s stop k x n a)).strm stop k = { x with next := x.next + n } :=
    strm_setStrm_same h.mt _ _ (strm_ne_default_of_resvEnd hresv)
  have hmoves := slotMoves_readIssued h stop k { x with next := x.next + n } (readOf s stop k x n a)
  obtain ⟨hstrm, hframe⟩ := hmoves.takePads hk hd hprog hgoes hresv hp hdata hrest
  obtain ⟨hflight, hkey, hkept⟩ := readIssued_registers h { x with next := x.next + n } (r := readOf s stop k x n a)
    (slotFlight_lt hsum hk) (slotKey_lt s stop k)
  rw [issueRead_eq hsum hchoose hd hx hnext ha h0 hend hn]
  refine ⟨?_, hstrm, ?_, ?_, ?_, ?_⟩
  all_goals rw [hframe]
  · rfl
  · exact hflight
  · exact hkey
  · exact hkept
  · rfl

/-! ## The return of a read -/

theorem hbmErrors_of_clean {s : State} (hue : s.hbm.ue = []) (hce : s.hbm.ce = []) (a : Nat) : s.hbmErrors a = s := by
  unfold State.hbmErrors
  refine List.foldlRecOn (motive := fun t => t = s) (List.range 8) _ rfl fun t ht i _ => ?_
  simp only [ht, hue, hce, List.not_mem_nil, if_false]

theorem hbmGet_of_clean {s : State} (hue : s.hbm.ue = []) (a n : Nat) :
    s.hbmGet a n = (List.range n).map fun b => tget 0 s.hbm.bytes (a + b) := by simp [State.hbmGet, hue]

/-- The state in which the i-th read has returned, with its slot's progress then `x`. -/
def readBack (s : State) (i : Nat) (r : FRead) (x : Strm) : State :=
  ({ s with reads := s.reads.eraseIdx i }.setStrm r.stop r.slot x).wf (sstat r.stop r.slot) 8 8 (s.rf (sstat r.stop r.slot) 8 8 - 1)

theorem slotMoves_readBack {s : State} (h : Form s) (i : Nat) (r : FRead) (x : Strm) :
    SlotMoves s (readBack s i r x) r.stop r.slot :=
  (((SlotMoves.refl h).setReads _).setStrm x).wf (.inr (.inl rfl)) _ _ _

theorem readReturn_eq {s : State} {i : Nat} {r : FRead} {d : Desc} {x : Strm} {got : List (Nat × List Byte)} (hr : s.reads[i]? = some r)
    (hadm : r.admitted = true) (hue : s.hbm.ue = []) (hce : s.hbm.ce = []) (hd : s.sdesc r.stop r.slot = d) (hx : s.strm r.stop r.slot = x)
    (hgot : ((List.range r.n).map fun j => (r.el + j, (((List.range 64).map fun b => tget 0 s.hbm.bytes (r.addr + b)).drop
      (((d.addr (r.el + j)).getD 0).toNat % 64)).take d.esize)) = got) :
    s.readReturn i = (readBack s i r { x with data := tputAll [] x.data got }).feRun r.stop := by
  have hok : s.hbmHasUe r.addr 64 = false := by rw [State.hbmHasUe, hue, List.any_nil]
  have herr : ({ s with reads := s.reads.eraseIdx i } : State).hbmErrors r.addr = { s with reads := s.reads.eraseIdx i } :=
    hbmErrors_of_clean (s := { s with reads := s.reads.eraseIdx i }) hue hce _
  simp only [State.readReturn, takeAt, hr, Option.map_some, hadm, Bool.not_true, Bool.false_eq_true, if_false, hok, herr, hd, hx,
    hbmGet_of_clean hue, hgot]
  rfl

/-! ## Taking a handle from a free list -/

theorem qFaultIf_false (s : State) (stop q : Nat) : s.qFaultIf stop q false = s := rfl

theorem spillPump_of_none {s : State} {stop q : Nat} (h : (s.qx stop q).spill = none) : s.spillPump stop q = s := by
  have henter : s.enterSpilled stop q = s := by simp only [State.enterSpilled, h]
  simp only [State.spillPump, henter, h]

/-- A credit changes nothing but the flits in the mesh. -/
theorem qCredit_eq (s : State) (stop q n : Nat) : s.qCredit stop q n = { s with mesh := (s.qCredit stop q n).mesh } := by
  simp only [State.qCredit, State.credit]
  split <;> rfl

/-- R107, R110: a pop finds the head of a queue that is enabled, has not failed and holds something. -/
theorem headReady_of_holds {s : State} {stop q : Nat} (h : Holds s stop q) : s.headReady stop q = (s, true) := by
  simp [State.headReady, h.on, h.side, qFaultIf_false, h.good, h.some]

/-- What the registers of a handle queue show of its ends leaves its level. -/
theorem handleEnds_level {s : State} (h : regWf s.regs = true) (stop q : Nat) :
    (s.handleEnds stop q).qLevel stop q = s.qLevel stop q := by
  have hne (off : Nat) (hoff : off ≠ 0x10) : qReg stop q 0x10 ≠ qReg stop q off := by simp only [qReg, ne_eq, reg_inj]; omega
  have h1 := wf_wf h (qReg stop q 8) 0 16 ((s.qx stop q).slots.headD 0 / 8)
  have h2 := wf_wf h1 (qReg stop q 8) 16 16 ((s.qx stop q).slots.getLastD 0 / 8)
  refine (rf_wf_elsewhere h2 _ _ _ _ _ (hne 0x14 (by omega))).trans ?_
  exact (rf_wf_elsewhere h1 _ _ _ _ _ (hne 8 (by omega))).trans (rf_wf_elsewhere h _ _ _ _ _ (hne 8 (by omega)))

/-- From s to t the head handle of a queue of a memory tile has left it: the streams and the accesses through MO are as before, nothing
spills and no side entry fails. -/
structure HandleGone (s t : State) (stop q : Nat) : Prop where
  regs : regWf t.regs = true
  mt : twf {} t.mt = true
  level : t.qLevel stop q = s.qLevel stop q - 1
  slots : (t.qx stop q).slots = (s.qx stop q).slots.drop 1
  spill : (t.qx stop q).spill = none
  side : (t.mtile stop).sideUe = []
  mo : (t.mtile stop).cy.mo = (s.mtile stop).cy.mo
  strm : (t.mtile stop).strm = (s.mtile stop).strm

namespace HandleGone

variable {s t : State} {stop q : Nat}

theorem freeCells (h : HandleGone s t stop q) (cells : List Nat) : HandleGone s (t.freeCells stop q cells) stop q := by
  have hm := mtile_modMt h.mt stop fun m => { m with cy := { m.cy with frees := cells.foldl (fun l c => insertFree q c l) m.cy.frees } }
  have hq : ((t.freeCells stop q cells).qx stop q) = t.qx stop q := by rw [State.qx, State.freeCells, hm]; rfl
  exact ⟨h.regs, modMt_wf h.mt _ _, h.level, by rw [hq, h.slots], by rw [hq, h.spill], by rw [State.freeCells, hm, h.side],
    by rw [State.freeCells, hm, h.mo], by rw [State.freeCells, hm, h.strm]⟩

theorem qCredit (h : HandleGone s t stop q) (n : Nat) : HandleGone s (t.qCredit stop q n) stop q := by
  rw [qCredit_eq]
  exact ⟨h.regs, h.mt, h.level, h.slots, h.spill, h.side, h.mo, h.strm⟩

theorem handleEnds (h : HandleGone s t stop q) : HandleGone s (t.handleEnds stop q) stop q where
  regs := wf_wf (wf_wf (wf_wf h.regs _ _ _ _) _ _ _ _) _ _ _ _
  mt := h.mt
  level := (handleEnds_level h.regs stop q).trans h.level
  slots := h.slots
  spill := h.spill
  side := h.side
  mo := h.mo
  strm := h.strm

/-- The queue's credit and the ends that its registers show follow; nothing is restored and no entry fails. -/
theorem closes (h : HandleGone s t stop q) (n : Nat) {bad : Bool} (hbad : bad = false) :
    HandleGone s ((((t.qCredit stop q n).handleEnds stop q).spillPump stop q).qFaultIf stop q bad) stop q := by
  have hends := (h.qCredit n).handleEnds
  rw [spillPump_of_none hends.spill, hbad]
  exact hends

end HandleGone

/-- R111: the head handle, at place `l`, has left its queue, whose level is one lower and which holds those at `left`. -/
def headTaken (s : State) (stop q l : Nat) (left : List Nat) : State :=
  ((s.setQf stop q 0x10 0 16 (s.qLevel stop q - 1)).setQf stop q 0x14 0 16 (s.qf stop q 0x14 0 16 - 1)).modQx stop q fun x =>
    { x with slots := left, tags := x.tags.drop 1, pops := x.pops + 1, restored := x.restored.erase l, filled := x.filled.erase l }

theorem handleGone_headTaken {s : State} {stop q : Nat} (h : Form s) (hq : Holds s stop q) (l : Nat) :
    HandleGone s (headTaken s stop q l ((s.qx stop q).slots.drop 1)) stop q := by
  have h1 := wf_wf h.regs (qReg stop q 0x10) 0 16 (s.qLevel stop q - 1)
  have hqx := qx_modQx (s := (s.setQf stop q 0x10 0 16 (s.qLevel stop q - 1)).setQf stop q 0x14 0 16 (s.qf stop q 0x14 0 16 - 1)) h.mt
    stop q (f := fun x => { x with slots := (s.qx stop q).slots.drop 1, tags := x.tags.drop 1, pops := x.pops + 1,
                                   restored := x.restored.erase l, filled := x.filled.erase l })
    fun e => absurd (congrArg QX.pops e) (Nat.succ_ne_zero _)
  have hne : qReg stop q 0x10 ≠ qReg stop q 0x14 := by simp only [qReg, ne_eq, reg_inj]; omega
  refine ⟨wf_wf h1 _ _ _ _, tput_wf h.mt, ?_, congrArg QX.slots hqx, (congrArg QX.spill hqx).trans hq.spill, ?_, ?_, ?_⟩
  · exact (rf_wf_elsewhere h1 _ _ _ _ _ hne).trans (rf_wf_of_lt h.regs _ _ _ (by omega) (rf_pred_lt _ _ _ _))
  · exact (congrArg Mt.sideUe (tget_tput_same h.mt _ _)).trans hq.side
  · exact congrArg (·.cy.mo) (tget_tput_same h.mt _ _)
  · exact congrArg (·.strm) (tget_tput_same h.mt _ _)

/-- R111: the head handle leaves a queue that does not spill, in a tile without a failing side entry. -/
theorem handleGone_dropHandle {s : State} {stop q : Nat} (h : Form s) (hq : Holds s stop q) :
    HandleGone s (s.dropHandle stop q) stop q := by
  have htaken := handleGone_headTaken h hq ((s.qx stop q).slots.headD 0)
  have hside := htaken.side
  simp only [headTaken] at htaken hside
  simp only [State.dropHandle, hside, List.contains_nil, Bool.and_false]
  split
  · exact htaken.closes _ (by split <;> rfl)
  · exact (htaken.freeCells _).closes _ (by split <;> rfl)

/-- R121: the state in which slot k pops the head handle of its free list through MO. -/
def handlePopping (s : State) (stop k : Nat) (d : Desc) (x : Strm) : State :=
  let tag := (s.qx stop d.freeQ).tags.headD 0
  let l := (s.qx stop d.freeQ).slots.headD 0
  ((s.dropHandle stop d.freeQ).setStrm stop k { x with popping := true }).modMt stop fun m => { m with cy := { m.cy with mo := m.cy.mo ++
    [{ cell := l / 8, lo := true, hi := false, tag := tag, use := .engine k (32 * (l % 8)) tag d.freeQ }] } }

theorem reserve_byHandle {s : State} {stop k : Nat} {d : Desc} {x : Strm} (h : MayReserve s stop k d x) (hbuf : d.toBuf = true)
    (hmo : (s.mtile stop).cy.mo = []) (hq : Holds s stop d.freeQ) : s.reserve stop k = handlePopping s stop k d x := by
  simp [State.reserve, handlePopping, h.active, h.desc, h.strm, h.epoch, h.goes, h.free, Nat.not_lt.mpr h.issued, Nat.not_le.mpr h.left,
    hbuf, hmo, hq.on, hq.good, hq.some, headReady_of_holds hq]

/-- R121: the handle has left the free list, and the engine has taken MO for it. -/
theorem handlePopping_takes {s : State} {stop k : Nat} {d : Desc} (x : Strm) (h : Form s) (hq : Holds s stop d.freeQ) :
    (handlePopping s stop k d x).qLevel stop d.freeQ = s.qLevel stop d.freeQ - 1 ∧
      ((handlePopping s stop k d x).qx stop d.freeQ).slots = (s.qx stop d.freeQ).slots.drop 1 ∧
      (handlePopping s stop k d x).strm stop k = { x with popping := true } ∧
      ((handlePopping s stop k d x).mtile stop).cy.mo = (s.mtile stop).cy.mo ++
        [{ cell := (s.qx stop d.freeQ).slots.headD 0 / 8, lo := true, hi := false, tag := (s.qx stop d.freeQ).tags.headD 0,
           use := .engine k (32 * ((s.qx stop d.freeQ).slots.headD 0 % 8)) ((s.qx stop d.freeQ).tags.headD 0) d.freeQ }] := by
  have hgone := handleGone_dropHandle h hq
  have hx : ({ x with popping := true } : Strm) ≠ {} := fun e => by simpa using congrArg Strm.popping e
  have htile := mtile_modMt hgone.mt stop fun m => { m with strm := tput {} m.strm k { x with popping := true } }
  have hpop := mtile_modMt (modMt_wf hgone.mt stop fun m => { m with strm := tput {} m.strm k { x with popping := true } }) stop
  refine ⟨hgone.level, ?_, ?_, ?_⟩
  · rw [State.qx, handlePopping, State.setStrm, hpop, htile]
    exact hgone.slots
  · rw [State.strm, handlePopping, State.setStrm, hpop, htile]
    exact tget_tput_of_ne_default _ _ hx
  · rw [handlePopping, State.setStrm, hpop, htile, ← hgone.mo]

/-! ## The obligation -/

theorem exec_fetchReserve {stop k : Nat} (hkind : kindOf stop = .mt) (hk : k < 16) (s : State) :
    exec (.fetchReserve stop k) s = .next (s.reserve stop k) := by
  change Host.Outcome.next (if kindOf stop = .mt then s.reserve stop (k % 16) else s) = _
  rw [if_pos hkind, Nat.mod_eq_of_lt hk]

theorem exec_fetchReadIssue {stop : Nat} (hkind : kindOf stop = .mt) (s : State) :
    exec (.fetchReadIssue stop) s = .next (s.issueRead stop) := by
  change Host.Outcome.next (if kindOf stop = .mt then s.issueRead stop else s) = _
  rw [if_pos hkind]

theorem exec_hbmReadAdmit {port : Nat} (hport : port < 16) (s : State) : exec (.hbmReadAdmit port) s = .next (s.portAdmit port) := by
  change Host.Outcome.next (if port < 16 then s.portAdmit port else s) = _
  rw [if_pos hport]

theorem exec_fetchReadReturn (i : Nat) (s : State) : exec (.fetchReadReturn i) s = .next (s.readReturn i) := rfl

/-- Settles O21, clause by clause: reserving in a queue and by a handle (R121), issuing a read (R116, R118, R122), admission at a port
(R123), the regulator (R124) and the return of a read (R119). -/
theorem streamsAndHbmPorts : Obligations.StreamsAndHbmPorts := by
  unfold Obligations.StreamsAndHbmPorts
  refine ⟨?inQueue, ?byHandle, ?issue, ?grant, ?tick, ?back⟩
  case inQueue =>
    intro s stop k p d x data h hstop hkind hk hflag hd hx hp hdata hrest hepoch hgoes hfree hissued hleft hq hroom
    exact ⟨_, exec_fetchReserve hkind hk s,
      reserve_inQueue_effect h hk ⟨hflag, hd, hx, hepoch, hgoes, hfree, hissued, hleft⟩ hq hroom hp hdata hrest⟩
  case byHandle =>
    intro s stop k l rest d x h hstop hkind hk hflag hd hx hepoch hgoes hfree hissued hleft hbuf hmo hq hslots
    obtain ⟨hlevel, hleftSlots, hstrm, hread⟩ := handlePopping_takes (k := k) x h hq
    refine ⟨handlePopping s stop k d x, ?_, hlevel, by rw [hleftSlots, hslots]; rfl, hstrm, by rw [hread, hmo, hslots]; rfl⟩
    rw [exec_fetchReserve hkind hk, reserve_byHandle ⟨hflag, hd, hx, hepoch, hgoes, hfree, hissued, hleft⟩ hbuf hmo hq]
  case issue =>
    intro s stop k n p a d x data h hstop hkind hsum hchoose hd hx ha h0 hend hn hp hdata hrest
    exact ⟨_, exec_fetchReadIssue hkind s, issueRead_effect h hsum hchoose hd hx ha h0 hend hn hp hdata hrest⟩
  case grant =>
    intro s port r h hport hcand hgrant
    obtain ⟨hA, hB, hG, hkept⟩ := readAdmitted_tokens h.regs port r
    refine ⟨readAdmitted s port r, ?_, hA, hB, hG, rfl, hkept, rfl⟩
    rw [exec_hbmReadAdmit hport, portAdmit_granted hcand hgrant]
  case tick =>
    intro s h
    obtain ⟨hA, hB, hG, hkept⟩ := regulator_tokens h.regs
    exact ⟨s.regulator, rfl, hA, hB, hG, rfl, rfl, rfl, hkept, rfl⟩
  case back =>
    intro s i r d x got h hr hadm hstop hslot hue hce hd hx hnext hgoes hpkt hactive hgot hcell hidle
    have hprog : (readBack s i r { x with data := tputAll [] x.data got }).strm r.stop r.slot = { x with data := tputAll [] x.data got } :=
      strm_setStrm_same h.mt _ _ (strm_ne_default_of_next hnext)
    have hrun := (slotMoves_readBack h i r { x with data := tputAll [] x.data got }).feRun hslot hd hprog hgoes hpkt hcell hidle
    refine ⟨readBack s i r { x with data := tputAll [] x.data got }, ?_, rfl, hprog, ?_, ?_, rfl⟩
    · rw [exec_fetchReadReturn, readReturn_eq hr hadm hue hce hd hx hgot, hrun]
    · exact rf_wf_of_lt h.regs _ _ _ (by omega) (rf_pred_lt _ _ _ _)
    · exact kept_wf (kept_refl s _) h.regs (.head _) _ _ _

end Sys2Proof.Proofs

/-! # Queue and send operations of memory tiles (O18) -/

namespace Sys2Proof.Proofs

open Sys2Proof.Machine Sys2Proof.Claims Sys2Proof.Laws

/-! ## What the work of queues and streams leaves -/

/-- What waits in a memory tile for the end of its cycle or for a later one: the reads of MO, segments, flushes and HRET pushes. -/
def tileWaiting (m : Mt) : List MoRead × List XStep × List Flush × List (Nat × Nat × Word × Tag) := (m.cy.mo, m.steps, m.flushes, m.hrets)

/-- From s to t the queues, streams and ring writers of a memory tile have worked: what waits in the tile and the schedules are
as before, and so are the registers of the tile's window at the offsets that `keep` names. -/
structure QueueWork (keep : Nat → Prop) (s t : State) (stop : Nat) : Prop where
  regs : regWf t.regs = true
  mt : twf {} t.mt = true
  rd : ∀ off, keep off → t.rd (reg stop off) = s.rd (reg stop off)
  waiting : tileWaiting (t.mtile stop) = tileWaiting (s.mtile stop)
  sched : t.sched = s.sched

namespace QueueWork

variable {keep : Nat → Prop} {s t u : State} {stop : Nat}

theorem refl (hs : regWf s.regs = true) (hm : twf {} s.mt = true) : QueueWork keep s s stop := ⟨hs, hm, fun _ _ => rfl, rfl, rfl⟩

/-- Beside registers, memory tiles and schedules anything may change. -/
theorem congr (h : QueueWork keep s t stop) (hregs : u.regs = t.regs) (hmt : u.mt = t.mt) (hsched : u.sched = t.sched) :
    QueueWork keep s u stop where
  regs := by rw [hregs, h.regs]
  mt := by rw [hmt, h.mt]
  rd off ho := by rw [State.rd, hregs]; exact h.rd off ho
  waiting := by rw [State.mtile, hmt]; exact h.waiting
  sched := by rw [hsched, h.sched]

theorem ite (h : QueueWork keep s t stop) (hu : QueueWork keep s u stop) (p : Prop) [Decidable p] :
    QueueWork keep s (if p then t else u) stop := by
  split
  · exact h
  · exact hu

/-- A register outside the tile's window is written. -/
theorem wr_elsewhere (h : QueueWork keep s t stop) {a : Nat} (ha : ∀ off, reg stop off ≠ a) (v : Word) :
    QueueWork keep s (t.wr a v) stop where
  regs := wr_wf h.regs _ _
  mt := h.mt
  rd off ho := by rw [rd_wr_other h.regs v (ha off), h.rd off ho]
  waiting := h.waiting
  sched := h.sched

/-- A register of the window that is not kept is written. -/
theorem wr (h : QueueWork keep s t stop) {off : Nat} (v : Word) (ho : ¬ keep off := by omega) :
    QueueWork keep s (t.wr (reg stop off) v) stop where
  regs := wr_wf h.regs _ _
  mt := h.mt
  rd o hk := by rw [rd_wr_other h.regs v (by simp only [ne_eq, reg_inj]; rintro rfl; exact ho hk), h.rd o hk]
  waiting := h.waiting
  sched := h.sched

theorem wf (h : QueueWork keep s t stop) {off : Nat} (lo n v : Nat) (ho : ¬ keep off := by omega) :
    QueueWork keep s (t.wf (reg stop off) lo n v) stop := h.wr _ ho

theorem setMt (h : QueueWork keep s t stop) {m : Mt} (hm : tileWaiting m = tileWaiting (t.mtile stop)) :
    QueueWork keep s (t.setMt stop m) stop where
  regs := h.regs
  mt := tput_wf h.mt
  rd := h.rd
  waiting := by rw [State.mtile, State.setMt, tget_tput_same h.mt, hm, h.waiting]
  sched := h.sched

theorem modMt (h : QueueWork keep s t stop) {f : Mt → Mt} (hf : tileWaiting (f (t.mtile stop)) = tileWaiting (t.mtile stop)) :
    QueueWork keep s (t.modMt stop f) stop := h.setMt hf

theorem modQx (h : QueueWork keep s t stop) (q : Nat) (f : QX → QX) : QueueWork keep s (t.modQx stop q f) stop := h.modMt rfl

theorem setStrm (h : QueueWork keep s t stop) (k : Nat) (x : Strm) : QueueWork keep s (t.setStrm stop k x) stop := h.modMt rfl

theorem setWrt (h : QueueWork keep s t stop) (k : Nat) (x : Writer) : QueueWork keep s (t.setWrt stop k x) stop := h.modMt rfl

theorem freeCells (h : QueueWork keep s t stop) (q : Nat) (cells : List Nat) : QueueWork keep s (t.freeCells stop q cells) stop :=
  h.modMt rfl

theorem portPart (h : QueueWork keep s t stop) (cell : Nat) (p : Payload) (fe : Bool) (lo hi : Nat) :
    QueueWork keep s (t.portPart stop cell p fe lo hi) stop := by
  unfold State.portPart
  exact h.modMt rfl

theorem notice (h : QueueWork keep s t stop) (st : Nat) (k : NoticeKind) (p : Nat) (tag : Option Tag) :
    QueueWork keep s (t.notice st k p tag) stop := h.congr (notice_regs _ _ _ _ _) (notice_mt _ _ _ _ _)
    (notice_sched _ _ _ _ _)

theorem event (h : QueueWork keep s t stop) (code st value : Nat) (pipe : Option Nat) :
    QueueWork keep s (t.event code st value pipe) stop := h.congr rfl rfl rfl

theorem post (h : QueueWork keep s t stop) (src dst typ : Nat) (vc : Bool) (m : UMsg) :
    QueueWork keep s (t.post src dst typ vc m) stop := h.congr rfl rfl rfl

theorem tallyOwner (h : QueueWork keep s t stop) (st key : Nat) : QueueWork keep s (t.tallyOwner st key) stop := by
  unfold State.tallyOwner
  split
  · exact h.congr rfl rfl rfl
  · exact h

theorem credit (h : QueueWork keep s t stop) (en : Bool) (obj src n : Nat) : QueueWork keep s (t.credit en obj src n) stop :=
  (h.congr (u := t.sync1 _) rfl rfl rfl).ite h _

theorem regionCheck (h : QueueWork keep s t stop) (cell : Nat) (ho : ¬ keep 0x200 := by omega) :
    QueueWork keep s (t.regionCheck stop cell) stop := QueueWork.ite (h.wf _ _ _ ho) h _

theorem qCredit (h : QueueWork keep s t stop) (q n : Nat) : QueueWork keep s (t.qCredit stop q n) stop := h.credit _ _ _ _

end QueueWork

/-! ### Work that leaves the count of issues -/

/-- From s to t the queues, streams and ring writers of a memory tile have worked; SCH_ISSUE is as before. -/
abbrev TileWork (s t : State) (stop : Nat) : Prop := QueueWork (· = 0xD014) s t stop

namespace QueueWork

variable {s t : State} {stop q k : Nat}

theorem hazardLog (h : TileWork s t stop) (code pipe detail cyc : Nat) : TileWork s (t.hazardLog stop code pipe detail cyc) stop := by
  have hput (n : Nat) (v v' : Word) : TileWork s ((t.wr (reg stop (0xF840 + 8 * n)) v).wr (reg stop (0xF844 + 8 * n)) v') stop :=
    (h.wr v).wr v'
  have hfree (n : Nat) (v v' w : Word) (x : Dbg) : TileWork s
      { ((t.wr (reg stop (0xF840 + 8 * n)) v).wr (reg stop (0xF844 + 8 * n)) v').wr (reg stop 0xF80C) w with dbg := x } stop :=
    ((hput n v v').wr w).congr rfl rfl rfl
  have hold (n : Nat) (v v' : Word) (x : Dbg) : TileWork s
      { (t.wr (reg stop (0xF840 + 8 * n)) v).wr (reg stop (0xF844 + 8 * n)) v' with dbg := x } stop := (hput n v v').congr rfl rfl rfl
  exact QueueWork.event ((hfree _ _ _ _ _).ite ((hold _ _ _ _).ite (h.wr (off := 0xF80C) _) _) _) _ _ _ _

theorem hazard (h : TileWork s t stop) (code detail : Nat) : TileWork s (t.hazard stop code detail) stop := by
  unfold State.hazard State.hazardOf
  split
  · exact h
  · exact (h.hazardLog _ _ _ _).ite h _

theorem qDrop (h : TileWork s t stop) (hq : q < 64) : TileWork s (t.qDrop stop q) stop :=
  QueueWork.qCredit (h.wf _ _ _) _ _

theorem qFaultIf (h : TileWork s t stop) (hq : q < 64) (bad : Bool) : TileWork s (t.qFaultIf stop q bad) stop :=
  h.ite ((((h.wf _ _ _).wf _ _ _).tallyOwner _ _).notice _ _ _ _ |>.event _ _ _ _) _

theorem enterSpilled (h : TileWork s t stop) (hq : q < 64) : TileWork s (t.enterSpilled stop q) stop := by
  unfold State.enterSpilled
  split
  · exact h.ite ((h.wf _ _ _).modQx _ _) _
  · exact h

theorem setQf (h : TileWork s t stop) (hq : q < 64) {off : Nat} (hoff : off < 0x20) (lo n v : Nat) :
    TileWork s (t.setQf stop q off lo n v) stop := h.wf _ _ _

theorem spillPump (h : TileWork s t stop) (hq : q < 64) : TileWork s (t.spillPump stop q) stop := by
  have h := h.enterSpilled hq
  unfold State.spillPump
  generalize t.enterSpilled stop q = t at h
  extract_lets u x handles lvl die
  split
  · exact h
  · next p _ =>
    refine h.ite (ite ?_ (h.modQx _ _) _) _
    extract_lets first pk ftag links bad s1 s2 s3 s4 s5 s6
    have h1 : TileWork s s1 stop := (h.modMt (f := fun m => m.linkTo p.headLast first) rfl).ite (h.qFaultIf hq _) _
    have h2 : TileWork s s2 stop := ((h1.setQf hq (by omega) _ _ _).setQf hq (by omega) _ _ _).ite h1 _
    have h3 : TileWork s s3 stop := ((h2.modQx _ _).ite (h2.setQf hq (by omega) _ _ _) _).ite h2 _
    have h5 : TileWork s s5 stop := (h3.setQf hq (by omega) _ _ _).setQf hq (by omega) _ _ _
    have h6 : TileWork s s6 stop := h5.congr rfl rfl rfl
    exact QueueWork.modQx (QueueWork.wf (h6.wr_elsewhere (by simp only [reg]; omega) _) _ _ _) _ _

theorem rewind (h : TileWork s t stop) (hq : q < 64) : TileWork s (t.rewind stop q) stop := by
  unfold State.rewind
  extract_lets w x s1 s2
  have h2 : TileWork s s2 stop := (((h.freeCells _ _).qCredit _ _).setQf hq (by omega) _ _ _).setQf hq (by omega) _ _ _
  exact qFaultIf (h2.wf _ _ _) hq _

theorem breakPacket (h : TileWork s t stop) (hq : q < 64) (op : Nat) : TileWork s (t.breakPacket stop q op) stop := by
  have h1 := ((h.rewind hq).qCredit q 1).ite (h.qDrop hq) (t.qOpen stop q = true)
  exact QueueWork.ite (h1.wf _ _ _) h1 _

theorem commit (h : TileWork s t stop) (hq : q < 64) : TileWork s (t.commit stop q) stop := by
  unfold State.commit
  extract_lets start n x w cells s1 s2 lvl s3 s4
  have h2 : TileWork s s2 stop := qFaultIf ((h.modMt rfl).setQf hq (by omega) _ _ _) hq _
  split
  · exact (h2.modQx _ _).spillPump hq
  · have h3 : TileWork s s3 stop := ((h2.setQf hq (by omega) _ _ _).setQf hq (by omega) _ _ _).ite h2 _
    exact (h3.setQf hq (by omega) _ _ _).setQf hq (by omega) _ _ _

theorem portWrite (h : TileWork s t stop) (cell : Nat) (p : Payload) (fe : Bool) : TileWork s (t.portWrite stop cell p fe) stop :=
  (h.regionCheck cell).portPart _ _ _ _ _

theorem waiting_takeCell {m m' : Mt} {c : Nat} (h : m.takeCell = some (c, m')) : tileWaiting m' = tileWaiting m := by
  unfold Mt.takeCell at h
  split at h <;> cases h <;> rfl

theorem storeCell (h : TileWork s t stop) (hq : q < 64) (op : Nat) (fe : Bool) (tag : Tag) (data : Payload) :
    TileWork s (t.storeCell stop q op fe tag data) stop := by
  unfold State.storeCell
  split
  · exact h
  · next c m hm =>
    extract_lets opening tail m1 m2 s1 s2 s3 s4
    have hw : tileWaiting m2 = tileWaiting (t.mtile stop) := by
      rw [← waiting_takeCell hm]
      simp only [m2, m1]
      split <;> rfl
    have h1 : TileWork s s1 stop := h.setMt hw
    have h2 : TileWork s s2 stop := QueueWork.ite ((QueueWork.wf (h1.setQf hq (by omega) _ _ _) _ _ _).modQx _ _) h1 _
    have h4 : TileWork s s4 stop := ((h2.setQf hq (by omega) _ _ _).setQf hq (by omega) _ _ _).portWrite _ _ _
    exact (h4.commit hq).ite h4 _

theorem pushData (h : TileWork s t stop) (hq : q < 64) (fe : Bool) (op : Nat) (tag epoch : Tag) (data : Payload) :
    TileWork s (t.pushData stop q fe op tag epoch data) stop := by
  have h := h.modQx q fun x => { x with pushes := x.pushes + 1 }
  have hflag (off i : Nat) (hoff : off < 0x20) := h.setQf hq hoff i 1 1
  unfold State.pushData
  generalize (t.modQx stop q fun x => { x with pushes := x.pushes + 1 }) = t at h hflag
  refine ite (qCredit (hflag 0x18 2 (by omega)) _ _) ?_ _
  refine ite (h.qDrop hq) ?_ _
  refine ite (qDrop (hflag 0x18 2 (by omega)) hq) ?_ _
  refine ite ((h.ite (h.setQf hq (by omega) _ _ _) _).qDrop hq) ?_ _
  refine ite (h.breakPacket hq _) ?_ _
  refine ite (h.breakPacket hq _) ?_ _
  refine ite (breakPacket (hflag 0x18 3 (by omega)) hq _) ?_ _
  refine ite ((breakPacket (hflag 0x18 1 (by omega)) hq _).hazard _ _) ?_ _
  refine ite (((h.rewind hq).qCredit _ _).ite (h.qDrop hq) _) ?_ _
  exact ((h.qFaultIf hq _).qDrop hq).ite (h.storeCell hq _ _ _ _) _

theorem handleEnds (h : TileWork s t stop) (hq : q < 64) : TileWork s (t.handleEnds stop q) stop :=
  QueueWork.setQf ((h.setQf hq (by omega) _ _ _).setQf hq (by omega) _ _ _) hq (by omega) _ _ _

theorem bankErrors (h : TileWork s t stop) (bank word : Nat) (tag : Tag) (mask : Nat) :
    TileWork s (t.bankErrors stop bank word tag mask) stop := by
  unfold State.bankErrors
  extract_lets m key
  refine List.foldlRecOn (motive := fun u => TileWork s u stop) _ _ h fun u hu i _ => ?_
  extract_lets v w
  have hv : TileWork s v stop := QueueWork.ite (QueueWork.wf (hu.wf _ _ _) _ _ _) hu _
  have hw : TileWork s w stop := (hv.wf _ _ _).wf _ _ _
  exact QueueWork.ite (((hw.wr _).notice _ _ _ _).event _ _ _ _) hv _

theorem storeHandle (h : TileWork s t stop) (hq : q < 64) (port : Option Bool) (tag : Tag) (hd : Word) :
    TileWork s (t.storeHandle stop q port tag hd) stop := by
  unfold State.storeHandle
  extract_lets got
  have hgot (l : Nat) (m : Mt) (hm : got = some (l, m)) : tileWaiting m = tileWaiting (t.mtile stop) := by
    simp only [got] at hm
    split at hm
    · cases hm; rfl
    · obtain ⟨⟨c, m'⟩, hc, hm⟩ := Option.map_eq_some_iff.mp hm
      cases hm
      rw [← waiting_takeCell hc]
      rfl
  clear_value got
  split
  · exact h
  · next l m =>
    extract_lets i c lo hi p s1 s2 s3 s4 s5
    have h1 : TileWork s s1 stop := h.setMt (hgot l m rfl)
    have h2 : TileWork s s2 stop := (h1.bankErrors _ _ _ _).bankErrors _ _ _ _
    have h3 : TileWork s s3 stop := by
      simp only [s3]
      split
      · exact (h2.regionCheck _).portPart _ _ _ _ _
      · refine h2.modMt ?_
        unfold Mt.putPart
        split <;> split <;> rfl
    have h4 : TileWork s s4 stop := h3.modQx _ _
    refine handleEnds (t := s5) ?_ hq
    simp only [s5]
    split
    · exact (h4.modQx _ _).spillPump hq
    · exact (h4.setQf hq (by omega) _ _ _).setQf hq (by omega) _ _ _

theorem returnHandle (h : TileWork s t stop) {hd hd' : Word} {u : State} (hu : t.returnHandle stop hd = some (u, hd')) :
    TileWork s u stop := by
  simp only [State.returnHandle, Option.ite_none_right_eq_some] at hu
  obtain ⟨⟨-, hb, -⟩, hu⟩ := hu
  cases hu
  exact (h.wf _ _ _).wf _ _ _

theorem pushHandle (h : TileWork s t stop) (hq : q < 64) (chk fe : Bool) (op : Nat) (tag : Tag) (epoch : Option Tag) (hd : Word) :
    TileWork s (t.pushHandle stop q chk fe op tag epoch hd) stop := by
  have h := h.modQx q fun x => { x with pushes := x.pushes + 1 }
  have hflag (off i : Nat) (hoff : off < 0x20) := h.setQf hq hoff i 1 1
  unfold State.pushHandle
  generalize (t.modQx stop q fun x => { x with pushes := x.pushes + 1 }) = t at h hflag
  refine ite (qCredit (hflag 0x18 2 (by omega)) _ _) ?_ _
  refine ite (h.qDrop hq) ?_ _
  refine ite (qDrop (hflag 0x18 2 (by omega)) hq) ?_ _
  refine ite (h.qDrop hq) ?_ _
  refine ite (hazard (qDrop (hflag 0x18 1 (by omega)) hq) _ _) ?_ _
  refine ite (h.qDrop hq) ?_ _
  refine ite ((h.qFaultIf hq _).qDrop hq) ?_ _
  refine ite ?_ (h.storeHandle hq _ _ _) _
  split
  · next hu => exact (h.returnHandle hu).storeHandle hq _ _ _
  · exact qDrop (hflag 0x18 4 (by omega)) hq

theorem gather (h : TileWork s t stop) (hk : k < 4) (f : Nat → Byte) : TileWork s (t.gather stop k f) stop :=
  QueueWork.wf (h.setWrt _ _) _ _ _

theorem writerTake (h : TileWork s t stop) (hk : k < 4) (op : Nat) (tag epoch : Tag) (p : Payload) :
    TileWork s (t.writerTake stop k op tag epoch p) stop := by
  have habort := QueueWork.wf (off := 0x3100 + 0x20 * k + 0x1C) (h.wf (off := 0x3088) 1 1 1)
  exact QueueWork.ite (h.wf _ _ _) (ite (gather (notice (habort _ _ _) _ _ _ _) hk _) (h.gather hk _) _) _

theorem writerOf_lt {s : State} {stop q k : Nat} (h : s.writerOf stop q = some k) : k < 4 := by
  unfold State.writerOf at h
  split at h
  · exact List.mem_range.mp (List.mem_of_find?_eq_some h)
  · cases h

theorem pushAny (h : TileWork s t stop) (hq : q < 64) (fe : Bool) (op : Nat) (tag epoch : Tag) (data : Payload) :
    TileWork s (t.pushAny stop q fe op tag epoch data) stop := by
  unfold State.pushAny
  split
  · next hk => exact h.writerTake (writerOf_lt hk) _ _ _ _
  · exact (h.pushHandle hq _ _ _ _ _ _).ite (h.pushData hq _ _ _ _ _) _

/-! ### The fetch engine -/

theorem releaseResv (h : TileWork s t stop) (n : Nat) : TileWork s (t.releaseResv stop k n) stop := by
  have h1 := h.setStrm k { t.strm stop k with resv := (t.strm stop k).resv - n }
  exact h1.ite (h1.setQf (dstQ_lt t stop k) (by omega) _ _ _) _

theorem beyondBuffer (h : TileWork s t stop) : TileWork s (t.beyondBuffer stop) stop := QueueWork.wf (h.wf _ _ _) _ _ _

theorem staleHandle (h : TileWork s t stop) (tag : Tag) : TileWork s (t.staleHandle stop tag) stop := h.beyondBuffer.notice _ _ _ _

theorem fillCell (h : TileWork s t stop) (d : Desc) (hd : Word) (i : Nat) (tag : Tag) (p : Payload) :
    TileWork s (t.fillCell stop k d hd i tag p) stop := by
  unfold State.fillCell
  extract_lets x b cell s1
  refine ite (h.portWrite _ _ _) ?_ _
  split
  · exact h.staleHandle tag
  · next hok =>
    have hb : b ≤ 1023 := by
      simp only [State.handleOk, Bool.not_eq_true', Bool.not_eq_false, Bool.and_eq_true, decide_eq_true_eq] at hok
      exact hok.1.1.1.2
    have h1 : TileWork s s1 stop := (h.wf _ _ _).portWrite _ _ _
    exact h.beyondBuffer.ite (h1.ite (QueueWork.setStrm (QueueWork.wf (h1.wf _ _ _) _ _ _) _ _) _) _

theorem nextPacket (h : TileWork s t stop) (hk : k < 16) (d : Desc) : TileWork s (t.nextPacket stop k d) stop :=
  QueueWork.setStrm (h.wf _ _ _) _ _

theorem pushCell (h : TileWork s t stop) (hk : k < 16) {d : Desc} (hd : d.dstQ < 64) (p : Payload) :
    TileWork s (t.pushCell stop k d p) stop := by
  unfold State.pushCell
  extract_lets x tag last s1 s2
  have h1 : TileWork s s1 stop := h.releaseResv 1
  have h2 : TileWork s s2 stop := (h1.fillCell _ _ _ _ _).ite (h1.pushAny hd _ _ _ _ _) _
  exact (h2.nextPacket hk _).ite (h2.setStrm _ _) _

theorem cropEnd (h : TileWork s t stop) : TileWork s (t.cropEnd stop k) stop := by
  unfold State.cropEnd
  split
  · exact h.ite (h.notice _ _ _ _) _
  · exact h

theorem freeQ_lt (s : State) (stop k : Nat) : (s.sdesc stop k).freeQ < 64 := BitVec.isLt _

theorem feStep (h : TileWork s t stop) (hk : k < 16) (e : FeStep) : TileWork s (t.feStep stop k e) stop := by
  have hdst := dstQ_lt t stop k
  have hfree := freeQ_lt t stop k
  unfold State.feStep
  extract_lets d x tag hd s1
  have h1 : TileWork s s1 stop := (h.modMt (f := fun m => { m with cy := { m.cy with fe := true } }) rfl).ite h _
  cases e with
  | idle => exact h1
  | done => exact QueueWork.setStrm (QueueWork.wf (h1.cropEnd.wf _ _ _) _ _ _) _ _
  | handle => exact ((h1.pushHandle hfree _ _ _ _ _ _).ite (h1.pushHandle hdst _ _ _ _ _ _) _).nextPacket hk _
  | cell bs => exact h1.pushCell hk hdst _
  | abort => exact (h1.pushAny hdst _ _ _ _ _).setStrm _ _
  | giveBack => exact (h1.pushHandle hfree _ _ _ _ _ _).setStrm _ _
  | stop => exact QueueWork.setStrm ((h1.cropEnd.releaseResv _).wf _ _ _) _ _

theorem fePump (h : TileWork s t stop) (n : Nat) : TileWork s (t.fePump stop n) stop := by
  induction n generalizing t with
  | zero => exact h
  | succ n ih =>
    unfold State.fePump
    extract_lets may
    split
    · next k hk => exact ih (h.feStep (List.mem_range.mp (List.mem_of_find?_eq_some hk)) _)
    · exact h

theorem feRun (h : TileWork s t stop) : TileWork s (t.feRun stop) stop := h.fePump 33

/-- R245: what a tile asks of a segment changes no register and nothing that waits. -/
theorem restoreAsk {keep : Nat → Prop} (h : QueueWork keep s t stop) : QueueWork keep s (t.restoreAsk stop) stop := by
  unfold State.restoreAsk
  extract_lets due
  split
  · split
    · exact (h.modQx _ _).post _ _ _ _ _
    · exact h
  · exact h

end QueueWork

/-! ## The tile cycle of a memory tile -/

/-- What stands in a table, written again, changes nothing. -/
theorem tput_tget_from {α : Type} [DecidableEq α] {d : α} {t : Tbl α} {lo : Option Nat} (h : twfFrom d lo t = true) (k : Nat) :
    tput d t k (tget d t k) = t := by
  induction t generalizing lo with
  | nil => simp [tput, tget]
  | cons x r ih =>
    obtain ⟨a, v⟩ := x
    simp only [twfFrom, Bool.and_eq_true, decide_eq_true_eq] at h
    obtain ⟨⟨-, hv⟩, hr⟩ := h
    by_cases hak : a = k
    · subst hak
      simp [tput, tget, hv]
    · simp only [tput, tget, hak, if_false, Ne.symm hak, ih hr]
      split
      · next hlt => rw [if_pos (tget_below (by omega) hr)]
      · rfl

theorem modMt_eq_self {s : State} (h : twf {} s.mt = true) {stop : Nat} {f : Mt → Mt} (hf : f (s.mtile stop) = s.mtile stop) :
    s.modMt stop f = s := by
  rw [State.modMt, hf, State.setMt, State.mtile, tput_tget_from h]

/-- A tile cycle in which no port has an access closes without an effect on the banks. -/
theorem closeCycle_of_noAccess {s : State} (h : twf {} s.mt = true) {stop : Nat} (hcy : (s.mtile stop).cy = {}) :
    s.closeCycle stop = s := by
  have hself : (s.modMt stop fun m => { m with cy := {}, free := m.free ++ [] }) = s := modMt_eq_self h (by simp [← hcy])
  simp only [State.closeCycle, hcy, List.map_nil, hself, State.resolveWrites, List.filter_nil, List.foldl_nil]

theorem beginCycle_mt {s : State} (h : twf {} s.mt = true) {stop : Nat} (hk : kindOf stop = .mt) (hcy : (s.mtile stop).cy = {}) :
    s.beginCycle stop = nextCycle s stop := by
  simp [State.beginCycle, hk, closeCycle_of_noAccess h hcy, nextCycle]

/-- The queue and send operations of a memory tile's OP and OUT slots (R173 to R177). -/
def IsQueueOp : TileOp → Prop
  | .hpop | .hret | .sendq | .senda | .sendb => True
  | _ => False

theorem kindOf_of_queueOp {stop i : Nat} {b : Bundle} {o : TileOp} (h : slotOp stop b i = some o) (ho : IsQueueOp o) :
    kindOf stop = .mt := by
  unfold slotOp opOf at h
  split at h <;> cases h <;> simp_all [IsQueueOp]

/-- Nothing waits in a memory tile with nothing under way, and its ports are idle. -/
structure MtIdle (s : State) (stop : Nat) : Prop where
  ports : (s.mtile stop).cy = {}
  waiting : tileWaiting (s.mtile stop) = ([], [], [], [])

theorem mtIdle_of_inFlight {s : State} {stop : Nat} (hk : kindOf stop = .mt) (h : s.inFlight stop = false) : MtIdle s stop := by
  simp only [State.inFlight, hk, Mt.busy, Bool.or_eq_false_iff, Bool.not_eq_false', List.isEmpty_iff, bne_eq_false_iff_eq] at h
  obtain ⟨-, ⟨⟨⟨⟨hcy, hsteps⟩, hflushes⟩, hrets⟩, -⟩, -⟩ := h
  exact ⟨hcy, by simp [tileWaiting, hcy, hsteps, hflushes, hrets]⟩

/-- With one operation in a bundle its slots together are that operation. -/
theorem doSlots_of_lone {s : State} {stop i w : Nat} {o : TileOp} (h : Lone s stop i o w) (hi : i < 3) (x : State) (c : Nat) (ok : Bool) :
    ((x.doSlot stop (s.nextBundle stop) 0 c ok).doSlot stop (s.nextBundle stop) 1 c ok).doSlot stop (s.nextBundle stop) 2 c ok =
      x.doOp stop o w c ok := by
  have hop (y : State) : y.doSlot stop (s.nextBundle stop) i c ok = y.doOp stop o w c ok := by simp [State.doSlot, h.op, h.word]
  have hnone (j : Nat) (hj : j < 3) (hne : j ≠ i) (y : State) : y.doSlot stop (s.nextBundle stop) j c ok = y :=
    doSlot_of_none (h.others j hj hne) _ _
  match i, hi with
  | 0, _ => rw [hop, hnone 1 (by omega) (by omega), hnone 2 (by omega) (by omega)]
  | 1, _ => rw [hnone 0 (by omega) (by omega), hop, hnone 2 (by omega) (by omega)]
  | 2, _ => rw [hnone 0 (by omega) (by omega), hnone 1 (by omega) (by omega), hop]

/-- The cycle in which a memory tile with idle ports issues a bundle with one operation: the operation, the end of the cycle, writes of
context registers, and the count of the issue (R137, R142, R157). -/
theorem issueCycle_queueOp {s u : State} {stop i w : Nat} {o : TileOp} (h : Lone s stop i o w) (hi : i < 3) (hk : kindOf stop = .mt)
    (hcy : (s.mtile stop).cy = {}) (hu : (nextCycle s stop).doOp stop o w (s.cycOf stop + 1) (s.blockOk stop) = u)
    (hsched : u.sched = (nextCycle s stop).sched) :
    ∃ ws, (s.issueCycle stop (s.nextBundle stop) true).1 =
      let x := ((u.mtEnd stop (s.cycOf stop + 1)).mtCtxDue stop (s.cycOf stop + 1)).1.ctxWrites stop ws
      x.wr (reg stop 0xD014) (x.rd (reg stop 0xD014) + 1) := by
  have hcyc : u.cycOf stop = s.cycOf stop + 1 := by rw [← cycOf_nextCycle h.form.sched, State.cycOf, State.sch, hsched]; rfl
  have hend : u.endCycle stop = (u.mtEnd stop (s.cycOf stop + 1)).mtCtxDue stop (s.cycOf stop + 1) := by
    simp only [State.endCycle, hk, hcyc]
  simp only [State.issueCycle, beginCycle_mt h.form.mt hk hcy, cycOf_nextCycle h.form.sched, doSlots_of_lone h hi, hu,
    doCtl_of_ctlNone _ _ h.ctl, hend]
  exact ⟨_, rfl⟩

/-- Writes of context registers leave everything but them. -/
structure ContextWritten (s t : State) (stop : Nat) : Prop where
  regs : regWf t.regs = true
  rd : ∀ off < 0xD100, t.rd (reg stop off) = s.rd (reg stop off)
  frame : t = { s with regs := t.regs }

theorem contextWritten_ctxWrites {s : State} (h : regWf s.regs = true) (stop : Nat) (ws : List (Nat × Word)) :
    ContextWritten s (s.ctxWrites stop ws) stop := by
  unfold State.ctxWrites
  refine List.foldlRecOn (motive := fun t => ContextWritten s t stop) ws _ ⟨h, fun _ _ => rfl, rfl⟩ fun t ht x _ => ?_
  refine ⟨wr_wf ht.regs _ _, fun off ho => ?_, by rw [ht.frame]; rfl⟩
  rw [rd_wr_other ht.regs _ (by simp only [ne_eq, reg_inj]; omega), ht.rd off ho]

/-- How the state `t` after an issue comes from the state `v` in which the datapath's part of the issue's cycle has left a memory tile. -/
structure IssuedAfter (v t : State) (stop : Nat) : Prop where
  count : t.rd (reg stop 0xD014) = v.rd (reg stop 0xD014) + 1
  rd : ∀ off < 0xD000, t.rd (reg stop off) = v.rd (reg stop off)
  tile : ∃ ctxw, t.mtile stop = { v.mtile stop with ctxw := ctxw }
  mesh : t.mesh = v.mesh

/-- The issue of a bundle whose one operation is one of a memory tile with idle ports (R137). -/
theorem runOp_queueOp {s u v : State} {stop i w : Nat} {o : TileOp} (h : Lone s stop i o w) (hi : i < 3) (hk : kindOf stop = .mt)
    (hcy : (s.mtile stop).cy = {}) (hu : (nextCycle s stop).doOp stop o w (s.cycOf stop + 1) (s.blockOk stop) = u)
    (hsched : u.sched = (nextCycle s stop).sched) (hv : u.mtEnd stop (s.cycOf stop + 1) = v) (hregs : regWf v.regs = true)
    (hmt : twf {} v.mt = true) : IssuedAfter v (s.runOp stop o) stop := by
  obtain ⟨ws, hcycle⟩ := issueCycle_queueOp h hi hk hcy hu hsched
  rw [hv] at hcycle
  have hctx := contextWritten_ctxWrites (s := (v.mtCtxDue stop (s.cycOf stop + 1)).1) hregs stop ws
  generalize ((v.mtCtxDue stop (s.cycOf stop + 1)).1).ctxWrites stop ws = x at hcycle hctx
  have hmove := sequencerMoves_issue (s := s) (stop := stop) (b := s.nextBundle stop) (by rw [hcycle]; exact wr_wf hctx.regs _ _)
  rw [← runOp_of_lone h hi, hcycle] at hmove
  have htile : (s.runOp stop o).mtile stop = (v.mtCtxDue stop (s.cycOf stop + 1)).1.mtile stop := by rw [hmove.frame, hctx.frame]; rfl
  refine ⟨?count, fun off ho => ?rd, ⟨_, htile.trans (mtile_modMt hmt stop _)⟩, ?mesh⟩
  case count => rw [hmove.rd _ (.inr rfl), rd_wr_same hctx.regs, hctx.rd _ (by omega)]; rfl
  case rd =>
    rw [hmove.rd _ (.inl (by simpa using ho)), rd_wr_other hctx.regs _ (by simp only [ne_eq, reg_inj]; omega), hctx.rd _ (by omega)]
    rfl
  case mesh => rw [hmove.frame, hctx.frame]; rfl

/-! ## What runs in every tile cycle -/

/-- With no segment and no flush, and no HRET push that is due, the end of a tile cycle is what runs in every one. -/
theorem mtEnd_of_waiting {u : State} (h : twf {} u.mt = true) {stop c : Nat} {mo : List MoRead} {hrets : List (Nat × Nat × Word × Tag)}
    (hw : tileWaiting (u.mtile stop) = (mo, [], [], hrets)) (hdue : ∀ x ∈ hrets, c < x.1) : u.mtEnd stop c = u.mtRun stop := by
  simp only [tileWaiting, Prod.mk.injEq] at hw
  obtain ⟨-, hsteps, hflushes, hh⟩ := hw
  have hnone : hrets.filter (fun x => decide (x.1 ≤ c)) = [] := by simpa [List.filter_eq_nil_iff] using hdue
  have hall : hrets.filter (fun x => !decide (x.1 ≤ c)) = hrets := by simpa [List.filter_eq_self] using hdue
  have h1 : (u.modMt stop fun m => { m with steps := m.steps.filter fun x => !decide (x.land ≤ c) }) = u :=
    modMt_eq_self h (by simp only [hsteps, List.filter_nil]; rw [← hsteps])
  have h2 : (u.modMt stop fun m => { m with hrets := m.hrets.filter fun x => !decide (x.1 ≤ c) }) = u :=
    modMt_eq_self h (by simp only [hh, hall]; rw [← hh])
  simp only [State.mtEnd, hsteps, List.filter_nil, h1, List.foldl_nil, hflushes, List.head?_nil, hh, hnone, h2]

theorem feRun_of_inactive {u : State} {stop : Nat} (h : ∀ k < 16, u.flag (sstat stop k) 0 = false) : u.feRun stop = u :=
  feRun_of_idle fun k hk => by simp [State.feNext, h k hk]

/-- MO reads no cell of a spill in a cycle in which it has an access. -/
theorem spillRead_of_access {u : State} {stop : Nat} (h : (u.mtile stop).cy.mo ≠ []) : u.spillRead stop = u := by
  simp [State.spillRead, h]

theorem spillRead_of_noSpill {u : State} {stop : Nat} (h : ∀ e ∈ (u.mtile stop).qx, e.2.spill = none) : u.spillRead stop = u := by
  unfold State.spillRead
  extract_lets m next
  have hnext : m.qx.findSome? next = none := by
    rw [List.findSome?_eq_none_iff]
    intro e he
    simp [next, h e he]
  simp [hnext]

theorem restoreAsk_of_noSpill {u : State} {stop : Nat} (h : ∀ e ∈ (u.mtile stop).qx, e.2.spill = none) : u.restoreAsk stop = u := by
  unfold State.restoreAsk
  extract_lets due
  have hdue : (u.mtile stop).qx.find? due = none := by
    rw [List.find?_eq_none]
    intro e he
    simp [due, h e he]
  simp [hdue]

/-- What a tile asks of a segment leaves the handles of its queues. -/
theorem slots_restoreAsk {u : State} (h : twf {} u.mt = true) (stop q : Nat) :
    ((u.restoreAsk stop).qx stop q).slots = (u.qx stop q).slots := by
  unfold State.restoreAsk
  extract_lets due
  split
  · next p x _ =>
    split
    · next sp _ =>
      change ((u.modQx stop p fun x => { x with spill := some { sp with asked := 1 } }).qx stop q).slots = _
      by_cases hqp : q = p
      · rw [hqp, qx_modQx h stop p fun he => by simpa using congrArg QX.spill he]
      · rw [State.qx, State.modQx, mtile_modMt h]
        exact congrArg QX.slots (tget_tput_ne _ _ hqp)
    · rfl
  · rfl

/-- A tile cycle at whose end nothing is due, of a tile without active streams and spills, ends without an effect on the tile. -/
theorem mtEnd_eq_self {u : State} (h : twf {} u.mt = true) {stop c : Nat} {mo : List MoRead} {hrets : List (Nat × Nat × Word × Tag)}
    (hw : tileWaiting (u.mtile stop) = (mo, [], [], hrets)) (hdue : ∀ x ∈ hrets, c < x.1)
    (hstreams : ∀ k < 16, u.flag (sstat stop k) 0 = false) (hspills : ∀ e ∈ (u.mtile stop).qx, e.2.spill = none) :
    u.mtEnd stop c = u := by
  rw [mtEnd_of_waiting h hw hdue, State.mtRun, feRun_of_inactive hstreams, spillRead_of_noSpill hspills, restoreAsk_of_noSpill hspills]

/-- In the end of a tile cycle in which MO has an access, of a tile without active streams, spills may ask for their cells. -/
theorem mtEnd_of_access {u : State} (h : twf {} u.mt = true) {stop c : Nat} {r : MoRead}
    (hw : tileWaiting (u.mtile stop) = ([r], [], [], [])) (hstreams : ∀ k < 16, u.flag (sstat stop k) 0 = false) :
    u.mtEnd stop c = u.restoreAsk stop := by
  have hmo : (u.mtile stop).cy.mo = [r] := congrArg Prod.fst hw
  rw [mtEnd_of_waiting h hw (by simp), State.mtRun, feRun_of_inactive hstreams, spillRead_of_access (by simp [hmo])]

/-! ## The sends -/

/-- The read of a cell through MO that a send makes in tile cycle c (R175 to R177). -/
def sendRead (s : State) (stop c cell rt op : Nat) (tag : Tag) (lastQ : Option Nat) : MoRead :=
  .mk cell true true tag (.send (c + s.mtLat stop 3 1) rt op tag (s.epochOf stop) lastQ)

theorem sendRead_congr {s t : State} {stop : Nat} (hlat : t.rd (reg stop 0xD400) = s.rd (reg stop 0xD400))
    (hepoch : t.rd (reg stop 8) = s.rd (reg stop 8)) (c cell rt op : Nat) (tag : Tag) (lastQ : Option Nat) :
    sendRead t stop c cell rt op tag lastQ = sendRead s stop c cell rt op tag lastQ := by
  simp only [sendRead, State.mtLat, State.epochOf, State.rf, hlat, hepoch]

/-- The region check has been made: it may have set a flag in its tile's MT_ERR (R101). -/
structure RegionChecked (s t : State) (stop : Nat) : Prop where
  work : QueueWork (· ≠ 0x200) s t stop
  frame : t = { s with regs := t.regs }

theorem regionChecked {s : State} (hs : regWf s.regs = true) (hm : twf {} s.mt = true) (stop cell : Nat) :
    RegionChecked s (s.regionCheck stop cell) stop where
  work := (QueueWork.refl hs hm).regionCheck cell
  frame := by
    unfold State.regionCheck
    split <;> rfl

namespace RegionChecked

variable {s t : State} {stop : Nat}

theorem tile (h : RegionChecked s t stop) : t.mtile stop = s.mtile stop := by rw [h.frame]; rfl

theorem sendRead (h : RegionChecked s t stop) (c cell rt op : Nat) (tag : Tag) (lastQ : Option Nat) :
    sendRead t stop c cell rt op tag lastQ = sendRead s stop c cell rt op tag lastQ :=
  sendRead_congr (h.work.rd _ (by omega)) (h.work.rd _ (by omega)) _ _ _ _ _ _

theorem epochOf (h : RegionChecked s t stop) : t.epochOf stop = s.epochOf stop := by
  simp only [State.epochOf, State.rf, h.work.rd 8 (by omega)]

end RegionChecked

/-- An operation's access through MO, and its tag. -/
def withRead (s : State) (stop : Nat) (r : MoRead) (tag : Tag) : State := s.modMt stop fun m => { m.addMo r with curTag := tag }

theorem mtile_withRead {s : State} (hm : twf {} s.mt = true) (stop : Nat) (r : MoRead) (tag : Tag) :
    (withRead s stop r tag).mtile stop = { (s.mtile stop).addMo r with curTag := tag } := mtile_modMt hm _ _

theorem waiting_withRead {s : State} (hm : twf {} s.mt = true) {stop : Nat} {mo : List MoRead} {steps : List XStep}
    {flushes : List Flush} {hrets : List (Nat × Nat × Word × Tag)} (hw : tileWaiting (s.mtile stop) = (mo, steps, flushes, hrets))
    (r : MoRead) (tag : Tag) : tileWaiting ((withRead s stop r tag).mtile stop) = (mo ++ [r], steps, flushes, hrets) := by
  simp only [tileWaiting, Prod.mk.injEq] at hw
  obtain ⟨rfl, rfl, rfl, rfl⟩ := hw
  rw [mtile_withRead hm]
  rfl

/-- The read of SENDA with operand word w in tile cycle c (R176). -/
def sendaRead (s : State) (stop w c : Nat) : MoRead :=
  sendRead s stop c (s.afAddr stop (osel w 19 5) % cellsPerTile) (osel w 15 4) (osel w 13 2) ((s.ctx stop (osel w 8 5)).setWidth 16) none

/-- SENDA where no flush is under way reads the cell of its address form, after the region check (R101, R176). -/
theorem opSenda_of_noFlush {s : State} (hs : regWf s.regs = true) (hm : twf {} s.mt = true) {stop : Nat}
    (hf : (s.mtile stop).flushes = []) (w c : Nat) :
    ∃ x tag, RegionChecked s x stop ∧ s.opSenda stop w c = withRead x stop (sendaRead s stop w c) tag := by
  have hcheck := regionChecked hs hm stop (s.afAddr stop (osel w 19 5) % cellsPerTile)
  refine ⟨_, (s.ctx stop (osel w 8 5)).setWidth 16, hcheck, ?_⟩
  simp only [State.opSenda, State.unwrittenCell, hcheck.tile, hf, List.any_nil, Bool.false_eq_true, if_false]
  rw [sendaRead, ← hcheck.sendRead]
  rfl

/-! ## The issue of an operation that has MO read -/

namespace IssuedAfter

variable {u v t : State} {stop : Nat}

theorem waiting (h : IssuedAfter v t stop) : tileWaiting (t.mtile stop) = tileWaiting (v.mtile stop) := by
  obtain ⟨_, htile⟩ := h.tile
  rw [htile]
  rfl

theorem qx (h : IssuedAfter v t stop) : (t.mtile stop).qx = (v.mtile stop).qx := by
  obtain ⟨_, htile⟩ := h.tile
  rw [htile]

theorem banks (h : IssuedAfter v t stop) : (t.mtile stop).banks = (v.mtile stop).banks := by
  obtain ⟨_, htile⟩ := h.tile
  rw [htile]

theorem mo (h : IssuedAfter v t stop) {keep : Nat → Prop} (hwork : QueueWork keep u v stop) {r : MoRead}
    (hw : tileWaiting (u.mtile stop) = ([r], [], [], [])) : (t.mtile stop).cy.mo = [r] :=
  congrArg Prod.fst (h.waiting.trans (hwork.waiting.trans hw))

end IssuedAfter

theorem lt_osel (w lo n : Nat) : osel w lo n < 2 ^ n := Nat.mod_lt _ (Nat.two_pow_pos n)

/-- The issue of an operation that has MO read a cell, in a tile with nothing under way and no active stream: after the operation only a
spill asks for a cell. -/
theorem runOp_access {s u : State} {stop i w : Nat} {o : TileOp} {r : MoRead} (h : Lone s stop i o w) (hi : i < 3) (hk : kindOf stop = .mt)
    (hfl : s.inFlight stop = false) (hu : (nextCycle s stop).doOp stop o w (s.cycOf stop + 1) (s.blockOk stop) = u)
    (hsched : u.sched = (nextCycle s stop).sched) (hregs : regWf u.regs = true) (hmt : twf {} u.mt = true)
    (hw : tileWaiting (u.mtile stop) = ([r], [], [], [])) (hstreams : ∀ k < 16, u.flag (sstat stop k) 0 = false) :
    IssuedAfter (u.restoreAsk stop) (s.runOp stop o) stop ∧ ((s.runOp stop o).mtile stop).cy.mo = [r] := by
  have hask := QueueWork.restoreAsk (keep := fun _ => True) (QueueWork.refl (stop := stop) hregs hmt)
  have hissue := runOp_queueOp h hi hk (mtIdle_of_inFlight hk hfl).ports hu hsched (mtEnd_of_access hmt hw hstreams) hask.regs hask.mt
  exact ⟨hissue, hissue.mo hask hw⟩

/-- The issue of a SENDA (R176). -/
theorem runOp_senda {s : State} {stop w : Nat} (h : Lone s stop 2 .senda w) (hfl : s.inFlight stop = false) (hstill : Still s stop) :
    Issued s (s.runOp stop .senda) stop ∧
      ((s.runOp stop .senda).mtile stop).cy.mo = [sendaRead s stop w (s.cycOf stop + 1)] ∧
      ((s.runOp stop .senda).mtile stop).banks = (s.mtile stop).banks ∧ ((s.runOp stop .senda).mtile stop).qx = (s.mtile stop).qx ∧
      (s.runOp stop .senda).mesh = s.mesh := by
  have hk := kindOf_of_queueOp h.op trivial
  have hidle := mtIdle_of_inFlight hk hfl
  obtain ⟨hstreams, hspills⟩ := hstill hk
  obtain ⟨x, tag, hcheck, hop⟩ := opSenda_of_noFlush (s := nextCycle s stop) h.form.regs h.form.mt (congrArg (·.2.2.1) hidle.waiting) w
    (s.cycOf stop + 1)
  change _ = withRead x stop (sendaRead s stop w (s.cycOf stop + 1)) tag at hop
  generalize sendaRead s stop w (s.cycOf stop + 1) = r at hop ⊢
  have htile : x.mtile stop = s.mtile stop := hcheck.tile
  have hw : tileWaiting (x.mtile stop) = ([], [], [], []) := by rw [htile, hidle.waiting]
  have hread := mtile_withRead hcheck.work.mt stop r tag
  obtain ⟨hissue, hmo⟩ := runOp_access h (by omega) hk hfl hop (by rw [hcheck.frame]; rfl) hcheck.work.regs (modMt_wf hcheck.work.mt _ _)
    (waiting_withRead hcheck.work.mt hw r _) fun k hk => (congrArg (bitOf · 0) (hcheck.work.rd _ (by omega))).trans (hstreams k hk)
  rw [restoreAsk_of_noSpill (by rw [hread, htile]; exact hspills)] at hissue
  refine ⟨hissue.count.trans (congrArg (· + 1) (hcheck.work.rd _ (by omega))), hmo, ?_, ?_, ?_⟩
  · rw [hissue.banks, hread, htile]; rfl
  · rw [hissue.qx, hread, htile]; rfl
  · rw [hissue.mesh, hcheck.frame]; rfl

/-! ## HRET -/

/-- The push that HRET with operand word w leaves for a later cycle in tile cycle c (R174). -/
def hretPush (s : State) (stop w c : Nat) : Nat × Nat × Word × Tag :=
  (c + s.mtLat stop 2 3, osel w 18 6, s.ctx stop (osel w 13 5), (s.ctx stop ((osel w 13 5 + 1) % 32)).setWidth 16)

theorem lt_hretPush (s : State) (stop w c : Nat) : c < (hretPush s stop w c).1 := by
  simp only [hretPush, State.mtLat]
  omega

/-- The issue of an HRET (R174): its push waits for its latency. -/
theorem runOp_hret {s : State} {stop w : Nat} (h : Lone s stop 1 .hret w) (hfl : s.inFlight stop = false) (hstill : Still s stop) :
    Issued s (s.runOp stop .hret) stop ∧
      ((s.runOp stop .hret).mtile stop).hrets = [hretPush s stop w (s.cycOf stop + 1)] ∧
      ((s.runOp stop .hret).mtile stop).qx = (s.mtile stop).qx ∧ ((s.runOp stop .hret).mtile stop).banks = (s.mtile stop).banks ∧
      (s.runOp stop .hret).mesh = s.mesh := by
  have hk := kindOf_of_queueOp h.op trivial
  have hidle := mtIdle_of_inFlight hk hfl
  obtain ⟨hstreams, hspills⟩ := hstill hk
  have hlater := lt_hretPush s stop w (s.cycOf stop + 1)
  generalize hpush : hretPush s stop w (s.cycOf stop + 1) = push at hlater
  generalize hu : (nextCycle s stop).modMt stop (fun m => { m with hrets := m.hrets ++ [push] }) = u
  have hop : (nextCycle s stop).doOp stop .hret w (s.cycOf stop + 1) (s.blockOk stop) = u := by rw [← hu, ← hpush]; rfl
  have htile : u.mtile stop = { s.mtile stop with hrets := [push] } := by
    rw [← hu, mtile_modMt (s := nextCycle s stop) h.form.mt]
    exact congrArg (fun l => { s.mtile stop with hrets := l ++ [push] }) (congrArg (·.2.2.2) hidle.waiting)
  have hw : tileWaiting (u.mtile stop) = ([], [], [], [push]) := by
    rw [htile]
    exact congrArg (fun x => (x.1, x.2.1, x.2.2.1, [push])) hidle.waiting
  have hregs : u.regs = s.regs := by rw [← hu]; rfl
  have hmt : twf {} u.mt = true := by rw [← hu]; exact modMt_wf (s := nextCycle s stop) h.form.mt _ _
  have hrd (a : Nat) : u.rd a = s.rd a := by rw [State.rd, hregs, State.rd]
  have hend : u.mtEnd stop (s.cycOf stop + 1) = u := mtEnd_eq_self hmt hw (by simpa using hlater)
    (fun k hk => (congrArg (bitOf · 0) (hrd _)).trans (hstreams k hk)) (by rw [htile]; exact hspills)
  have hissue := runOp_queueOp h (by omega) hk hidle.ports hop (by rw [← hu]; rfl) hend (by rw [hregs]; exact h.form.regs) hmt
  refine ⟨by rw [Issued, hissue.count, hrd], congrArg (·.2.2.2) (hissue.waiting.trans hw), ?_, ?_, ?_⟩
  · rw [hissue.qx, htile]
  · rw [hissue.banks, htile]
  · rw [hissue.mesh, ← hu]; rfl

/-! ## SENDB -/

/-- The read of SENDB with operand word w in tile cycle c (R177): of the cell at its offset in the buffer that its handle names. -/
def sendbRead (s : State) (stop w c : Nat) : MoRead :=
  sendRead s stop c ((s.rf (bufLo stop (hBuf (s.ctx stop (osel w 19 5)))) 0 15 + s.afAddr stop (osel w 14 5)) % cellsPerTile) (osel w 10 4)
    (ptypeOp (osel w 8 2) (decide (s.afAddr stop (osel w 14 5) + 1 = s.bufCells stop (hBuf (s.ctx stop (osel w 19 5))))))
    ((s.ctx stop ((osel w 19 5 + 1) % 32)).setWidth 16) none

/-- R177: SENDB of a cell within the buffer that a valid handle names reads that cell, after the region check. -/
theorem opSendb_of_handleOk {s : State} (hs : regWf s.regs = true) (hm : twf {} s.mt = true) {stop w : Nat}
    (hok : s.handleOk stop (s.ctx stop (osel w 19 5)) = true)
    (ho : s.afAddr stop (osel w 14 5) < s.bufCells stop (hBuf (s.ctx stop (osel w 19 5)))) (c : Nat) :
    ∃ x tag, RegionChecked (s.modMt stop fun m => { m with curTag := tag }) x stop ∧
      s.opSendb stop w c = x.modMt stop (·.addMo (sendbRead s stop w c)) := by
  generalize htag : (s.ctx stop ((osel w 19 5 + 1) % 32)).setWidth 16 = tag
  have hcheck := regionChecked (s := s.modMt stop fun m => { m with curTag := tag }) hs (modMt_wf hm _ _) stop
    ((s.rf (bufLo stop (hBuf (s.ctx stop (osel w 19 5)))) 0 15 + s.afAddr stop (osel w 14 5)) % cellsPerTile)
  refine ⟨_, tag, hcheck, ?_⟩
  have hepoch := hcheck.epochOf
  generalize hy : (s.modMt stop fun m => { m with curTag := tag }) = y at hcheck hepoch
  have hok' : y.handleOk stop (s.ctx stop (osel w 19 5)) = true := by rw [← hy]; exact hok
  have hcells (b : Nat) : y.bufCells stop b = s.bufCells stop b := by rw [← hy]; rfl
  have hrf (a lo n : Nat) : y.rf a lo n = s.rf a lo n := by rw [← hy]; rfl
  simp only [State.opSendb, htag, hy, hok', hcells, hrf, Bool.not_true, Bool.false_eq_true, if_false, Nat.not_le.mpr ho, hepoch]
  rw [sendbRead, htag, ← hy]
  rfl

/-- While MO has an access, what runs in every tile cycle leaves it, the count of issues and what waits. -/
theorem tileWork_mtRun {u : State} (hs : regWf u.regs = true) (hm : twf {} u.mt = true) {stop : Nat} {r : MoRead}
    (hw : tileWaiting (u.mtile stop) = ([r], [], [], [])) : TileWork u (u.mtRun stop) stop := by
  have hrun : TileWork u (u.feRun stop) stop := (QueueWork.refl hs hm).feRun
  have hmo : ((u.feRun stop).mtile stop).cy.mo = [r] := congrArg Prod.fst (hrun.waiting.trans hw)
  rw [State.mtRun, spillRead_of_access (by simp [hmo])]
  exact hrun.restoreAsk

/-- The issue of a SENDB (R177). -/
theorem runOp_sendb {s : State} {stop w : Nat} (h : Lone s stop 2 .sendb w) (hfl : s.inFlight stop = false)
    (hok : s.handleOk stop (s.ctx stop (osel w 19 5)) = true)
    (ho : s.afAddr stop (osel w 14 5) < s.bufCells stop (hBuf (s.ctx stop (osel w 19 5)))) :
    Issued s (s.runOp stop .sendb) stop ∧ ((s.runOp stop .sendb).mtile stop).cy.mo = [sendbRead s stop w (s.cycOf stop + 1)] := by
  have hk := kindOf_of_queueOp h.op trivial
  have hidle := mtIdle_of_inFlight hk hfl
  obtain ⟨x, tag, hcheck, hop⟩ := opSendb_of_handleOk (s := nextCycle s stop) h.form.regs h.form.mt hok ho (s.cycOf stop + 1)
  change _ = x.modMt stop (·.addMo (sendbRead s stop w (s.cycOf stop + 1))) at hop
  generalize sendbRead s stop w (s.cycOf stop + 1) = r at hop ⊢
  generalize hu : x.modMt stop (·.addMo r) = u at hop
  have htile : x.mtile stop = { s.mtile stop with curTag := tag } := hcheck.tile.trans (mtile_modMt (s := nextCycle s stop) h.form.mt _ _)
  have hw : tileWaiting (u.mtile stop) = ([r], [], [], []) := by
    rw [← hu, mtile_modMt hcheck.work.mt, htile]
    exact congrArg (fun x => (x.1 ++ [r], x.2)) hidle.waiting
  have hmt : twf {} u.mt = true := by rw [← hu]; exact modMt_wf hcheck.work.mt _ _
  have hregs : u.regs = x.regs := by rw [← hu]; rfl
  have hrun := tileWork_mtRun (by rw [hregs]; exact hcheck.work.regs) hmt hw
  have hissue := runOp_queueOp h (by omega) hk hidle.ports hop (by rw [← hu, hcheck.frame]; rfl) (mtEnd_of_waiting hmt hw (by simp))
    hrun.regs hrun.mt
  refine ⟨?_, hissue.mo hrun hw⟩
  rw [Issued, hissue.count, hrun.rd _ rfl, State.rd, hregs]
  exact congrArg (· + 1) (hcheck.work.rd _ (by omega))

/-! ## Pops -/

/-- The registers of a tile's window but the ends of queue q. -/
def BesideEnds (q off : Nat) : Prop := off ≠ 0x1000 + 0x20 * q + 8 ∧ off ≠ 0x1000 + 0x20 * q + 0x14

theorem besideEnds_level (q : Nat) : BesideEnds q (0x1000 + 0x20 * q + 0x10) := by unfold BesideEnds; omega

theorem besideEnds_of_le {q off : Nat} (hq : q < 64) (ho : 0x1800 ≤ off) : BesideEnds q off := by unfold BesideEnds; omega

namespace QueueWork

variable {s t : State} {stop q : Nat}

theorem setEnd (h : QueueWork (BesideEnds q) s t stop) {off : Nat} (hoff : off = 8 ∨ off = 0x14) (lo n v : Nat) :
    QueueWork (BesideEnds q) s (t.setQf stop q off lo n v) stop := h.wf _ _ _ (by unfold BesideEnds; omega)

end QueueWork

/-- The level of a queue is one lower. -/
def levelDown (s : State) (stop q : Nat) : State := s.setQf stop q 0x10 0 16 (s.qLevel stop q - 1)

theorem qLevel_levelDown {s : State} (hs : regWf s.regs = true) (stop q : Nat) :
    (levelDown s stop q).qLevel stop q = s.qLevel stop q - 1 := rf_wf_of_lt hs _ _ _ (by omega) (rf_pred_lt _ _ _ _)

/-- R107: beside the level of its queue, the head cell of a queue leaves with changes of the queue's ends, of the pool and of the queue's
own state, where no side entry fails. -/
theorem queueWork_dropHead {s : State} (hs : regWf s.regs = true) (hm : twf {} s.mt = true) {stop : Nat}
    (hside : (s.mtile stop).sideUe = []) (q : Nat) : QueueWork (BesideEnds q) (levelDown s stop q) (s.dropHead stop q) stop := by
  have h : QueueWork (BesideEnds q) (levelDown s stop q) (levelDown s stop q) stop := .refl (wf_wf hs _ _ _ _) hm
  unfold State.dropHead
  extract_lets c e lvl bad tag free s1 s2 s3 s4
  have hbad : bad = false := by simp [bad, hside]
  have h2 : QueueWork (BesideEnds q) (levelDown s stop q) s2 stop := (h.setEnd (.inr rfl) _ _ _).setEnd (.inl rfl) _ _ _
  have h3 : QueueWork (BesideEnds q) (levelDown s stop q) s3 stop := (h2.setEnd (.inr rfl) _ _ _).ite h2 _
  rw [hbad, qFaultIf_false]
  exact ((h3.freeCells _ _).qCredit _ _).modQx _ _

/-- A pop does not make its queue spill. -/
theorem spill_dropHead {s : State} (hm : twf {} s.mt = true) {stop q : Nat} (hside : (s.mtile stop).sideUe = [])
    (hspill : (s.qx stop q).spill = none) : ((s.dropHead stop q).qx stop q).spill = none := by
  unfold State.dropHead
  extract_lets c e lvl bad tag free s1 s2 s3 s4
  have hbad : bad = false := by simp [bad, hside]
  have h3 : s3.mt = s.mt := by simp only [s3]; split <;> rfl
  have h3m : twf {} s3.mt = true := by rw [h3]; exact hm
  have h4 : s4.mt = (s3.freeCells stop q [c]).mt := by simp only [s4]; rw [qCredit_eq]
  have hqx : s4.qx stop q = s.qx stop q := by
    rw [State.qx, State.mtile, h4, ← State.mtile, State.freeCells, mtile_modMt h3m, State.mtile, h3]
    rfl
  have h4m : twf {} s4.mt = true := by rw [h4]; exact modMt_wf h3m _ _
  rw [hbad, qFaultIf_false, qx_modQx h4m stop q fun he => absurd (congrArg QX.pops he) (Nat.succ_ne_zero _), hqx]
  exact hspill

/-- R111: the same of the head handle of a queue. -/
theorem queueWork_dropHandle {s : State} {stop q : Nat} (hf : Form s) (hq : Holds s stop q) :
    QueueWork (BesideEnds q) (levelDown s stop q) (s.dropHandle stop q) stop := by
  have h : QueueWork (BesideEnds q) (levelDown s stop q) (levelDown s stop q) stop := .refl (wf_wf hf.regs _ _ _ _) hf.mt
  unfold State.dropHandle
  extract_lets x l left s1 s2 bad s3
  have hgone2 : HandleGone s s2 stop q := handleGone_headTaken hf hq _
  have hgone3 : HandleGone s s3 stop q := by
    simp only [s3]
    split
    · exact hgone2
    · exact hgone2.freeCells _
  have hbad : bad = false := by
    simp only [bad, hgone2.side, List.contains_nil, Bool.and_false]
    clear_value left
    cases left <;> rfl
  have h2 : QueueWork (BesideEnds q) (levelDown s stop q) s2 stop := (h.setEnd (.inr rfl) _ _ _).modQx _ _
  have h3 : QueueWork (BesideEnds q) (levelDown s stop q) s3 stop := h2.ite (h2.freeCells _ _) _
  rw [hbad, qFaultIf_false, spillPump_of_none ((hgone3.qCredit _).handleEnds).spill]
  exact (((h3.qCredit _ _).setEnd (.inl rfl) _ _ _).setEnd (.inl rfl) _ _ _).setEnd (.inr rfl) _ _ _

theorem rd_levelDown {s : State} (hs : regWf s.regs = true) (stop q : Nat) {off : Nat} (ho : off ≠ 0x1000 + 0x20 * q + 0x10) :
    (levelDown s stop q).rd (reg stop off) = s.rd (reg stop off) :=
  rd_wf_other hs _ _ _ (by simpa only [qReg, ne_eq, reg_inj] using ho)

/-- A cell or a handle has left a queue (R107, R111): its level is one lower, and the registers beyond those of the queues are as
before. -/
structure Took (s t : State) (stop q : Nat) : Prop where
  regs : regWf t.regs = true
  mt : twf {} t.mt = true
  sched : t.sched = s.sched
  level : t.qLevel stop q = s.qLevel stop q - 1
  rd : ∀ off, 0x1800 ≤ off → t.rd (reg stop off) = s.rd (reg stop off)

theorem QueueWork.took {s t : State} {stop q : Nat} (h : QueueWork (BesideEnds q) (levelDown s stop q) t stop)
    (hs : regWf s.regs = true) (hq : q < 64) : Took s t stop q where
  regs := h.regs
  mt := h.mt
  sched := h.sched
  level := (congrArg (bitsOf · 0 16) (h.rd _ (besideEnds_level q))).trans (qLevel_levelDown hs stop q)
  rd off ho := (h.rd off (besideEnds_of_le hq ho)).trans (rd_levelDown hs stop q (by omega))

theorem Took.withRead {s t : State} {stop q : Nat} (h : Took s t stop q) (r : MoRead) (tag : Tag) :
    Took s (withRead t stop r tag) stop q := { h with mt := modMt_wf h.mt _ _ }

theorem form_nextCycle {s : State} (h : Form s) (stop : Nat) : Form (nextCycle s stop) := { h with sched := tput_wf h.sched }

theorem holds_nextCycle {s : State} {stop q : Nat} (h : Holds s stop q) : Holds (nextCycle s stop) stop q := { h with }

/-- The issue of an operation that has taken the head of a queue and has MO read a cell for it. -/
theorem runOp_took {s u : State} {stop i w q : Nat} {o : TileOp} {r : MoRead} (h : Lone s stop i o w) (hi : i < 3) (ho : IsQueueOp o)
    (hfl : s.inFlight stop = false) (hstill : Still s stop) (hq : q < 64)
    (hu : (nextCycle s stop).doOp stop o w (s.cycOf stop + 1) (s.blockOk stop) = u) (htook : Took (nextCycle s stop) u stop q)
    (hw : tileWaiting (u.mtile stop) = ([r], [], [], [])) :
    Issued s (s.runOp stop o) stop ∧ (s.runOp stop o).qLevel stop q = s.qLevel stop q - 1 ∧
      ((s.runOp stop o).qx stop q).slots = (u.qx stop q).slots ∧ ((s.runOp stop o).mtile stop).cy.mo = [r] := by
  have hk := kindOf_of_queueOp h.op ho
  obtain ⟨hstreams, -⟩ := hstill hk
  have hask : QueueWork (fun _ => True) u (u.restoreAsk stop) stop := (QueueWork.refl htook.regs htook.mt).restoreAsk
  obtain ⟨hissue, hmo⟩ := runOp_access h hi hk hfl hu htook.sched htook.regs htook.mt hw fun k hk =>
    (congrArg (bitOf · 0) (htook.rd _ (by omega))).trans (hstreams k hk)
  refine ⟨?_, ?_, ?_, hmo⟩
  · rw [Issued, hissue.count, hask.rd _ trivial, htook.rd _ (by omega)]
    rfl
  · exact (congrArg (bitsOf · 0 16) ((hissue.rd _ (by omega)).trans (hask.rd _ trivial))).trans htook.level
  · rw [← slots_restoreAsk htook.mt, State.qx, Mt.qxAt, hissue.qx]
    rfl

/-! ## HPOP -/

/-- The read of the handle at place `l` of queue q that HPOP has MO make for a pair of context registers in tile cycle c (R173). -/
def handleRead (s : State) (stop q c cr l : Nat) : MoRead :=
  .mk (l / 8) true false ((s.qx stop q).tags.headD 0)
    (.handle (c + s.mtLat stop 3 2) cr (32 * (l % 8)) ((s.qx stop q).tags.headD 0) q)

/-- R173: HPOP takes the head handle of a queue that holds one and has MO read it. -/
theorem opHpop_of_holds {s : State} {stop w l : Nat} {rest : List Nat} (hq : Holds s stop (osel w 18 6))
    (hslots : (s.qx stop (osel w 18 6)).slots = l :: rest) (c : Nat) :
    s.opHpop stop w c = withRead (s.dropHandle stop (osel w 18 6)) stop (handleRead s stop (osel w 18 6) c (osel w 13 5) l)
      ((s.qx stop (osel w 18 6)).tags.headD 0) := by
  simp only [State.opHpop, headReady_of_holds hq, if_true, hslots]
  rfl

/-- The issue of an HPOP (R173). -/
theorem runOp_hpop {s : State} {stop w l : Nat} {rest : List Nat} (h : Lone s stop 1 .hpop w) (hfl : s.inFlight stop = false)
    (hstill : Still s stop) (hq : Holds s stop (osel w 18 6)) (hslots : (s.qx stop (osel w 18 6)).slots = l :: rest) :
    Issued s (s.runOp stop .hpop) stop ∧ (s.runOp stop .hpop).qLevel stop (osel w 18 6) = s.qLevel stop (osel w 18 6) - 1 ∧
      ((s.runOp stop .hpop).qx stop (osel w 18 6)).slots = rest ∧
      ((s.runOp stop .hpop).mtile stop).cy.mo = [handleRead s stop (osel w 18 6) (s.cycOf stop + 1) (osel w 13 5) l] := by
  have hidle := mtIdle_of_inFlight (kindOf_of_queueOp h.op trivial) hfl
  have hform := form_nextCycle h.form stop
  have hholds := holds_nextCycle hq
  have hgone := handleGone_dropHandle hform hholds
  have hwork := queueWork_dropHandle hform hholds
  have htook := hwork.took hform.regs (lt_osel w 18 6)
  obtain ⟨hissued, hlevel, hleft, hmo⟩ := runOp_took h (by omega) trivial hfl hstill (lt_osel w 18 6)
    (opHpop_of_holds hholds hslots (s.cycOf stop + 1)) (htook.withRead _ _)
    (waiting_withRead htook.mt (hwork.waiting.trans hidle.waiting) _ _)
  refine ⟨hissued, hlevel, ?_, hmo⟩
  rw [hleft, State.qx, mtile_withRead htook.mt]
  exact hgone.slots.trans (congrArg (List.drop 1) hslots)

/-! ## SENDQ -/

/-- The push type of a send is the one that its operand gives, but for code 3 (R162). -/
theorem ptypeOp_eq_or (ptype : Nat) (last : Bool) : ptypeOp ptype last = ptype ∨ ptype = 3 := by
  unfold ptypeOp
  split
  · next h3 => exact .inr h3
  · exact .inl rfl

/-- R175: SENDQ without `dp` and with a pop sends the head cell of a queue that holds one, and takes it from the queue. -/
theorem opSendq_of_holds {s : State} {stop w : Nat} (hq : Holds s stop (osel w 18 6)) (hdp : osel w 10 1 = 0) (hpeek : osel w 11 1 = 0)
    (c : Nat) : ∃ last tag, tag = BitVec.ofNat 16 (s.qf stop (osel w 18 6) 0x14 16 16) ∧
      s.opSendq stop w c = ((withRead s stop (sendRead s stop c (s.qHead stop (osel w 18 6)) (osel w 14 4) (ptypeOp (osel w 12 2) last) tag
        (some (osel w 18 6))) tag).dropHead stop (osel w 18 6)).spillPump stop (osel w 18 6) := by
  refine ⟨((s.mtile stop).sideAt (s.qHead stop (osel w 18 6))).eop, _, rfl, ?_⟩
  simp only [State.opSendq, hdp, hpeek, headReady_of_holds hq, if_true, if_neg Nat.zero_ne_one]
  rfl

/-- The issue of a SENDQ (R175). -/
theorem runOp_sendq {s : State} {stop w : Nat} (h : Lone s stop 2 .sendq w) (hfl : s.inFlight stop = false) (hstill : Still s stop)
    (hdp : osel w 10 1 = 0) (hpeek : osel w 11 1 = 0) (hq : Holds s stop (osel w 18 6)) :
    ∃ op, Issued s (s.runOp stop .sendq) stop ∧ (s.runOp stop .sendq).qLevel stop (osel w 18 6) = s.qLevel stop (osel w 18 6) - 1 ∧
      (op = osel w 12 2 ∨ osel w 12 2 = 3) ∧
      ((s.runOp stop .sendq).mtile stop).cy.mo = [sendRead s stop (s.cycOf stop + 1) (s.qHead stop (osel w 18 6)) (osel w 14 4) op
        (BitVec.ofNat 16 (s.qf stop (osel w 18 6) 0x14 16 16)) (some (osel w 18 6))] := by
  have hidle := mtIdle_of_inFlight (kindOf_of_queueOp h.op trivial) hfl
  have hmt : twf {} (nextCycle s stop).mt = true := h.form.mt
  obtain ⟨last, tag, htag, hdo⟩ := opSendq_of_holds (holds_nextCycle hq) hdp hpeek (s.cycOf stop + 1)
  generalize hr : sendRead (nextCycle s stop) stop _ _ _ _ _ _ = r at hdo
  have hread := mtile_withRead hmt stop r tag
  have hside : ((withRead (nextCycle s stop) stop r tag).mtile stop).sideUe = [] := by rw [hread]; exact hq.side
  have hspill : ((withRead (nextCycle s stop) stop r tag).qx stop (osel w 18 6)).spill = none := by
    rw [State.qx, hread]
    exact hq.spill
  have hreadmt : twf {} (withRead (nextCycle s stop) stop r tag).mt = true := modMt_wf hmt _ _
  rw [spillPump_of_none (spill_dropHead hreadmt hside hspill)] at hdo
  have hwork := queueWork_dropHead (s := withRead (nextCycle s stop) stop r tag) h.form.regs hreadmt hside (osel w 18 6)
  obtain ⟨regs, mt, sched, level, rd⟩ := hwork.took h.form.regs (lt_osel w 18 6)
  obtain ⟨hissued, hlevel, -, hmo⟩ := runOp_took h (by omega) trivial hfl hstill (lt_osel w 18 6) hdo ⟨regs, mt, sched, level, rd⟩
    (hwork.waiting.trans (waiting_withRead hmt hidle.waiting r tag))
  exact ⟨_, hissued, hlevel, ptypeOp_eq_or _ last, by rw [hmo, ← hr, htag]; rfl⟩

/-! ## The obligation -/

/-- Settles O18: SENDQ (R175), SENDA (R176), SENDB (R177), HPOP (R173) and HRET (R174), each from the lemma on its issue. -/
theorem memoryTileSends : Obligations.MemoryTileSends := by
  unfold Obligations.MemoryTileSends
  refine ⟨?sendq, ?senda, ?sendb, ?hpop, ?hret⟩
  case sendq =>
    intro s stop w h hfl hstill hdp hpeek hq
    obtain ⟨op, hsend⟩ := runOp_sendq h hfl hstill hdp hpeek hq
    exact ⟨_, op, rfl, hsend⟩
  case senda =>
    intro s stop w h hfl hstill
    exact ⟨_, rfl, runOp_senda h hfl hstill⟩
  case sendb =>
    intro s stop w o h hfl haf hok ho
    subst haf
    obtain ⟨hissued, hmo⟩ := runOp_sendb h hfl hok ho
    refine ⟨_, _, rfl, hissued, ?_, hmo⟩
    simp only [ptypeOp, decide_eq_true_eq]
  case hpop =>
    intro s stop w l rest h hfl hstill hq hslots
    obtain ⟨hissued, hlevel, hleft, hmo⟩ := runOp_hpop h hfl hstill hq hslots
    exact ⟨_, _, rfl, hissued, hlevel, hleft, rfl, hmo⟩
  case hret =>
    intro s stop w h hfl hstill
    exact ⟨_, rfl, runOp_hret h hfl hstill⟩

end Sys2Proof.Proofs

/-! # Ring writers (O22) -/

namespace Sys2Proof.Proofs

open Sys2Proof.Machine Sys2Proof.Claims Sys2Proof.Laws

/-! ## What a ring writer holds -/

/-- Without any assumption on the table, the later of two writes of a key stands where the earlier one listed it. -/
theorem tput_tput_of_ne_default {α : Type} [DecidableEq α] {d v : α} (t : Tbl α) (k : Nat) (hv : v ≠ d) (w : α) :
    tput d (tput d t k v) k w = tput d t k w := by
  induction t with
  | nil => simp [tput, hv]
  | cons x r ih =>
    obtain ⟨a, u⟩ := x
    simp only [tput, hv, if_false]
    split
    · simp [tput]
    · split
      · simp [tput]
      · next hlt hne => simp only [tput, hlt, hne, if_false, ih]

theorem wrt_setWrt_same {s : State} (hm : twf {} s.mt = true) (stop k : Nat) {x : Machine.Writer} (hx : x ≠ {}) :
    (s.setWrt stop k x).wrt stop k = x := by
  rw [State.wrt, State.setWrt, mtile_modMt hm]
  exact tget_tput_of_ne_default _ _ hx

theorem writer_ne_default_of_bufs {x : Machine.Writer} (h : x.bufs ≠ []) : x ≠ {} := by rintro rfl; exact h rfl

/-! ## A flit that arrives (R191, R193) -/

/-- The state without a flit that was crossing into a unit. -/
def flitTaken (s : State) (stop : Nat) (f : Flit) : State := { s with mesh := { s.mesh with into := s.mesh.into.erase (stop, f) } }

theorem takeInto_of_find {s : State} {stop : Nat} {f : Flit} {p : Flit → Bool}
    (hf : (s.mesh.into.find? fun x => x.1 == stop) = some (stop, f)) (hp : p f = true) :
    s.takeInto stop p = some (f, flitTaken s stop f) := by
  simp only [State.takeInto, hf, hp, if_true, flitTaken]

/-- R193: the state in which a flit has crossed in for writer k and has given its reserved place back. -/
def flitArrived (s : State) (stop k : Nat) (f : Flit) : State :=
  (flitTaken s stop f).setWrt stop k { s.wrt stop k with resv := (s.wrt stop k).resv - 1 }

/-- The oldest flit that crosses in goes to the writer of its queue (R190). -/
theorem exec_ringWriterFlit {s : State} {stop k : Nat} {f : Flit} (hf : (s.mesh.into.find? fun x => x.1 == stop) = some (stop, f))
    (hk : s.writerOf stop f.dstQ = some k) :
    exec (.ringWriterFlit stop) s = .next ((flitArrived s stop k f).writerTake stop k f.op f.tag f.epoch f.payload) := by
  change Host.Outcome.next (s.arrivingRow stop) = _
  rw [State.arrivingRow, takeInto_of_find hf (by rw [hk, Option.isSome_some])]
  simp only [hk]
  rfl

theorem writerTake_of_stale {s : State} {stop op : Nat} {tag epoch : Tag} (he : epoch ≠ s.epochOf stop) (k : Nat) (p : Payload) :
    s.writerTake stop k op tag epoch p = s.count (rwReg stop k 0x1C) 16 16 := if_pos he

theorem writerTake_of_push {s : State} {stop op : Nat} {tag epoch : Tag} (he : epoch = s.epochOf stop) (hop : op ≠ 2) (k : Nat)
    (p : Payload) : s.writerTake stop k op tag epoch p = s.gather stop k (byteAt p) := by
  rw [State.writerTake, if_neg (not_not_intro he), if_neg hop]

/-- A gather buffer that holds one position, x0: of plane r the byte `f r`. -/
def bufferOpened (x0 planes : Nat) (f : Nat → Byte) : Gather :=
  { x0 := x0, n := 1, full := false, ends := false, bytes := tputAll 0 [] ((List.range planes).map fun c => (c, f c)) }

/-- R191: a position short of the row's last one, gathered where no buffer is in use, opens one. -/
theorem gather_of_noBuffer {s : State} {stop k : Nat} (hb : (s.wrt stop k).bufs = [])
    (hx : s.rf (rwReg stop k 0x14) 0 13 + 1 < s.rf (rwReg stop k 0xC) 0 13) (f : Nat → Byte) :
    s.gather stop k f = (s.setWrt stop k { s.wrt stop k with
        bufs := [bufferOpened (s.rf (rwReg stop k 0x14) 0 13) (s.rf (rwReg stop k 0) 20 7) f] }).wf (rwReg stop k 0x14) 0 13
      (s.rf (rwReg stop k 0x14) 0 13 + 1) := by
  simp [State.gather, hb, bufferOpened, Nat.not_le.mpr hx]

/-- R191: what such a position leaves in the writer, and that beside the writer's next position no register changes. -/
theorem gather_effect_of_noBuffer {s : State} {stop k : Nat} (hs : regWf s.regs = true) (hm : twf {} s.mt = true)
    (hb : (s.wrt stop k).bufs = []) (hx : s.rf (rwReg stop k 0x14) 0 13 + 1 < s.rf (rwReg stop k 0xC) 0 13) (f : Nat → Byte) :
    ((s.gather stop k f).wrt stop k).bufs = [bufferOpened (s.rf (rwReg stop k 0x14) 0 13) (s.rf (rwReg stop k 0) 20 7) f] ∧
      (s.gather stop k f).rf (rwReg stop k 0x14) 0 13 = s.rf (rwReg stop k 0x14) 0 13 + 1 ∧
      Kept s (s.gather stop k f) [rwReg stop k 0x14] ∧
      s.gather stop k f = { s with regs := (s.gather stop k f).regs, mt := (s.gather stop k f).mt } := by
  rw [gather_of_noBuffer hb hx]
  refine ⟨?_, ?_, ?_, rfl⟩
  · exact congrArg Machine.Writer.bufs (wrt_setWrt_same hm stop k (writer_ne_default_of_bufs (List.cons_ne_nil _ _)))
  · exact rf_wf_of_lt (s := s.setWrt _ _ _) hs _ _ _ (by omega) (Nat.lt_trans hx (rf_lt _ _ _ _))
  · exact kept_wf (t := s.setWrt _ _ _) (kept_refl s _) hs (.head _) _ _ _

/-! ## A cell of the ring (R191, R192) -/

theorem kept_regionCheck {s : State} (hs : regWf s.regs = true) (stop cell : Nat) :
    Kept s (s.regionCheck stop cell) [reg stop 0x0200] := by
  unfold State.regionCheck
  split
  · exact kept_wf (kept_refl _ _) hs (.head _) _ _ _
  · exact kept_refl _ _

/-- From s to t writer k of a memory tile, which then holds x, has written a cell through MI; the region check may have set its flag. -/
structure RingWrite (s t : State) (stop k cell : Nat) (p : Payload) (x : Machine.Writer) : Prop where
  mt : twf {} t.mt = true
  wrt : (t.mtile stop).wrt = tput {} (s.mtile stop).wrt k x
  cell : CellWrite s t stop cell p
  kept : Kept s t [reg stop 0x0200]
  frame : t = { s with regs := t.regs, mt := t.mt }

theorem mtile_portWrite {s : State} (h : Form s) (stop cell : Nat) (p : Payload) :
    (s.portWrite stop cell p false).mtile stop = { s.mtile stop with cy := { (s.mtile stop).cy with
      wr := (s.mtile stop).cy.wr ++
        [{ bank := evenBank cell, word := cellWord cell, data := p.extractLsb' 0 256, fe := false },
         { bank := evenBank cell + 1, word := cellWord cell, data := p.extractLsb' 256 256, fe := false }]
      mi := true } } := by
  have hcheck := regionChecked h.regs h.mt stop cell
  rw [State.portWrite, State.portPart, mtile_modMt hcheck.work.mt, hcheck.tile]
  simp

theorem wrt_portWrite {s : State} (h : Form s) (stop k cell : Nat) (p : Payload) :
    (s.portWrite stop cell p false).wrt stop k = s.wrt stop k := by
  rw [State.wrt, mtile_portWrite h]
  rfl

/-- A cell written through MI, and the writer's new progress. -/
theorem ringWrite_portWrite {s : State} (h : Form s) (stop k cell : Nat) (p : Payload) (x : Machine.Writer) :
    RingWrite s ((s.portWrite stop cell p false).setWrt stop k x) stop k cell p x := by
  have hcheck := regionChecked h.regs h.mt stop cell
  have hmt : twf {} (s.portWrite stop cell p false).mt = true := modMt_wf hcheck.work.mt _ _
  have htile := mtile_modMt hmt stop fun m => { m with wrt := tput {} m.wrt k x }
  rw [mtile_portWrite h] at htile
  exact {
    mt := modMt_wf hmt _ _
    wrt := by rw [State.setWrt, htile]
    cell := by rw [CellWrite, State.setWrt, htile]; exact ⟨rfl, rfl, rfl⟩
    kept := kept_regionCheck h.regs stop cell
    frame := by
      have hf := hcheck.frame
      simp only [State.setWrt, State.portWrite, State.portPart, State.modMt, State.setMt]
      rw [hf] }

/-- The progress of the writer, set once more. -/
theorem RingWrite.setWrt {s t : State} {stop k cell : Nat} {p : Payload} {x : Machine.Writer} (h : RingWrite s t stop k cell p x)
    (hx : x ≠ {}) (y : Machine.Writer) : RingWrite s (t.setWrt stop k y) stop k cell p y := by
  have htile := mtile_modMt h.mt stop fun m => { m with wrt := tput {} m.wrt k y }
  exact {
    mt := modMt_wf h.mt _ _
    wrt := by rw [State.setWrt, htile, h.wrt, tput_tput_of_ne_default _ _ hx]
    cell := by rw [CellWrite, State.setWrt, htile]; exact h.cell
    kept := h.kept
    frame := by
      have hf := h.frame
      rw [State.setWrt, State.modMt, State.setMt, hf] }

theorem RingWrite.wrt_eq {s t : State} {stop k cell : Nat} {p : Payload} {x : Machine.Writer} (h : RingWrite s t stop k cell p x)
    (hx : x ≠ {}) : t.wrt stop k = x := by
  rw [State.wrt, h.wrt]
  exact tget_tput_of_ne_default _ _ hx

theorem exec_ringWriterCellWrite {stop k : Nat} (hkind : kindOf stop = .mt) (hk : k < 4) (s : State) :
    exec (.ringWriterCellWrite stop k) s = .next (s.writeRing stop k) := by
  change Host.Outcome.next (if kindOf stop = .mt ∧ k < 4 then s.writeRing stop k else s) = _
  rw [if_pos ⟨hkind, hk⟩]

theorem writerWork_of_pad {s : State} {stop k : Nat} (hon : s.flag (rwReg stop k 0) 0 = true)
    (hpad : (s.wrt stop k).bot + (s.wrt stop k).top ≠ 0) : s.writerWork stop k = true := by
  simp only [State.writerWork, hon, Bool.true_and, Bool.or_eq_true, bne_iff_ne]
  exact .inl hpad

theorem writerWork_of_full {s : State} {stop k : Nat} {g : Gather} {rest : List Gather} (hon : s.flag (rwReg stop k 0) 0 = true)
    (hbufs : (s.wrt stop k).bufs = g :: rest) (hfull : g.full = true) : s.writerWork stop k = true := by
  simp [State.writerWork, hon, hbufs, hfull]

/-- Writer k is enabled and R194 grants it MI, in a state in canonical form and outside debug mode, where no hazard is seen (R231). -/
structure MayWrite (s : State) (stop k : Nat) : Prop where
  form : Form s
  mi : s.miFree stop k = true
  on : s.flag (rwReg stop k 0) 0 = true
  noDebug : s.debugPerm 0 = false

/-- R189: the cell of a block of the ring row that the writer writes, in the plane that byte `plane` of its flits supplies (R191). -/
def planeCell (s : State) (stop k plane block : Nat) : Nat := s.ringCell stop k (s.rf (rwReg stop k 0) 8 12 + plane) block

/-- R191: the bytes that a gather buffer holds of one plane; positions that it does not hold are zero points. -/
def planeBytes (s : State) (stop k : Nat) (g : Gather) (plane : Nat) : List Byte :=
  (List.range 64).map fun i => if i < g.n then tget 0 g.bytes (i * 64 + plane) else (s.rd (rwReg stop k 4)).extractLsb' 24 8

/-- The state in which the writer has written a cell of the ring and goes on after it, of the `n` cells of a buffer or pad row. -/
def ringAdvanced (s : State) (stop k n cell : Nat) (bs : List Byte) : State :=
  (s.portWrite stop cell (payloadOf bs) false).setWrt stop k
    { s.wrt stop k with cell := if n ≤ (s.wrt stop k).cell + 1 then 0 else (s.wrt stop k).cell + 1 }

/-- R192: the writer writes a cell of a pad row; the last one ends the row. -/
theorem writeRing_of_pad {s : State} {stop k n rc : Nat} (h : MayWrite s stop k) (hpad : (s.wrt stop k).bot + (s.wrt stop k).top ≠ 0)
    (hrc : s.rf (rwReg stop k 4) 15 7 = rc) (hn : s.rf (rwReg stop k 0) 20 7 * rc = n) (hlt : (s.wrt stop k).cell < n) :
    s.writeRing stop k =
      let t := ringAdvanced s stop k n (planeCell s stop k ((s.wrt stop k).cell / rc) ((s.wrt stop k).cell % rc))
        (List.replicate 64 ((s.rd (rwReg stop k 4)).extractLsb' 24 8))
      if n ≤ (s.wrt stop k).cell + 1 then t.endPad stop k else t := by
  subst hrc hn
  simp only [State.rf] at hlt
  simp only [State.writeRing, h.mi, writerWork_of_pad h.on hpad, hpad, hlt, hazard_of_noDebug h.noDebug, wrt_portWrite h.form,
    Bool.not_true, Bool.or_self, Bool.false_eq_true, ne_eq, not_false_eq_true, if_true, if_false, ite_self, decide_eq_true_eq]
  rfl

/-- R191: after the last plane of a gather buffer the writer has done with it, and with the row where the buffer ends it. -/
theorem writeRing_of_full {s : State} {stop k n : Nat} {g : Gather} {rest : List Gather} (h : MayWrite s stop k)
    (hpad : (s.wrt stop k).bot + (s.wrt stop k).top = 0) (hbufs : (s.wrt stop k).bufs = g :: rest) (hfull : g.full = true)
    (hn : s.rf (rwReg stop k 0) 20 7 = n) (hlt : (s.wrt stop k).cell < n) :
    s.writeRing stop k =
      let t := ringAdvanced s stop k n (planeCell s stop k (s.wrt stop k).cell (g.x0 / 64))
        (planeBytes s stop k g (s.wrt stop k).cell)
      if n ≤ (s.wrt stop k).cell + 1 then
        let t := t.setWrt stop k { t.wrt stop k with bufs := rest }
        if g.ends then t.endRow stop k else t
      else t := by
  subst hn
  simp only [State.rf] at hlt
  simp only [State.writeRing, h.mi, writerWork_of_full h.on hbufs hfull, hpad, hlt, hazard_of_noDebug h.noDebug, wrt_portWrite h.form,
    Bool.not_true, Bool.or_self, Bool.false_eq_true, ne_eq, not_true, if_true, if_false, ite_self, decide_eq_true_eq]
  split
  · next hnone => cases hbufs.symm.trans hnone
  · next hsome => cases hbufs.symm.trans hsome; rfl

/-- R192: a cell of a pad row that is not its last. -/
theorem ringWrite_of_pad {s : State} {stop k n rc : Nat} (h : MayWrite s stop k) (hpad : (s.wrt stop k).bot + (s.wrt stop k).top ≠ 0)
    (hrc : s.rf (rwReg stop k 4) 15 7 = rc) (hn : s.rf (rwReg stop k 0) 20 7 * rc = n) (hmore : (s.wrt stop k).cell + 1 < n) :
    RingWrite s (s.writeRing stop k) stop k (planeCell s stop k ((s.wrt stop k).cell / rc) ((s.wrt stop k).cell % rc))
      (payloadOf (List.replicate 64 ((s.rd (rwReg stop k 4)).extractLsb' 24 8)))
      { s.wrt stop k with cell := (s.wrt stop k).cell + 1 } := by
  rw [writeRing_of_pad h hpad hrc hn (Nat.lt_of_succ_lt hmore), ringAdvanced]
  simp only [Nat.not_le.mpr hmore, if_false]
  exact ringWrite_portWrite h.form _ _ _ _ _

/-- R191: a cell of a gather buffer that is complete and does not end its row with it: the writer goes on to the next plane, and after
the last plane to the next buffer. -/
theorem ringWrite_of_full {s : State} {stop k n : Nat} {g : Gather} {rest : List Gather} (h : MayWrite s stop k)
    (hpad : (s.wrt stop k).bot + (s.wrt stop k).top = 0) (hbufs : (s.wrt stop k).bufs = g :: rest) (hfull : g.full = true)
    (hn : s.rf (rwReg stop k 0) 20 7 = n) (hlt : (s.wrt stop k).cell < n) (hends : g.ends = false ∨ (s.wrt stop k).cell + 1 < n) :
    RingWrite s (s.writeRing stop k) stop k (planeCell s stop k (s.wrt stop k).cell (g.x0 / 64))
      (payloadOf (planeBytes s stop k g (s.wrt stop k).cell))
      (if (s.wrt stop k).cell + 1 < n then { s.wrt stop k with cell := (s.wrt stop k).cell + 1 }
        else { s.wrt stop k with cell := 0, bufs := rest }) := by
  have hput := ringWrite_portWrite h.form stop k (planeCell s stop k (s.wrt stop k).cell (g.x0 / 64))
    (payloadOf (planeBytes s stop k g (s.wrt stop k).cell))
  rw [writeRing_of_full h hpad hbufs hfull hn hlt, ringAdvanced]
  by_cases hmore : (s.wrt stop k).cell + 1 < n
  · simp only [Nat.not_le.mpr hmore, hmore, if_true, if_false]
    exact hput _
  · have hlast := hput { s.wrt stop k with cell := 0 }
    have hne : { s.wrt stop k with cell := 0 } ≠ ({} : Machine.Writer) := writer_ne_default_of_bufs (by simp [hbufs])
    simp only [Nat.not_lt.mp hmore, hmore, hends.resolve_right hmore, if_true, if_false, Bool.false_eq_true, hlast.wrt_eq hne]
    exact hlast.setWrt hne _

/-! ## The obligation -/

/-- Settles O22, clause by clause: a flit of the writer's epoch and of another (R191, R193), a cell of a gather buffer (R191) and one of
a pad row (R192). -/
theorem ringWriters : Obligations.RingWriters := by
  unfold Obligations.RingWriters
  refine ⟨?gathers, ?stale, ?full, ?pad⟩
  case gathers =>
    intro s stop k f h hkind hstop hf hk hepoch hop hnone hx
    refine ⟨_, exec_ringWriterFlit hf hk, ?_⟩
    rw [writerTake_of_push (s := flitArrived s stop k f) hepoch hop]
    obtain ⟨hbufs, hnext, hkept, hframe⟩ :=
      gather_effect_of_noBuffer (s := flitArrived s stop k f) h.regs (tput_wf h.mt) hnone hx (byteAt f.payload)
    refine ⟨congrArg State.mesh hframe, hbufs, hnext, hkept, ?_⟩
    rw [hframe]
    rfl
  case stale =>
    intro s stop k f h hkind hstop hf hk hepoch
    refine ⟨_, exec_ringWriterFlit hf hk, ?_⟩
    rw [writerTake_of_stale (s := flitArrived s stop k f) hepoch]
    exact ⟨rfl, rf_count_same h.regs _ _ _ _ (by omega), kept_wf (kept_refl s _) h.regs (.head _) _ _ _⟩
  case full =>
    intro s stop k g rest p h hkind hstop hk hmi hon hdbg hpad hbufs hfull hlt hends hp
    subst hp
    have hwrite := ringWrite_of_full ⟨h, hmi, hon, hdbg⟩ hpad hbufs hfull rfl hlt hends
    exact ⟨_, exec_ringWriterCellWrite hkind hk s, hwrite.wrt, hwrite.cell, hwrite.kept, hwrite.frame⟩
  case pad =>
    intro s stop k rc h hkind hstop hk hmi hon hdbg hpad hrc hmore
    have hwrite := ringWrite_of_pad ⟨h, hmi, hon, hdbg⟩ hpad hrc rfl hmore
    exact ⟨_, exec_ringWriterCellWrite hkind hk s, hwrite.wrt, hwrite.cell, hwrite.kept, hwrite.frame⟩

end Sys2Proof.Proofs

/-! # Epochs reach their units (O28) -/

namespace Sys2Proof.Proofs

open Sys2Proof.Machine Sys2Proof.Claims Sys2Proof.Laws

/-! ## A tile takes its pipeline's epoch -/

/-- The state in which a tile's epoch register holds the epoch of pipeline p. -/
def epochTaken (s : State) (stop p : Nat) : State := s.wf (reg stop 8) 0 16 (s.pipeEpoch p).toNat

theorem epochTaken_wf {s : State} (hs : regWf s.regs = true) (stop p : Nat) : regWf (epochTaken s stop p).regs = true := wf_wf hs _ _ _ _

theorem kept_epochTaken {s : State} (hs : regWf s.regs = true) {stop : Nat} (p : Nat) {as : List Nat} (ha : reg stop 8 ∈ as) :
    Kept s (epochTaken s stop p) as := kept_wf (kept_refl _ _) hs ha _ _ _

/-- A state whose epoch register reads as after the change counts in the pipeline's epoch. -/
theorem epochOf_of_rd {s t : State} (hs : regWf s.regs = true) {stop p : Nat}
    (h : t.rd (reg stop 8) = (epochTaken s stop p).rd (reg stop 8)) : t.epochOf stop = s.pipeEpoch p := by
  have hfield : t.rf (reg stop 8) 0 16 = (s.pipeEpoch p).toNat := by
    rw [State.rf, h, ← State.rf, epochTaken, rf_wf_of_lt hs _ _ _ (by omega) (s.pipeEpoch p).isLt]
  rw [State.epochOf, hfield, BitVec.ofNat_toNat, BitVec.setWidth_eq]

theorem tileEpoch_of_at {s : State} {stop p : Nat} (hk : kindOf stop = .at) (howner : s.ownerPipe stop = some p)
    (hne : s.pipeEpoch p ≠ s.epochOf stop) :
    s.tileEpoch stop = ((epochTaken s stop p).endBlock stop).setAt stop { s.atile stop with held := 0 } := by
  simp only [State.tileEpoch, howner, hne, if_false, hk]
  rfl

theorem tileEpoch_of_sft {s : State} {stop p : Nat} (hk : kindOf stop = .sft) (howner : s.ownerPipe stop = some p)
    (hne : s.pipeEpoch p ≠ s.epochOf stop) : s.tileEpoch stop = (epochTaken s stop p).endBlock stop := by
  simp only [State.tileEpoch, howner, hne, if_false, hk]
  rfl

theorem tileEpoch_of_mt {s : State} {stop p : Nat} (hk : kindOf stop = .mt) (howner : s.ownerPipe stop = some p)
    (hne : s.pipeEpoch p ≠ s.epochOf stop) :
    s.tileEpoch stop = (List.range 16).foldl (fun s k => s.stopStream stop k 3)
      ((List.range 4).foldl (fun s k => s.writerEpoch stop k) ((epochTaken s stop p).expanderReturn stop)) := by
  simp only [State.tileEpoch, howner, hne, if_false, hk]
  rfl

theorem exec_epochChange_tile {stop : Nat} (h : isTile stop = true) (slot : Nat) (s : State) :
    exec (.epochChange stop slot) s = .next (s.tileEpoch stop) := by
  change Host.Outcome.next (if isTile stop = true then s.tileEpoch stop else _) = _
  rw [if_pos h]

theorem isTile_of_ownerPipe {s : State} {stop p : Nat} (h : s.ownerPipe stop = some p) : isTile stop = true := by
  unfold State.ownerPipe at h
  split at h
  · next hb => exact (Bool.and_eq_true_iff.mp hb).1
  · cases h

/-- R163: after the end of a block none is in progress in an array or special-function tile. -/
theorem inBlock_endBlock {s : State} (hs : regWf s.regs = true) (stop : Nat) : (s.endBlock stop).inBlock stop = false := by
  change (s.clrFlag (blockReg stop) 17).flag (blockReg stop) 17 = false
  simp [flag_clrFlag hs]

/-- R163: the change of epoch ends the block in progress, whatever pairing was under way. -/
theorem epochTaken_endBlock {s t : State} (hf : Form s) {stop p : Nat}
    (hregs : t.regs = ((epochTaken s stop p).endBlock stop).regs) :
    t.epochOf stop = s.pipeEpoch p ∧ t.inBlock stop = false ∧ Kept s t [reg stop 8, blockReg stop] := by
  have hw := epochTaken_wf hf.regs stop p
  have hrd (a : Nat) : t.rd a = ((epochTaken s stop p).endBlock stop).rd a := by rw [State.rd, State.rd, hregs]
  refine ⟨epochOf_of_rd hf.regs ?_, ?_, fun a ha => ?_⟩
  · rw [hrd]
    exact rd_clrFlag_other hw (by simp [blockReg])
  · rw [State.inBlock, State.flag, hrd, ← State.flag]
    exact inBlock_endBlock hw stop
  · rw [hrd]
    exact kept_wf (t := epochTaken s stop p) (kept_epochTaken hf.regs p (.head _)) hw (.tail _ (.head _)) _ _ _ a ha

/-! ## A memory tile -/

/-- R193: of the writers before the k-th the next position and row are 0; nothing else of the registers has changed, nor has a bank. -/
structure WritersReset (s t : State) (stop k : Nat) : Prop where
  regs : regWf t.regs = true
  mt : twf {} t.mt = true
  zero : ∀ j < k, t.rd (rwReg stop j 0x14) = 0
  rd : ∀ a, (∀ j < k, a ≠ rwReg stop j 0x14) → t.rd a = s.rd a
  banks : (t.mtile stop).banks = (s.mtile stop).banks
  frame : t = { s with regs := t.regs, mt := t.mt }

theorem writersReset_writerEpochs {s : State} (hs : regWf s.regs = true) (hm : twf {} s.mt = true) (stop k : Nat) :
    WritersReset s ((List.range k).foldl (fun s j => s.writerEpoch stop j) s) stop k := by
  induction k with
  | zero => exact ⟨hs, hm, by omega, fun _ _ => rfl, rfl, rfl⟩
  | succ k ih =>
    rw [List.range_succ, List.foldl_append]
    generalize (List.range k).foldl (fun s j => s.writerEpoch stop j) s = t at ih
    have hother {j : Nat} (hj : j < k) : rwReg stop j 0x14 ≠ rwReg stop k 0x14 := by simp only [rwReg, ne_eq, reg_inj]; omega
    refine ⟨wr_wf ih.regs _ _, tput_wf ih.mt, fun j hj => ?_, fun a ha => ?_, ?_, ?_⟩
    · by_cases hjk : j = k
      · subst hjk
        exact rd_wr_same (s := t.setWrt stop j _) ih.regs _ _
      · have hj : j < k := by omega
        exact (rd_wr_other (s := t.setWrt stop k _) ih.regs _ (hother hj)).trans (ih.zero j hj)
    · exact (rd_wr_other (s := t.setWrt stop k _) ih.regs _ (ha k (by omega))).trans (ih.rd a fun j hj => ha j (by omega))
    · exact (congrArg Mt.banks (mtile_modMt ih.mt stop fun m => { m with wrt := tput {} m.wrt k _ })).trans ih.banks
    · have hframe := ih.frame
      simp only [List.foldl_cons, List.foldl_nil, State.writerEpoch, State.setWrt, State.modMt, State.setMt, State.wr]
      rw [hframe]

/-- R197: the pointers in the expander's status register return to 0; the slot pointer waits for a flush under way. -/
def pointersReturned (s : State) (stop : Nat) : State :=
  let t := ((s.wf (reg stop 0x3084) 0 6 0).wf (reg stop 0x3084) 8 6 0).wf (reg stop 0x3084) 14 1 0
  if (s.mtile stop).flushes.isEmpty then t.wf (reg stop 0x3084) 16 4 0 else t

theorem pointersReturned_effect {s : State} (hs : regWf s.regs = true) (stop : Nat) :
    regWf (pointersReturned s stop).regs = true ∧ (pointersReturned s stop).rf (reg stop 0x3084) 0 6 = 0 ∧
      (pointersReturned s stop).rf (reg stop 0x3084) 8 6 = 0 ∧ (pointersReturned s stop).rf (reg stop 0x3084) 14 1 = 0 ∧
      Kept s (pointersReturned s stop) [reg stop 0x3084] ∧
      pointersReturned s stop = { s with regs := (pointersReturned s stop).regs } := by
  have h1 := wf_wf hs (reg stop 0x3084) 0 6 0
  have h2 := wf_wf h1 (reg stop 0x3084) 8 6 0
  have h3 := wf_wf h2 (reg stop 0x3084) 14 1 0
  have hkept := kept_wf (kept_wf (kept_wf (kept_refl s [reg stop 0x3084]) hs (.head _) 0 6 0) h1 (.head _) 8 6 0) h2 (.head _) 14 1 0
  unfold pointersReturned
  split
  · refine ⟨wf_wf h3 _ _ _ _, ?_, ?_, ?_, kept_wf hkept h3 (.head _) _ _ _, rfl⟩
    all_goals simp [rf_wf_same, rf_wf_other, hs, h1, h2, h3]
  · refine ⟨h3, ?_, ?_, ?_, hkept, rfl⟩
    all_goals simp [rf_wf_same, rf_wf_other, hs, h1, h2]

/-- R197: the return of the pointers writes the status register of the expander, and in the tile no bank. -/
theorem expanderReturn_eq (s : State) (stop : Nat) :
    ∃ m : Mt, s.expanderReturn stop = (pointersReturned s stop).setMt stop m ∧ m.banks = (s.mtile stop).banks := by
  simp only [State.expanderReturn, pointersReturned]
  cases (s.mtile stop).flushes.isEmpty
  all_goals exact ⟨_, rfl, rfl⟩

/-- R120: no stream is active, so none is stopped. -/
theorem stopStreams_of_inactive {s : State} {stop : Nat} (h : ∀ k < 16, s.flag (sstat stop k) 0 = false) (why : Nat) :
    (List.range 16).foldl (fun s k => s.stopStream stop k why) s = s := by
  refine List.foldlRecOn (motive := fun t => t = s) (List.range 16) _ rfl fun t ht k hk => ?_
  simp only [ht, State.stopStream, h k (List.mem_range.mp hk), Bool.not_false, if_true]

/-- R126, R163, R193, R197: what the change of epoch leaves in a memory tile without an active stream. -/
theorem tileEpoch_mt_effect {s : State} (hf : Form s) {stop p : Nat} (hk : kindOf stop = .mt) (howner : s.ownerPipe stop = some p)
    (hne : s.pipeEpoch p ≠ s.epochOf stop) (hidle : ∀ k < 16, s.flag (sstat stop k) 0 = false) :
    (s.tileEpoch stop).epochOf stop = s.pipeEpoch p ∧ (s.tileEpoch stop).rf (reg stop 0x3084) 0 6 = 0 ∧
      (s.tileEpoch stop).rf (reg stop 0x3084) 8 6 = 0 ∧ (s.tileEpoch stop).rf (reg stop 0x3084) 14 1 = 0 ∧
      (∀ k < 4, (s.tileEpoch stop).rd (rwReg stop k 0x14) = 0) ∧ ((s.tileEpoch stop).mtile stop).banks = (s.mtile stop).banks ∧
      Kept s (s.tileEpoch stop) [reg stop 8, reg stop 0x3084, rwReg stop 0 0x14, rwReg stop 1 0x14, rwReg stop 2 0x14,
        rwReg stop 3 0x14] ∧
      s.tileEpoch stop = { s with regs := (s.tileEpoch stop).regs, mt := (s.tileEpoch stop).mt } := by
  have hw := epochTaken_wf hf.regs stop p
  obtain ⟨hpw, hslot, hrow, hbuf, hpkept, hpframe⟩ := pointersReturned_effect hw stop
  have hpmt : (pointersReturned (epochTaken s stop p) stop).mt = s.mt := by rw [hpframe]; rfl
  have hwf : twf {} (pointersReturned (epochTaken s stop p) stop).mt = true := by rw [hpmt]; exact hf.mt
  obtain ⟨m, hret, hbanks⟩ := expanderReturn_eq (epochTaken s stop p) stop
  have hall := writersReset_writerEpochs (s := (epochTaken s stop p).expanderReturn stop) (by rw [hret]; exact hpw)
    (by rw [hret]; exact tput_wf hwf) stop 4
  generalize hu : (List.range 4).foldl (fun s k => s.writerEpoch stop k) ((epochTaken s stop p).expanderReturn stop) = u at hall
  -- below the first writer's position every register is as the return of the pointers has left it
  have hrd (a : Nat) (ha : ∀ j < 4, a ≠ rwReg stop j 0x14) : u.rd a = (pointersReturned (epochTaken s stop p) stop).rd a := by
    rw [hall.rd a ha, hret]
    rfl
  have hlow (off : Nat) (ho : off < 0x3100) : ∀ j < 4, reg stop off ≠ rwReg stop j 0x14 := by
    intro j hj
    simp only [rwReg, ne_eq, reg_inj]
    omega
  have hkept : Kept s u [reg stop 8, reg stop 0x3084, rwReg stop 0 0x14, rwReg stop 1 0x14, rwReg stop 2 0x14, rwReg stop 3 0x14] := by
    intro a ha
    simp only [List.mem_cons, List.not_mem_nil, or_false, not_or] at ha
    obtain ⟨h8, hx, h0, h1, h2, h3⟩ := ha
    have hwriter : ∀ j < 4, a ≠ rwReg stop j 0x14 := by
      intro j hj
      obtain rfl | rfl | rfl | rfl : j = 0 ∨ j = 1 ∨ j = 2 ∨ j = 3 := by omega
      · exact h0
      · exact h1
      · exact h2
      · exact h3
    rw [hrd a hwriter, hpkept a (by simpa using hx), epochTaken, rd_wf_other hf.regs _ _ _ h8]
  have hsame : s.tileEpoch stop = u := by
    rw [tileEpoch_of_mt hk howner hne, hu]
    refine stopStreams_of_inactive (fun k hk16 => ?_) 3
    rw [State.flag, hkept _ (by simp [sstat, rwReg]; omega)]
    exact hidle k hk16
  rw [hsame]
  refine ⟨epochOf_of_rd hf.regs ?_, ?_, ?_, ?_, hall.zero, ?_, hkept, ?_⟩
  · rw [hrd _ (hlow _ (by omega)), hpkept _ (by simp)]
  · rw [State.rf, hrd _ (hlow _ (by omega)), ← State.rf, hslot]
  · rw [State.rf, hrd _ (hlow _ (by omega)), ← State.rf, hrow]
  · rw [State.rf, hrd _ (hlow _ (by omega)), ← State.rf, hbuf]
  · rw [hall.banks, hret]
    exact (congrArg Mt.banks (tget_tput_same hwf stop m)).trans hbanks
  · rw [hall.frame, hret, hpframe]
    rfl

/-! ## An engine job -/

/-- R265: what a job is in a new epoch: without regions and stamps. -/
def jobForgotten (j : EJob) : EJob :=
  { j with tag := none, ok := true, raw := none, regions := [], stamps := [], stampIn := [], notices := [] }

/-- R265: what an engine holds after the change of epoch of one of its jobs. -/
def engineForgot (x : Engine) (slot : Nat) (j : EJob) : Engine :=
  { x with jobs := tput {} x.jobs slot (jobForgotten j), recs := x.recs.filter fun r => r.slot != slot }

theorem engAt_setEng {s : State} (h : twf {} s.eng = true) (stop : Nat) (x : Engine) : (s.setEng stop x).engAt stop = x :=
  tget_tput_same h _ _

theorem exec_epochChange_job {stop slot : Nat} (h : isEngine stop = true) (hslot : slot < 8) (s : State) :
    exec (.epochChange stop slot) s = .next (s.jobEpoch stop slot) := by
  have hnot : isTile stop = false := by
    simp only [isEngine, isTile, Bool.and_eq_true, Bool.or_eq_true, beq_iff_eq] at h ⊢
    rcases h.2 with hk | hk <;> simp [hk]
  change Host.Outcome.next (if isTile stop = true then _ else if isEngine stop = true ∧ slot < 8 then s.jobEpoch stop slot else s) = _
  rw [hnot, if_neg Bool.false_ne_true, if_pos ⟨h, hslot⟩]

/-- R265: the state in which a job has taken its pipeline's epoch and its engine has forgotten what belonged to the one before. -/
def jobChanged (s : State) (stop slot : Nat) : State :=
  ((s.wf (jobReg stop slot 4) 0 16 (s.pipeEpoch (s.rf (jobReg stop slot 0) 1 6)).toNat).setJob stop slot
    (jobForgotten (s.jobAt stop slot))).setEng stop (engineForgot (s.engAt stop) slot (s.jobAt stop slot))

/-- R265: a bound job whose epoch is another than its pipeline's takes it, and the records it has not written are discarded. -/
theorem jobEpoch_eq {s : State} (hf : Form s) {stop slot : Nat} (hbound : s.flag (jobReg stop slot 0) 0 = true)
    (hne : s.rf (jobReg stop slot 4) 0 16 ≠ (s.pipeEpoch (s.rf (jobReg stop slot 0) 1 6)).toNat) :
    ∃ n, s.jobEpoch stop slot = (jobChanged s stop slot).wf (reg stop 0x0210) 0 9 n := by
  have hold : ¬ ((!s.flag (jobReg stop slot 0) 0) = true ∨
      (s.pipeEpoch (s.rf (jobReg stop slot 0) 1 6)).toNat = s.rf (jobReg stop slot 4) 0 16) := by
    simp [hbound, Ne.symm hne]
  simp only [State.jobEpoch, if_neg hold, State.setJob, engAt_setEng, wf_eng, hf.eng]
  exact ⟨_, rfl⟩

/-- R265: what the change of epoch leaves of a job and of its engine. -/
theorem jobEpoch_effect {s : State} (hf : Form s) {stop slot : Nat} (hslot : slot < 8) (hbound : s.flag (jobReg stop slot 0) 0 = true)
    (hne : s.rf (jobReg stop slot 4) 0 16 ≠ (s.pipeEpoch (s.rf (jobReg stop slot 0) 1 6)).toNat) :
    (s.jobEpoch stop slot).rf (jobReg stop slot 4) 0 16 = (s.pipeEpoch (s.rf (jobReg stop slot 0) 1 6)).toNat ∧
      (s.jobEpoch stop slot).engAt stop = engineForgot (s.engAt stop) slot (s.jobAt stop slot) ∧
      Kept s (s.jobEpoch stop slot) [jobReg stop slot 4, reg stop 0x0210] ∧
      s.jobEpoch stop slot = { s with regs := (s.jobEpoch stop slot).regs, eng := (s.jobEpoch stop slot).eng } := by
  obtain ⟨n, heq⟩ := jobEpoch_eq hf hbound hne
  have hchanged : regWf (jobChanged s stop slot).regs = true := wf_wf hf.regs _ _ _ _
  have hkept : Kept s (jobChanged s stop slot) [jobReg stop slot 4, reg stop 0x0210] :=
    kept_wf (kept_refl s _) hf.regs (.head _) 0 16 (s.pipeEpoch (s.rf (jobReg stop slot 0) 1 6)).toNat
  have hother : jobReg stop slot 4 ≠ reg stop 0x0210 := by simp only [jobReg, ne_eq, reg_inj]; omega
  rw [heq]
  refine ⟨?_, tget_tput_same (tput_wf hf.eng) _ _, kept_wf hkept hchanged (.tail _ (.head _)) _ _ _, rfl⟩
  exact (rf_wf_elsewhere hchanged _ _ _ _ _ hother).trans
    (rf_wf_of_lt hf.regs _ _ _ (by omega) (s.pipeEpoch (s.rf (jobReg stop slot 0) 1 6)).isLt)

/-! ## The obligation -/

/-- Settles O28, clause by clause: the change of epoch of an array tile, a special-function tile and a memory tile (R163, R193, R197), and
of an engine job (R265). -/
theorem epochsReachTheirUnits : Obligations.EpochsReachTheirUnits := by
  unfold Obligations.EpochsReachTheirUnits
  refine ⟨?array, ?special, ?memory, ?job⟩
  case array =>
    intro s stop p hf hstop hk howner hne
    refine ⟨_, exec_epochChange_tile (isTile_of_ownerPipe howner) 0 s, ?_⟩
    rw [tileEpoch_of_at hk howner hne]
    obtain ⟨hepoch, hblock, hkept⟩ := epochTaken_endBlock
      (t := ((epochTaken s stop p).endBlock stop).setAt stop { s.atile stop with held := 0 }) hf rfl
    refine ⟨hepoch, hblock, ?_, tget_tput_same hf.pair _ _, hkept, rfl⟩
    exact congrArg At.held (tget_tput_same hf.at_ _ _)
  case special =>
    intro s stop p hf hstop hk howner hne
    refine ⟨_, exec_epochChange_tile (isTile_of_ownerPipe howner) 0 s, ?_⟩
    rw [tileEpoch_of_sft hk howner hne]
    obtain ⟨hepoch, hblock, hkept⟩ := epochTaken_endBlock (t := (epochTaken s stop p).endBlock stop) hf rfl
    exact ⟨hepoch, hblock, hkept, rfl⟩
  case memory =>
    intro s stop p hf hstop hk howner hne _ hidle
    obtain ⟨hepoch, hslot, hrow, hbuf, hzero, hbanks, hkept, hframe⟩ := tileEpoch_mt_effect hf hk howner hne hidle
    refine ⟨_, exec_epochChange_tile (isTile_of_ownerPipe howner) 0 s, hepoch, hslot, hrow, hbuf, fun k hk4 => ?_, hbanks, hkept,
      hframe⟩
    simp [State.rf, hzero k hk4, bitsOf]
  case job =>
    intro s stop slot hf hengine hslot hbound hne
    obtain ⟨hepoch, heng, hkept, hframe⟩ := jobEpoch_effect hf hslot hbound hne
    exact ⟨_, exec_epochChange_job hengine hslot s, hepoch, by rw [heng]; rfl, by rw [heng]; rfl, hkept, hframe⟩

end Sys2Proof.Proofs

/-! # Spill and restore (O23) -/

namespace Sys2Proof.Proofs

open Sys2Proof.Machine Sys2Proof.Claims Sys2Proof.Laws

/-! ## Bytes of numbers and of cells -/

@[simp] theorem leBytes_length (n k : Nat) : (leBytes n k).length = k := by
  induction k generalizing n with
  | zero => rfl
  | succ k ih => simp [leBytes, ih]

@[simp] theorem payloadBytes_length (p : Payload) : (payloadBytes p).length = 64 := by simp [payloadBytes]

theorem getD_payloadBytes (p : Payload) {i : Nat} (hi : i < 64) : (payloadBytes p).getD i 0 = byteAt p i := by
  simp [payloadBytes, List.getD_eq_getElem?_getD, hi]

/-! ## A queue in spilled state goes on (R244, R245) -/

/-- The cells of a segment that are left for staging. -/
def segmentRoom (p : Spill) : Nat := p.cells - (p.wr + p.writing.length - p.rd)

/-- R245: what staging holds follows the writes under way into what room the segment has. -/
def stagingMoved (p : Spill) : Spill :=
  { p with writing := p.writing ++ p.staged.take (segmentRoom p), staged := p.staged.drop (segmentRoom p) }

/-- From s to t a queue's spill has gone on: of the registers at most the flag of its spilled state is new, and of the tile what it
holds of its queues. -/
structure SpillMoves (s t : State) (stop q : Nat) : Prop where
  regs : regWf t.regs = true
  mt : twf {} t.mt = true
  kept : Kept s t [reg stop (0x6000 + 8 * q)]
  tile : t.mtile stop = { s.mtile stop with qx := (t.mtile stop).qx }
  frame : t = { s with regs := t.regs, mt := t.mt }

theorem SpillMoves.refl {s : State} (hs : regWf s.regs = true) (hm : twf {} s.mt = true) (stop q : Nat) : SpillMoves s s stop q :=
  ⟨hs, hm, kept_refl _ _, rfl, rfl⟩

theorem SpillMoves.modQx {s t : State} {stop q : Nat} (h : SpillMoves s t stop q) (f : QX → QX) :
    SpillMoves s (t.modQx stop q f) stop q where
  regs := h.regs
  mt := modMt_wf h.mt _ _
  kept := h.kept
  tile := by
    rw [State.modQx, mtile_modMt h.mt]
    exact h.tile ▸ rfl
  frame := by
    have hframe := h.frame
    rw [State.modQx, State.modMt, State.setMt, hframe]

theorem SpillMoves.setFlag {s t : State} {stop q : Nat} (h : SpillMoves s t stop q) (i : Nat) :
    SpillMoves s (t.setFlag (reg stop (0x6000 + 8 * q)) i) stop q where
  regs := setFlag_wf h.regs _ _
  mt := h.mt
  kept := kept_wf h.kept h.regs (.head _) _ _ _
  tile := h.tile
  frame := by
    have hframe := h.frame
    rw [State.setFlag, State.wf, State.wr, hframe]

theorem qx_ne_default_of_spill {x : QX} (h : x.spill ≠ none) : x ≠ {} := by rintro rfl; exact h rfl

/-- A queue's spill, set. -/
theorem spill_modQx {s : State} (hm : twf {} s.mt = true) (stop q : Nat) (p : Spill) :
    ((s.modQx stop q fun x => { x with spill := some p }).qx stop q).spill = some p := by
  rw [qx_modQx hm stop q (f := fun x => { x with spill := some p }) (qx_ne_default_of_spill (Option.some_ne_none _))]

theorem enterSpilled_of_spilled {s : State} {stop q : Nat} {p : Spill} (h : (s.qx stop q).spill = some p)
    (hin : p.entered = true ∨ p.writing ≠ []) : s.enterSpilled stop q = s := by
  have hb : (p.entered || !p.writing.isEmpty) = true := by simpa using hin
  simp only [State.enterSpilled, h, hb, if_true]

/-- R244: the last of a spill's first writes is acknowledged. -/
theorem enterSpilled_of_acked {s : State} {stop q : Nat} {p : Spill} (h : (s.qx stop q).spill = some p) (hnot : p.entered = false)
    (hall : p.writing = []) : s.enterSpilled stop q = (s.setFlag (reg stop (0x6000 + 8 * q)) 0).modQx stop q
      fun x => { x with spill := some { p with entered := true } } := by
  simp [State.enterSpilled, h, hnot, hall]

/-- R245: where the segment still holds cells, staging goes on into what room it has. -/
theorem spillPump_of_entered {s : State} {stop q : Nat} {p : Spill} (h : ((s.enterSpilled stop q).qx stop q).spill = some p)
    (hin : p.entered = true) (hmore : p.rd < p.wr) :
    s.spillPump stop q = (s.enterSpilled stop q).modQx stop q fun x => { x with spill := some (stagingMoved p) } := by
  have hend : (p.writing.isEmpty && p.wr == p.rd) = false := by simp [Nat.ne_of_gt hmore]
  simp only [State.spillPump, h, hin, hend, Bool.not_true, Bool.false_eq_true, if_false, stagingMoved, segmentRoom]

theorem spillPump_of_notEntered {s : State} {stop q : Nat} {p : Spill} (h : (s.qx stop q).spill = some p) (hnot : p.entered = false)
    (hw : p.writing ≠ []) : s.spillPump stop q = s := by
  simp [State.spillPump, enterSpilled_of_spilled h (.inr hw), h, hnot]

/-- R244, R245: how a spill whose segment holds cells goes on: it enters spilled state with the last of its first writes, and in that
state staging follows. -/
theorem spillPump_effect {s : State} (hs : regWf s.regs = true) (hm : twf {} s.mt = true) {stop q : Nat} {p : Spill}
    (h : (s.qx stop q).spill = some p) (hmore : p.rd < p.wr) :
    SpillMoves s (s.spillPump stop q) stop q ∧
      ((s.spillPump stop q).qx stop q).spill =
        some (if p.entered = true ∨ p.writing = [] then stagingMoved { p with entered := true } else p) ∧
      (p.entered = false → p.writing = [] → (s.spillPump stop q).flag (reg stop (0x6000 + 8 * q)) 0 = true) := by
  have hrefl := SpillMoves.refl hs hm stop q
  by_cases hin : p.entered = true
  · have hsame := enterSpilled_of_spilled h (.inl hin)
    have hp : { p with entered := true } = p := by rw [← hin]
    rw [spillPump_of_entered (by rw [hsame, h]) hin hmore, hsame, if_pos (.inl hin), hp]
    exact ⟨hrefl.modQx _, spill_modQx hm _ _ _, fun hnot => absurd (hin.symm.trans hnot) (by decide)⟩
  · have hnot : p.entered = false := by simpa using hin
    by_cases hw : p.writing = []
    · have hacked := enterSpilled_of_acked h hnot hw
      have hflag := setFlag_wf hs (reg stop (0x6000 + 8 * q)) 0
      rw [spillPump_of_entered (p := { p with entered := true }) (by rw [hacked, spill_modQx (s := s.setFlag _ _) hm]) rfl hmore, hacked,
        if_pos (.inr hw)]
      refine ⟨((hrefl.setFlag 0).modQx _).modQx _, spill_modQx (modMt_wf (s := s.setFlag _ _) hm _ _) _ _ _, fun _ _ => ?_⟩
      change (s.setFlag (reg stop (0x6000 + 8 * q)) 0).flag (reg stop (0x6000 + 8 * q)) 0 = true
      simp [flag_setFlag hs]
    · rw [spillPump_of_notEntered h hnot hw, if_neg (by simp [hnot, hw]), h]
      exact ⟨hrefl, rfl, fun _ hnil => absurd hnil hw⟩

/-! ## An acknowledged spill write (R244) -/

/-- R244: what an acknowledged write leaves of a spill. -/
def ackTaken (p : Spill) (rest : List SpCell) : Spill := { p with wr := p.wr + 1, writing := rest, acks := p.acks - 1 }

/-- R244, R247: the state in which the side entry and the data of a cell stand at its place in the segment, and the segment's header
counts it. -/
def segmentWritten (s : State) (stop q side : Nat) (v : Payload) (p p' : Spill) : State :=
  ((s.hbmPut (p.base + 0x40 + 8 * (p.wr % p.cells)) (leBytes side 8)).hbmPut (p.base + 0x40 + 8 * p.cells + 64 * (p.wr % p.cells))
    (payloadBytes v)).segHeader stop q p'

theorem hbmPut_frame {s t : State} (h : t = { s with hbm := t.hbm }) (a : Nat) (bs : List Byte) :
    t.hbmPut a bs = { s with hbm := (t.hbmPut a bs).hbm } := by
  rw [h]
  rfl

/-- R247: the header takes the first 64 bytes of a segment. -/
theorem segHeader_eq_hbmPut (s : State) (stop q : Nat) (p : Spill) :
    ∃ bs : List Byte, s.segHeader stop q p = s.hbmPut p.base bs ∧ bs.length = 64 :=
  ⟨_, rfl, by simp⟩

theorem segHeader_frame {s t : State} (h : t = { s with hbm := t.hbm }) (stop q : Nat) (p : Spill) :
    t.segHeader stop q p = { s with hbm := (t.segHeader stop q p).hbm } := by
  obtain ⟨bs, heq, -⟩ := segHeader_eq_hbmPut t stop q p
  rw [heq]
  exact hbmPut_frame h _ _

theorem segmentWritten_frame (s : State) (stop q side : Nat) (v : Payload) (p p' : Spill) :
    segmentWritten s stop q side v p p' = { s with hbm := (segmentWritten s stop q side v p p').hbm } :=
  segHeader_frame (hbmPut_frame (hbmPut_frame rfl _ _) _ _) _ _ _

/-- The bytes of the header, side entries and data of a segment lie apart (R247). -/
theorem segmentWritten_bytes {s : State} (hb : Memory.wf s.hbm.bytes = true) (stop q side : Nat) (v : Payload) (p p' : Spill)
    (hbase : p'.base = p.base) (hcells : p.cells ≠ 0) :
    (∀ i < 64, tget 0 (segmentWritten s stop q side v p p').hbm.bytes (p.base + 0x40 + 8 * p.cells + 64 * (p.wr % p.cells) + i) =
        byteAt v i) ∧
      ∀ i < 8, tget 0 (segmentWritten s stop q side v p p').hbm.bytes (p.base + 0x40 + 8 * (p.wr % p.cells) + i) =
        (leBytes side 8).getD i 0 := by
  have hslot : p.wr % p.cells < p.cells := Nat.mod_lt _ (Nat.pos_of_ne_zero hcells)
  have h1 : Memory.wf (putBytes s.hbm.bytes (p.base + 0x40 + 8 * (p.wr % p.cells)) (leBytes side 8)) = true := putBytes_wf hb
  have h2 : Memory.wf (putBytes (putBytes s.hbm.bytes (p.base + 0x40 + 8 * (p.wr % p.cells)) (leBytes side 8))
    (p.base + 0x40 + 8 * p.cells + 64 * (p.wr % p.cells)) (payloadBytes v)) = true := putBytes_wf h1
  obtain ⟨bs, hheader, hlen⟩ := segHeader_eq_hbmPut ((s.hbmPut (p.base + 0x40 + 8 * (p.wr % p.cells)) (leBytes side 8)).hbmPut
    (p.base + 0x40 + 8 * p.cells + 64 * (p.wr % p.cells)) (payloadBytes v)) stop q p'
  rw [segmentWritten, hheader, hbase]
  refine ⟨fun i hi => ?_, fun i hi => ?_⟩
  · simp only [State.hbmPut]
    rw [tget_putBytes h2, if_neg (by omega), tget_putBytes h1, if_pos (by simp; omega), Nat.add_sub_cancel_left,
      getD_payloadBytes v hi]
  · simp only [State.hbmPut]
    rw [tget_putBytes h2, if_neg (by omega), tget_putBytes h1, if_neg (by simp; omega), tget_putBytes hb,
      if_pos (by simp; omega), Nat.add_sub_cancel_left]

/-- R244, R246: the state in which an acknowledged write has freed its cell and returned its credit. -/
def cellSpilled (s : State) (stop q c : Nat) (p : Spill) : State :=
  ((s.freeCells stop q [c]).qCredit stop q (if (s.qx stop q).restored.contains c then 0 else 1)).modQx stop q fun x =>
    { x with restored := x.restored.erase c, spill := some p }

theorem spillAck_eq {s : State} {stop q c side : Nat} {v : Payload} {p : Spill} {rest : List SpCell} (h : (s.qx stop q).spill = some p)
    (hw : p.writing = { cell := c, sent := some (side, v) } :: rest) (hacks : p.acks ≠ 0) :
    s.spillAck stop q =
      (cellSpilled (segmentWritten s stop q side v p (ackTaken p rest)) stop q c (ackTaken p rest)).spillPump stop q := by
  simp only [State.spillAck, h, hw, hacks, if_false, List.isEmpty_nil, if_true]
  rfl

/-- R244, R246: the cell is free, and the spill is as given. -/
theorem cellSpilled_effect {s : State} (hm : twf {} s.mt = true) (stop q c : Nat) (p : Spill) :
    twf {} (cellSpilled s stop q c p).mt = true ∧ ((cellSpilled s stop q c p).qx stop q).spill = some p ∧
      ((cellSpilled s stop q c p).mtile stop).cy.frees = insertFree q c (s.mtile stop).cy.frees ∧
      ((cellSpilled s stop q c p).mtile stop).banks = (s.mtile stop).banks ∧
      cellSpilled s stop q c p = { s with mt := (cellSpilled s stop q c p).mt, mesh := (cellSpilled s stop q c p).mesh } := by
  unfold cellSpilled
  generalize (if (s.qx stop q).restored.contains c then 0 else 1) = n
  have hcredit := qCredit_eq (s.freeCells stop q [c]) stop q n
  generalize (s.freeCells stop q [c]).qCredit stop q n = u at hcredit
  have humt : u.mt = (s.freeCells stop q [c]).mt := by rw [hcredit]
  have hu : twf {} u.mt = true := by rw [humt]; exact modMt_wf hm _ _
  have htile : u.mtile stop = { s.mtile stop with cy := { (s.mtile stop).cy with frees := insertFree q c (s.mtile stop).cy.frees } } := by
    rw [State.mtile, humt]
    exact mtile_modMt hm stop fun m => { m with cy := { m.cy with frees := insertFree q c m.cy.frees } }
  refine ⟨modMt_wf hu _ _, ?_, ?_, ?_, by rw [hcredit]; rfl⟩
  · rw [qx_modQx hu stop q (f := fun x => { x with restored := x.restored.erase c, spill := some p })
      (qx_ne_default_of_spill (Option.some_ne_none _))]
  all_goals
    rw [State.modQx, mtile_modMt hu, htile]
    rfl

/-- R244: what the acknowledgement of the oldest spill write leaves. -/
theorem spillAck_effect {s : State} (hf : Form s) {stop q c side room : Nat} {v : Payload} {p : Spill} {rest : List SpCell}
    (h : (s.qx stop q).spill = some p) (hw : p.writing = { cell := c, sent := some (side, v) } :: rest) (hacks : p.acks ≠ 0)
    (hrd : p.rd ≤ p.wr) (hcells : p.cells ≠ 0) (hroom : p.cells - (p.wr + 1 + rest.length - p.rd) = room) :
    ((s.spillAck stop q).qx stop q).spill = some (if p.entered = true ∨ rest = [] then
        { p with wr := p.wr + 1, acks := p.acks - 1, entered := true, writing := rest ++ p.staged.take room, staged := p.staged.drop room }
      else { p with wr := p.wr + 1, acks := p.acks - 1, writing := rest }) ∧
    (p.entered = false → rest = [] → (s.spillAck stop q).flag (reg stop (0x6000 + 8 * q)) 0 = true) ∧
    (∀ i < 64, tget 0 (s.spillAck stop q).hbm.bytes (p.base + 0x40 + 8 * p.cells + 64 * (p.wr % p.cells) + i) = byteAt v i) ∧
    (∀ i < 8, tget 0 (s.spillAck stop q).hbm.bytes (p.base + 0x40 + 8 * (p.wr % p.cells) + i) = (leBytes side 8).getD i 0) ∧
    ((s.spillAck stop q).mtile stop).cy.frees = insertFree q c (s.mtile stop).cy.frees ∧
    ((s.spillAck stop q).mtile stop).banks = (s.mtile stop).banks ∧
    Kept s (s.spillAck stop q) [reg stop (0x6000 + 8 * q)] ∧
    s.spillAck stop q = { s with regs := (s.spillAck stop q).regs, mt := (s.spillAck stop q).mt, hbm := (s.spillAck stop q).hbm,
                                 mesh := (s.spillAck stop q).mesh } := by
  obtain ⟨hdata, hside⟩ := segmentWritten_bytes hf.hbm stop q side v p (ackTaken p rest) rfl hcells
  have hseg := segmentWritten_frame s stop q side v p (ackTaken p rest)
  rw [spillAck_eq h hw hacks]
  generalize segmentWritten s stop q side v p (ackTaken p rest) = w at hdata hside hseg
  obtain ⟨hmt, hspill, hfrees, hbanks, hframe⟩ := cellSpilled_effect (s := w) (by rw [hseg]; exact hf.mt) stop q c (ackTaken p rest)
  generalize cellSpilled w stop q c (ackTaken p rest) = u at hmt hspill hfrees hbanks hframe
  have hregs : u.regs = s.regs := by rw [hframe, hseg]
  have hhbm : u.hbm = w.hbm := by rw [hframe]
  obtain ⟨hmoves, hleft, hflag⟩ := spillPump_effect (by rw [hregs]; exact hf.regs) hmt hspill (Nat.lt_succ_of_le hrd)
  have htile : w.mtile stop = s.mtile stop := by rw [hseg]; rfl
  rw [htile] at hfrees hbanks
  have hend : (u.spillPump stop q).hbm = u.hbm := by rw [hmoves.frame]
  refine ⟨?_, hflag, ?_, ?_, ?_, ?_, ?_, ?_⟩
  · rw [hleft, ← hroom]
    rfl
  · rw [hend, hhbm]
    exact hdata
  · rw [hend, hhbm]
    exact hside
  · rw [hmoves.tile]
    exact hfrees
  · rw [hmoves.tile]
    exact hbanks
  · intro a ha
    rw [hmoves.kept a ha, State.rd, hregs, State.rd]
  · rw [hmoves.frame, hframe, hseg]

/-! ## The return of a cell (R245) -/

/-- R245: what the return of the cell at the front of the segment leaves of a spill. -/
def cellReturned (p : Spill) (tag : Tag) : Spill := { p with rd := p.rd + 1, tag := tag, asked := 0 }

/-- R245: the registers of a queue whose head region a cell has joined. -/
def headJoined (s : State) (stop q c lvl : Nat) (tag : Tag) (sop : Bool) : State :=
  let s := if lvl = 0 then (s.setQf stop q 8 0 16 c).setQf stop q 0x14 16 16 tag.toNat else s
  let s := s.setQf stop q 0x10 0 16 (lvl + 1)
  if sop then s.setQf stop q 0x14 0 16 (s.qf stop q 0x14 0 16 + 1) else s

theorem headJoined_effect {s : State} (hs : regWf s.regs = true) {stop q : Nat} (c : Nat) {lvl : Nat} (tag : Tag) (sop : Bool)
    (hlvl : lvl + 1 < 2 ^ 16) :
    regWf (headJoined s stop q c lvl tag sop).regs = true ∧ (headJoined s stop q c lvl tag sop).qLevel stop q = lvl + 1 ∧
      headJoined s stop q c lvl tag sop = { s with regs := (headJoined s stop q c lvl tag sop).regs } := by
  have hfirst : ∃ u : State, (if lvl = 0 then (s.setQf stop q 8 0 16 c).setQf stop q 0x14 16 16 tag.toNat else s) = u ∧
      regWf u.regs = true ∧ u = { s with regs := u.regs } := by
    split
    · exact ⟨_, rfl, wf_wf (wf_wf hs _ _ _ _) _ _ _ _, rfl⟩
    · exact ⟨_, rfl, hs, rfl⟩
  obtain ⟨u, hu, huw, hframe⟩ := hfirst
  have hlevel : (u.setQf stop q 0x10 0 16 (lvl + 1)).qLevel stop q = lvl + 1 :=
    rf_wf_of_lt huw _ _ _ (by omega) hlvl
  have hw2 : regWf (u.setQf stop q 0x10 0 16 (lvl + 1)).regs = true := wf_wf huw _ _ _ _
  have hframe2 : u.setQf stop q 0x10 0 16 (lvl + 1) =
      { s with regs := (u.setQf stop q 0x10 0 16 (lvl + 1)).regs } := by rw [State.setQf, State.wf, State.wr, hframe]
  simp only [headJoined, hu]
  split
  · refine ⟨wf_wf hw2 _ _ _ _, ?_, ?_⟩
    · exact (rf_wf_elsewhere hw2 (a := qReg stop q 0x14) (b := qReg stop q 0x10) _ _ _ _ _
        (by simp only [qReg, ne_eq, reg_inj]; omega)).trans hlevel
    · exact congrArg (fun v : State => v.setQf stop q 0x14 0 16 _) hframe2
  · exact ⟨hw2, hlevel, hframe2⟩

/-- R245: a data cell of the segment joins the head region: the tile takes a pool cell for it and links it, MI writes it, and the queue's
registers follow. -/
theorem linkRestored_of_data {s : State} {stop q c : Nat} {rest : List Nat} (hdata : s.qIsHandle stop q = false)
    (hfree : (s.mtile stop).free = c :: rest) (hside : (s.mtile stop).sideUe = []) (p : Spill) (side : Nat) (data : Payload) :
    ∃ m tag sop, (m.free = rest ∧ m.cy = (s.mtile stop).cy ∧ m.banks = (s.mtile stop).banks ∧ m.qx = (s.mtile stop).qx) ∧
      s.linkRestored stop q p side data =
        (headJoined ((s.setMt stop m).portWrite stop c data false) stop q c (s.qLevel stop q) tag sop).modQx stop q fun x =>
          { x with restored := x.restored ++ [c], spill := some { p with headLast := c } } := by
  have htake : (s.mtile stop).takeCell = some (c, { s.mtile stop with free := rest }) := by simp only [Mt.takeCell, hfree]
  simp only [State.linkRestored, htake, hdata, hside, List.contains_nil, Bool.and_false, Bool.false_eq_true, or_false, if_false,
    qFaultIf_false]
  refine ⟨_, _, _, ?same, rfl⟩
  case same => split <;> exact ⟨rfl, rfl, rfl, rfl⟩

theorem drainProgress_effect {s : State} (hs : regWf s.regs = true) (n : Nat) :
    regWf (s.drainProgress n).regs = true ∧ s.drainProgress n = { s with regs := (s.drainProgress n).regs } ∧
      ∀ stop off, (s.drainProgress n).rd (reg stop off) = s.rd (reg stop off) := by
  refine ⟨wr_wf (wr_wf (wr_wf hs _ _) _ _) _ _, rfl, fun stop off => ?_⟩
  have hne (a : Nat) (ha : a < 0x01000000) : reg stop off ≠ a := by simp only [reg]; omega
  simp only [State.drainProgress, State.progress]
  rw [rd_wr_other (wr_wf (wr_wf hs _ _) _ _) _ (hne _ (by omega)), rd_wr_other (wr_wf hs _ _) _ (hne _ (by omega)),
    rd_wr_other hs _ (hne _ (by omega))]

/-- R245: the front of a segment has come back and the tile can take it. -/
structure Returns (s : State) (stop q : Nat) (p : Spill) : Prop where
  spill : (s.qx stop q).spill = some p
  asked : p.asked = 2
  takes : s.restores stop q p = true
  keep : (s.qx stop q).skip = false
  ue : s.hbm.ue = []
  ce : s.hbm.ce = []

/-- R245, R247: the return of the cell at the front of a segment whose words have no error: the segment's header counts it, the cell joins
the head region, and the spill goes on. -/
theorem restore_eq {s : State} {stop q : Nat} {p : Spill} (h : Returns s stop q p) :
    ∃ tag side, s.restore stop q = ((((s.segHeader stop q (cellReturned p tag)).linkRestored stop q (cellReturned p tag) side
      (payloadOf (s.hbmGet (p.base + 0x40 + 8 * p.cells + 64 * (p.rd % p.cells)) 64))).spillPump stop q).drainProgress 1) := by
  have hskip (p' : Spill) : ((s.segHeader stop q p').qx stop q).skip = false := by
    rw [segHeader_frame (s := s) rfl]
    generalize (s.segHeader stop q p').hbm = b
    exact h.keep
  simp only [State.restore, h.spill, h.asked, h.takes, true_and, if_true, State.hbmHasUe, h.ue, List.any_nil, Bool.or_self,
    Bool.false_eq_true, if_false, hbmErrors_of_clean h.ue h.ce, hskip]
  exact ⟨_, _, rfl⟩

/-- From s to t a queue's head region has taken a restored cell, written through MI: the pool, the queue and the accesses of the tile
cycle show it. -/
structure CellJoined (s t : State) (stop q c : Nat) (rest : List Nat) (p : Spill) (data : Payload) : Prop where
  regs : regWf t.regs = true
  mt : twf {} t.mt = true
  level : t.qLevel stop q = s.qLevel stop q + 1
  free : (t.mtile stop).free = rest
  restored : (t.qx stop q).restored = (s.qx stop q).restored ++ [c]
  spill : (t.qx stop q).spill = some p
  cell : CellWrite s t stop c data
  frame : t = { s with regs := t.regs, mt := t.mt, hbm := t.hbm }

/-- What a queue spills goes on as `p'`. -/
theorem CellJoined.setSpill {s t : State} {stop q c : Nat} {rest : List Nat} {p : Spill} {data : Payload}
    (h : CellJoined s t stop q c rest p data) (p' : Spill) :
    CellJoined s (t.modQx stop q fun x => { x with spill := some p' }) stop q c rest p' data := by
  have htile := mtile_modMt h.mt stop fun m => m.setQx q { m.qxAt q with spill := some p' }
  have hqx := qx_modQx h.mt stop q (f := fun x => { x with spill := some p' }) (qx_ne_default_of_spill (Option.some_ne_none _))
  exact {
    regs := h.regs
    mt := modMt_wf h.mt _ _
    level := h.level
    free := by rw [State.modQx, htile]; exact h.free
    restored := by rw [hqx]; exact h.restored
    spill := by rw [hqx]
    cell := by rw [CellWrite, State.modQx, htile]; exact h.cell
    frame := by
      have hframe := h.frame
      rw [State.modQx, State.modMt, State.setMt, hframe] }

/-- R418: the progress of the drain is counted outside the tile. -/
theorem CellJoined.drainProgress {s t : State} {stop q c : Nat} {rest : List Nat} {p : Spill} {data : Payload}
    (h : CellJoined s t stop q c rest p data) (n : Nat) : CellJoined s (t.drainProgress n) stop q c rest p data := by
  obtain ⟨hregs, hframe, hrd⟩ := drainProgress_effect h.regs n
  generalize t.drainProgress n = u at hregs hframe hrd
  have htile : u.mtile stop = t.mtile stop := by rw [hframe]; rfl
  exact {
    regs := hregs
    mt := by rw [hframe]; exact h.mt
    level := by rw [State.qLevel, State.qf, State.rf, qReg, hrd]; exact h.level
    free := by rw [htile]; exact h.free
    restored := by rw [State.qx, htile]; exact h.restored
    spill := by rw [State.qx, htile]; exact h.spill
    cell := by rw [CellWrite, htile]; exact h.cell
    frame := by rw [hframe, h.frame] }

/-- R97, R101: a write through MI changes in the tile what the cycle holds, and of the registers at most a flag of the region check. -/
theorem portWrite_frame {s : State} (h : Form s) (stop cell : Nat) (p : Payload) :
    regWf (s.portWrite stop cell p false).regs = true ∧ twf {} (s.portWrite stop cell p false).mt = true ∧
      s.portWrite stop cell p false =
        { s with regs := (s.portWrite stop cell p false).regs, mt := (s.portWrite stop cell p false).mt } := by
  have hcheck := regionChecked h.regs h.mt stop cell
  have hframe := hcheck.frame
  refine ⟨hcheck.work.regs, modMt_wf hcheck.work.mt _ _, ?_⟩
  simp only [State.portWrite, State.portPart, State.modMt, State.setMt]
  rw [hframe]

/-- R245: the cell that joins the head region. -/
theorem cellJoined_linkRestored {s w : State} (hf : Form s) {stop q c : Nat} {rest : List Nat} (hw : w = { s with hbm := w.hbm })
    (hb : Memory.wf w.hbm.bytes = true) (hdata : s.qIsHandle stop q = false) (hfree : (s.mtile stop).free = c :: rest)
    (hside : (s.mtile stop).sideUe = []) (hroom : s.qLevel stop q < 128) (p : Spill) (side : Nat) (data : Payload) :
    CellJoined s (w.linkRestored stop q p side data) stop q c rest { p with headLast := c } data := by
  have htile : w.mtile stop = s.mtile stop := by rw [hw]; rfl
  have hrd (a : Nat) : w.rd a = s.rd a := by rw [hw]; rfl
  have hhandle : w.qIsHandle stop q = false := by rw [← hdata, State.qIsHandle, State.qbit, State.flag, hrd]; rfl
  have hlevel : w.qLevel stop q = s.qLevel stop q := by rw [State.qLevel, State.qf, State.rf, hrd]; rfl
  obtain ⟨m, tag, sop, ⟨hmfree, hcy, hbanks, hqx⟩, heq⟩ :=
    linkRestored_of_data hhandle (htile ▸ hfree) (htile ▸ hside) p side data
  have hform : Form (w.setMt stop m) := by
    rw [hw]
    exact { hf with hbm := hb, mt := tput_wf hf.mt }
  have hset : (w.setMt stop m).mtile stop = m := tget_tput_same (by rw [hw]; exact hf.mt) _ _
  have hport := mtile_portWrite hform stop c data
  obtain ⟨hpregs, hpmt, hpframe⟩ := portWrite_frame hform stop c data
  rw [hset] at hport
  generalize (w.setMt stop m).portWrite stop c data false = u at hport hpregs hpmt hpframe heq
  obtain ⟨hjregs, hjlevel, hjframe⟩ := headJoined_effect hpregs (stop := stop) (q := q) c (lvl := w.qLevel stop q) tag sop (by omega)
  generalize headJoined u stop q c (w.qLevel stop q) tag sop = v at hjregs hjlevel hjframe heq
  have hvmt : twf {} v.mt = true := by rw [hjframe]; exact hpmt
  have hvtile : v.mtile stop = u.mtile stop := by rw [hjframe]; rfl
  have hvqx : v.qx stop q = s.qx stop q := by
    rw [State.qx, hvtile, hport, State.qx, Mt.qxAt, hqx, htile]
    rfl
  have hqxt := qx_modQx hvmt stop q (f := fun x => { x with restored := x.restored ++ [c], spill := some { p with headLast := c } })
    (qx_ne_default_of_spill (Option.some_ne_none _))
  have htilet := mtile_modMt hvmt stop fun m => m.setQx q { m.qxAt q with
    restored := (m.qxAt q).restored ++ [c], spill := some { p with headLast := c } }
  rw [heq]
  exact {
    regs := hjregs
    mt := modMt_wf hvmt _ _
    level := by rw [← hlevel]; exact hjlevel
    free := by
      rw [State.modQx, htilet, hvtile, hport]
      exact hmfree
    restored := by rw [hqxt, hvqx]
    spill := by rw [hqxt]
    cell := by
      rw [CellWrite, State.modQx, htilet, hvtile, hport, ← htile, ← hcy, ← hbanks]
      exact ⟨rfl, rfl, rfl⟩
    frame := by
      rw [State.modQx, State.modMt, State.setMt, hjframe, hpframe, hw]
      rfl }

/-- R245: what the return of the segment's first cell leaves of a data queue, where the segment holds more. -/
theorem restore_effect {s : State} (hf : Form s) {stop q c : Nat} {p : Spill} {rest : List Nat} (h : Returns s stop q p)
    (hmore : p.rd + 1 < p.wr) (hdata : s.qIsHandle stop q = false) (hfree : (s.mtile stop).free = c :: rest)
    (hside : (s.mtile stop).sideUe = []) :
    ∃ p', p'.rd = p.rd + 1 ∧ p'.asked = 0 ∧ CellJoined s (s.restore stop q) stop q c rest p'
      (payloadOf (s.hbmGet (p.base + 0x40 + 8 * p.cells + 64 * (p.rd % p.cells)) 64)) := by
  have htakes := h.takes
  simp only [State.restores, State.headCells, hdata, Bool.and_eq_true, decide_eq_true_eq, Bool.false_eq_true, if_false] at htakes
  obtain ⟨⟨⟨⟨⟨hin, -⟩, hroom⟩, -⟩, -⟩, -⟩ := htakes
  obtain ⟨tag, side, heq⟩ := restore_eq h
  obtain ⟨bs, hheader, -⟩ := segHeader_eq_hbmPut s stop q (cellReturned p tag)
  have hw := segHeader_frame (s := s) (t := s) rfl stop q (cellReturned p tag)
  have hb : Memory.wf (s.segHeader stop q (cellReturned p tag)).hbm.bytes = true := by rw [hheader]; exact putBytes_wf hf.hbm
  have hjoin := cellJoined_linkRestored hf hw hb hdata hfree hside hroom (cellReturned p tag) side
    (payloadOf (s.hbmGet (p.base + 0x40 + 8 * p.cells + 64 * (p.rd % p.cells)) 64))
  have hentered := enterSpilled_of_spilled hjoin.spill (.inl hin)
  have hpump := spillPump_of_entered (p := { cellReturned p tag with headLast := c }) (by rw [hentered]; exact hjoin.spill) hin hmore
  rw [heq, hpump, hentered]
  exact ⟨_, rfl, rfl, (hjoin.setSpill _).drainProgress 1⟩

/-! ## The obligation -/

/-- Settles O23: the acknowledgement of a spill write (R244) and the return of a cell of the segment (R245, R247). -/
theorem spillAndRestore : Obligations.SpillAndRestore := by
  unfold Obligations.SpillAndRestore
  refine ⟨?ack, ?back⟩
  case ack =>
    intro s stop q c side room v p rest hf hstop hk hq hspill hw hacks hrd hcells hroom
    exact ⟨s.spillAck stop q, rfl, spillAck_effect hf hspill hw hacks hrd hcells hroom⟩
  case back =>
    intro s stop q c p rest hf hstop hk hq hspill hasked htakes hmore hdata hfree hside hue hce hkeep
    obtain ⟨p', hrd, hasked', hjoin⟩ := restore_effect hf ⟨hspill, hasked, htakes, hkeep, hue, hce⟩ hmore hdata hfree hside
    exact ⟨s.restore stop q, rfl, hjoin.level, hjoin.free, hjoin.restored, by rw [hjoin.spill, Option.map_some, hrd, hasked'],
      hjoin.cell, hjoin.frame⟩

end Sys2Proof.Proofs

/-! # The life of pipelines (O27) -/

namespace Sys2Proof.Proofs

open Sys2Proof.Machine Sys2Proof.Claims Sys2Proof.Laws

/-- STOP of pipeline 1, from submission ring 0 of the part's own host (R409). -/
def stopOfOne : Cmd := { origin := 0, ring := 0, entry := BitVec.ofNat 512 (3 + 2 ^ 72) }

/-- What the governor keeps of a pipeline whose manifest names one tile, the array tile at stop 33. -/
def oneTile : PipeInfo :=
  { entry := { bytes := [(0, 1)] }, doms := [], stops := [33], jobs := [], cams := [], regions := [], syncInit := [], ends := [],
    signals := [], skew := [], channels := false, peers := [], digest := 0 }

/-- A RUNNING pipeline 1, its STOP fetched. Its one tile runs and is at a bundle with an uncorrectable ECC error. -/
def runsBadBundle : State :=
  { regs := [(pipeReg 1, 2), (reg 33 4, 0x80000001), (reg 33 0xD004, 1)]
    sched := [(33, { pmUe := [0] })]
    host := { cmds := [stopOfOne] }
    gov := { pipes := [(1, { info := some oneTile })] }
    boot := { started := true } }

theorem form_runsBadBundle : Form runsBadBundle := by constructor <;> decide

theorem begins_stopOfOne : Begins runsBadBundle 0 3 stopOfOne := ⟨rfl, by decide +kernel, by decide +kernel, by decide +kernel⟩

theorem placed_runsBadBundle : Placed runsBadBundle 1 := ⟨by decide, by decide⟩

/-- R134, R414: the halt that the STOP asks for finds the error, which is counted for the pipeline. -/
theorem ctr_stop_runsBadBundle : ((runsBadBundle.command 0 3 State.stopPipe).pipeAt 1).ctr = [(21, 1)] := by
  decide +kernel

/-- Refutes O27 in its clause on STOP of a RUNNING pipeline, which leaves of what the governor keeps of the pipeline all but phase and
command. The halt of a tile checks the bundle at its pc (R134), and where that has an uncorrectable error, the pipeline's error counters go
on (R414). -/
theorem not_lifeOfPipelines : ¬ Obligations.LifeOfPipelines := by
  unfold Obligations.LifeOfPipelines
  rintro ⟨-, -, -, -, hstop, -⟩
  obtain ⟨t, hexec, -, -, hpipe, -⟩ := hstop runsBadBundle 0 1 stopOfOne form_runsBadBundle begins_stopOfOne (by decide +kernel)
    (by decide) placed_runsBadBundle
  obtain rfl : runsBadBundle.command 0 3 State.stopPipe = t := Host.Outcome.next.inj hexec
  have hcount := ctr_stop_runsBadBundle
  rw [hpipe] at hcount
  exact absurd hcount (by decide)

end Sys2Proof.Proofs

/-! # Sorus engines: regions and records (O39) -/

namespace Sys2Proof.Proofs

open Sys2Proof.Machine Sys2Proof.Claims Sys2Proof.Laws

/-! ## Jobs of an engine -/

theorem engAt_setJob {s : State} (h : twf {} s.eng = true) (stop slot : Nat) (x : EJob) :
    (s.setJob stop slot x).engAt stop = { s.engAt stop with jobs := tput {} (s.engAt stop).jobs slot x } :=
  engAt_setEng h _ _

theorem jobAt_setJob {s : State} (h : twf {} s.eng = true) (stop slot : Nat) {x : EJob} (hx : x ≠ {}) :
    (s.setJob stop slot x).jobAt stop slot = x := by
  rw [State.jobAt, engAt_setJob h]
  exact tget_tput_of_ne_default _ _ hx

theorem recs_setJob {s : State} (h : twf {} s.eng = true) (stop slot : Nat) (x : EJob) :
    ((s.setJob stop slot x).engAt stop).recs = (s.engAt stop).recs := by rw [engAt_setJob h]

theorem jobAt_setRecs {s : State} (h : twf {} s.eng = true) (stop slot : Nat) (rs : List EngRec) :
    (s.setEng stop { s.engAt stop with recs := rs }).jobAt stop slot = s.jobAt stop slot := by
  rw [State.jobAt, engAt_setEng h, State.jobAt]

theorem setJob_wf {s : State} (h : twf {} s.eng = true) (stop slot : Nat) (x : EJob) : twf {} (s.setJob stop slot x).eng = true :=
  tput_wf h

theorem job_ne_default_of_regions {j : EJob} (h : j.regions ≠ []) : j ≠ {} := by rintro rfl; exact h rfl

theorem job_ne_default_of_tag {j : EJob} (h : j.tag ≠ none) : j ≠ {} := by rintro rfl; exact h rfl

theorem pipeAt_tally_update {s : State} (h : twf {} s.gov.pipes = true) (p key n q : Nat) :
    ((s.tally p key n).pipeAt q).update = (s.pipeAt q).update := by
  have hget : (s.tally p key n).pipeAt q = if q = p then _ else s.pipeAt q := tget_tput h _ _ _
  rw [hget]
  split
  · next hq => rw [hq]
  · rfl

theorem slot_lt_of_jobValid {s : State} {stop slot : Nat} (h : s.jobValid stop slot = true) : slot < 8 := by
  simp only [State.jobValid, Bool.and_eq_true, decide_eq_true_eq] at h
  exact h.1.2

theorem isJob_of_kind {s : State} {k : Kind} {stop slot : Nat} (h : s.jobValid stop slot = true) (hk : kindOf stop = k) :
    s.isJob k stop slot = true := by
  simp [State.isJob, h, hk]

/-! ## What a record of a job depends on -/

/-- The registers of a Sorus engine that its records and regions change: its error flags, its count of candidates and SOR_RECBUF
(R286). -/
def sorRegs (stop : Nat) : List Nat := [reg stop 0x0200, reg stop 0x0204, reg stop 0x0210]

theorem jobReg_not_mem_sorRegs (stop : Nat) {slot off : Nat} (hslot : slot < 8) (hoff : off < 16) :
    jobReg stop slot off ∉ sorRegs stop := by
  simp only [sorRegs, jobReg, List.mem_cons, reg_inj, List.not_mem_nil, or_false]
  omega

theorem not_mem_sorRegs_of_lt (stop : Nat) {a : Nat} (h : a < 0x01000000) : a ∉ sorRegs stop := by
  simp only [sorRegs, reg, List.mem_cons, List.not_mem_nil, or_false]
  omega

/-- From s to t nothing has changed that the contents of a job's records depend on, beside its regions and its sequences: the
registers, the engine's SRAM, the job's descriptors, stamps and notices, and the updates of the pipelines. -/
structure SameJob (s t : State) (stop slot : Nat) : Prop where
  kept : Kept s t (sorRegs stop)
  sram : (t.engAt stop).sram = (s.engAt stop).sram
  ue : (t.engAt stop).lmUe = (s.engAt stop).lmUe
  ce : (t.engAt stop).lmCe = (s.engAt stop).lmCe
  alt : (t.jobAt stop slot).alt = (s.jobAt stop slot).alt
  stamps : (t.jobAt stop slot).stamps = (s.jobAt stop slot).stamps
  notices : (t.jobAt stop slot).notices = (s.jobAt stop slot).notices
  update : ∀ p, (t.pipeAt p).update = (s.pipeAt p).update

namespace SameJob

variable {s t : State} {stop slot : Nat}

theorem rd_jobReg (h : SameJob s t stop slot) (hslot : slot < 8) {off : Nat} (hoff : off < 16) :
    t.rd (jobReg stop slot off) = s.rd (jobReg stop slot off) := h.kept _ (jobReg_not_mem_sorRegs stop hslot hoff)

theorem rf_jobReg (h : SameJob s t stop slot) (hslot : slot < 8) {off : Nat} (hoff : off < 16) (lo n : Nat) :
    t.rf (jobReg stop slot off) lo n = s.rf (jobReg stop slot off) lo n := by rw [State.rf, h.rd_jobReg hslot hoff, State.rf]

theorem jobPipe (h : SameJob s t stop slot) (hslot : slot < 8) : t.jobPipe stop slot = s.jobPipe stop slot :=
  h.rf_jobReg hslot (by omega) _ _

theorem jobCpy (h : SameJob s t stop slot) (hslot : slot < 8) : t.jobCpy stop slot = s.jobCpy stop slot :=
  h.rf_jobReg hslot (by omega) _ _

theorem jobTagEpoch (h : SameJob s t stop slot) (hslot : slot < 8) : t.jobTagEpoch stop slot = s.jobTagEpoch stop slot := by
  rw [State.jobTagEpoch, h.rf_jobReg hslot (by omega), State.jobTagEpoch]

theorem stampFor (h : SameJob s t stop slot) (frame : Nat) :
    (t.jobAt stop slot).stampFor frame = (s.jobAt stop slot).stampFor frame := by
  rw [EJob.stampFor, h.stamps, EJob.stampFor]

theorem descAt (h : SameJob s t stop slot) (c d : Nat) : t.descAt stop slot c d = s.descAt stop slot c d := by
  simp only [State.descAt, h.alt, Engine.payload, Engine.get, h.sram, h.ue]

theorem descList (h : SameJob s t stop slot) (c n d : Nat) : t.descList stop slot c d n = s.descList stop slot c d n := by
  induction n generalizing d with
  | zero => rfl
  | succ n ih => simp only [State.descList, h.descAt, ih]

theorem sorDescs (h : SameJob s t stop slot) (hslot : slot < 8) (c : Nat) : t.sorDescs stop slot c = s.sorDescs stop slot c := by
  rw [State.sorDescs, State.jobDescs, h.descList, h.rf_jobReg hslot (by omega), State.sorDescs, State.jobDescs]

theorem sorHead (h : SameJob s t stop slot) (hslot : slot < 8) (c : Nat) : t.sorHead stop slot c = s.sorHead stop slot c := by
  rw [State.sorHead, h.sorDescs hslot, State.sorHead]

theorem recFlags (h : SameJob s t stop slot) (hslot : slot < 8) (frame : Nat) :
    t.recFlags stop slot frame = s.recFlags stop slot frame := by
  have hpipe : s.jobPipe stop slot < 64 := rf_lt _ _ _ _
  have hstate : t.pstate (s.jobPipe stop slot) = s.pstate (s.jobPipe stop slot) := by
    rw [State.pstate, State.rf, h.kept _ (not_mem_sorRegs_of_lt stop (by simp only [pipeReg]; omega)), State.pstate, State.rf]
  have hsync : t.flag 0x0050800C 0 = s.flag 0x0050800C 0 := by
    rw [State.flag, h.kept _ (not_mem_sorRegs_of_lt stop (by omega)), State.flag]
  simp only [State.recFlags, h.jobPipe hslot, h.notices, h.stampFor, h.update, hstate, hsync]

end SameJob

/-- From s to t a Sorus engine has worked: tables are in canonical form, and beside its registers only the engines and the pipelines'
counters may differ. -/
structure EngineWork (s t : State) (stop : Nat) : Prop where
  regs : regWf t.regs = true
  eng : twf {} t.eng = true
  pipes : twf {} t.gov.pipes = true
  kept : Kept s t (sorRegs stop)
  beside : t = { s with regs := t.regs, gov := t.gov, eng := t.eng }

/-- An engine has worked and what a record of the job depends on has not changed. -/
structure JobWork (s t : State) (stop slot : Nat) : Prop extends EngineWork s t stop, SameJob s t stop slot

theorem EngineWork.setJob {s t : State} {stop : Nat} (h : EngineWork s t stop) (slot : Nat) (x : EJob) :
    EngineWork s (t.setJob stop slot x) stop where
  regs := h.regs
  eng := setJob_wf h.eng _ _ _
  pipes := h.pipes
  kept := h.kept
  beside := by rw [h.beside]; rfl

namespace JobWork

variable {s t : State} {stop slot : Nat}

theorem refl (h : Form s) (stop slot : Nat) : JobWork s s stop slot where
  regs := h.regs
  eng := h.eng
  pipes := h.pipes
  kept := kept_refl _ _
  beside := rfl
  sram := rfl
  ue := rfl
  ce := rfl
  alt := rfl
  stamps := rfl
  notices := rfl
  update _ := rfl

theorem wf (h : JobWork s t stop slot) {a : Nat} (ha : a ∈ sorRegs stop) (lo n v : Nat) : JobWork s (t.wf a lo n v) stop slot where
  regs := wf_wf h.regs _ _ _ _
  eng := h.eng
  pipes := h.pipes
  kept := kept_wf h.kept h.regs ha _ _ _
  beside := by rw [h.beside]; rfl
  sram := h.sram
  ue := h.ue
  ce := h.ce
  alt := h.alt
  stamps := h.stamps
  notices := h.notices
  update := h.update

theorem ite (h : JobWork s t stop slot) {u : State} (hu : JobWork s u stop slot) (p : Prop) [Decidable p] :
    JobWork s (if p then t else u) stop slot := by
  split
  · exact h
  · exact hu

theorem tally (h : JobWork s t stop slot) (p key : Nat) : JobWork s (t.tally p key) stop slot where
  regs := h.regs
  eng := h.eng
  pipes := tput_wf h.pipes
  kept := h.kept
  beside := by rw [h.beside]; rfl
  sram := h.sram
  ue := h.ue
  ce := h.ce
  alt := h.alt
  stamps := h.stamps
  notices := h.notices
  update q := by rw [pipeAt_tally_update h.pipes, h.update]

theorem setJob (h : JobWork s t stop slot) {x : EJob} (hx : x ≠ {}) (halt : x.alt = (t.jobAt stop slot).alt)
    (hstamps : x.stamps = (t.jobAt stop slot).stamps) (hnotices : x.notices = (t.jobAt stop slot).notices) :
    JobWork s (t.setJob stop slot x) stop slot where
  toEngineWork := h.toEngineWork.setJob slot x
  sram := by rw [engAt_setJob h.eng]; exact h.sram
  ue := by rw [engAt_setJob h.eng]; exact h.ue
  ce := by rw [engAt_setJob h.eng]; exact h.ce
  alt := by rw [jobAt_setJob h.eng _ _ hx, halt, h.alt]
  stamps := by rw [jobAt_setJob h.eng _ _ hx, hstamps, h.stamps]
  notices := by rw [jobAt_setJob h.eng _ _ hx, hnotices, h.notices]
  update := h.update

theorem setRecs (h : JobWork s t stop slot) (rs : List EngRec) :
    JobWork s (t.setEng stop { t.engAt stop with recs := rs }) stop slot where
  regs := h.regs
  eng := tput_wf h.eng
  pipes := h.pipes
  kept := h.kept
  beside := by rw [h.beside]; rfl
  sram := by rw [engAt_setEng h.eng]; exact h.sram
  ue := by rw [engAt_setEng h.eng]; exact h.ue
  ce := by rw [engAt_setEng h.eng]; exact h.ce
  alt := by rw [jobAt_setRecs h.eng, h.alt]
  stamps := by rw [jobAt_setRecs h.eng, h.stamps]
  notices := by rw [jobAt_setRecs h.eng, h.notices]
  update := h.update

end JobWork

/-! ## A record enters the buffer -/

/-- R282: the job after a record of it has been written. -/
def recorded (j : EJob) : EJob := { j with lostRec := false, recSeq := (j.recSeq + 1) % 2 ^ 32 }

/-- From t to u a record of the job has entered the engine's buffer. -/
structure Recorded (t u : State) (stop slot : Nat) (rec : EngRec) : Prop where
  recs : (u.engAt stop).recs = (t.engAt stop).recs ++ [rec]
  job : u.jobAt stop slot = recorded (t.jobAt stop slot)

theorem pushRec_effect {s t : State} {stop slot : Nat} (h : JobWork s t stop slot) (hne : recorded (t.jobAt stop slot) ≠ {})
    (ring : Nat) (kept : Bool) (data : Payload) :
    JobWork s (t.pushRec stop slot ring kept data) stop slot ∧
      Recorded t (t.pushRec stop slot ring kept data) stop slot { slot := slot, kept := kept, ring := ring, data := data } := by
  have hu := h.setRecs ((t.engAt stop).recs ++ [{ slot := slot, kept := kept, ring := ring, data := data }])
  have hjob := jobAt_setRecs h.eng stop slot ((t.engAt stop).recs ++ [{ slot := slot, kept := kept, ring := ring, data := data }])
  rw [← hjob] at hne
  refine ⟨(hu.setJob hne rfl rfl rfl).wf (by simp [sorRegs]) _ _ _, ?_, ?_⟩
  · exact (recs_setJob hu.eng stop slot _).trans (congrArg Engine.recs (engAt_setEng h.eng stop _))
  · exact (jobAt_setJob hu.eng stop slot hne).trans (congrArg recorded hjob)

/-- R282: a type 1 or type 4 record for which there is room. -/
theorem emitRec_effect {s t : State} {stop slot : Nat} (h : JobWork s t stop slot) (hroom : (t.engAt stop).room = true)
    (hne : recorded (t.jobAt stop slot) ≠ {}) (ring key flags : Nat) (mk : Nat → Payload) :
    JobWork s (t.emitRec stop slot ring key flags mk) stop slot ∧
      Recorded t (t.emitRec stop slot ring key flags mk) stop slot
        { slot := slot, kept := false, ring := ring, data := mk (flags + lostBit (t.jobAt stop slot)) } := by
  obtain ⟨hwork, hrec⟩ := pushRec_effect h hne ring false (mk (flags + lostBit (t.jobAt stop slot)))
  simp only [State.emitRec, hroom, if_true]
  exact ⟨hwork.tally _ _, hrec.recs, hrec.job⟩

/-! ## A region closes -/

theorem stamps_of_noStamps {s : State} {stop slot : Nat} (h : NoStamps s stop slot) : s.stamps stop slot = s := by
  rw [NoStamps] at h
  simp [State.stamps, h, State.takeStamps]

theorem exec_regionClose {s : State} {stop slot : Nat} (hv : s.jobValid stop slot = true) (hk : kindOf stop = .sor) :
    exec (.regionClose stop slot) s = .next (s.regionClose stop slot) :=
  congrArg Host.Outcome.next (if_pos (isJob_of_kind hv hk))

/-- R279: what suppression makes of a region's candidates. -/
def suppressed (s : State) (stop slot : Nat) (r : Region) : List Box × Nat :=
  suppress (s.sorHead stop slot r.cpy).2.thr (s.sorHead stop slot r.cpy).2.keepMax (s.sorHead stop slot r.cpy).2.agnostic
    (r.boxes.mergeSort Box.before)

/-- R276, R279: a region after its close. -/
def closedRegion (s : State) (stop slot : Nat) (r : Region) : Region :=
  { r with boxes := [], closed := some s.ck, kept := (suppressed s stop slot r).1, left := (suppressed s stop slot r).2,
           pFirst := (s.window276 stop slot r.frame).1, pNext := (s.window276 stop slot r.frame).2 }

/-- The state after the close of a job's oldest region, `rest` being those opened after it. -/
def afterClose (s : State) (stop slot : Nat) (r : Region) (rest : List Region) : State :=
  s.bump.setJob stop slot { s.jobAt stop slot with regions := closedRegion s stop slot r :: rest }

/-- R276, R279: the oldest region closes where another has been opened after it. -/
theorem regionClose_eq {s : State} {stop slot : Nat} {r u : Region} {rest : List Region} (hno : NoStamps s stop slot)
    (hregs : (s.jobAt stop slot).regions = r :: u :: rest) (hopen : r.closed = none) (hne : u ≠ r) (hrest : r ∉ rest)
    (hown : (s.sorHead stop slot r.cpy).2.ownOnly = false) :
    s.regionClose stop slot = if (suppressed s stop slot r).2 = 0 then afterClose s stop slot r (u :: rest)
      else (afterClose s stop slot r (u :: rest)).setFlag (reg stop 0x0200) 3 := by
  have hclosing : (s.jobAt stop slot).closing = true := by simp [EJob.closing, hregs, hopen]
  have hmap (r2 : Region) : (r :: u :: rest).map (fun x => if x = r then r2 else x) = r2 :: u :: rest := by
    have hkeep : rest.map (fun x => if x = r then r2 else x) = rest :=
      (List.map_congr_left fun x hx => if_neg (ne_of_mem_of_not_mem hx hrest)).trans (List.map_id' rest)
    simp [hne, hkeep]
  simp only [State.regionClose, stamps_of_noStamps hno, hclosing, hregs, List.find?_cons_of_pos (p := fun r : Region => r.closed.isNone)
    (a := r) (l := u :: rest) (by simp [hopen]), hown, hmap, Bool.true_or, Bool.not_true, Bool.false_eq_true, if_false]
  rfl

theorem regionClose_effect {s : State} {stop slot : Nat} {r : Region} {rest : List Region} (hf : Form s) {t : State}
    (ht : t = if (suppressed s stop slot r).2 = 0 then afterClose s stop slot r rest
      else (afterClose s stop slot r rest).setFlag (reg stop 0x0200) 3) :
    (t.jobAt stop slot).regions = closedRegion s stop slot r :: rest ∧ Kept s t [reg stop 0x0200] ∧
      t = { s with regs := t.regs, eng := t.eng, free := s.free + 1 } := by
  have hjob : (afterClose s stop slot r rest).jobAt stop slot =
      { s.jobAt stop slot with regions := closedRegion s stop slot r :: rest } :=
    jobAt_setJob (s := s.bump) hf.eng stop slot (job_ne_default_of_regions (List.cons_ne_nil _ _))
  have hregions := congrArg EJob.regions hjob
  have hkept : Kept s (afterClose s stop slot r rest) [reg stop 0x0200] := kept_refl s _
  split at ht
  · subst ht
    exact ⟨hregions, hkept, rfl⟩
  · subst ht
    exact ⟨hregions, kept_wf hkept hf.regs (.head _) _ _ _, rfl⟩

/-! ## The records of a region -/

/-- The number that comes i records after record number n (R283). -/
def seqAfter (n i : Nat) : Nat := if i = 0 then n else (n + i) % 2 ^ 32

theorem seqAfter_succ (n i : Nat) : seqAfter n (i + 1) = (seqAfter n i + 1) % 2 ^ 32 := by
  simp only [seqAfter, Nat.add_one_ne_zero, if_false]
  split <;> omega

/-- A closed region of the job whose records, with flags `fl`, have a quiet gap, a stamp, room in the buffer and no crops. -/
structure Reportable (s : State) (stop slot : Nat) (r : Region) (rest : List Region) (d : SorDesc) (fl : Nat) : Prop where
  form : Form s
  bound : slot < 8
  regions : (s.jobAt stop slot).regions = r :: rest
  next : r.next = 0
  unflagged : r.fl = 0
  lost : (s.jobAt stop slot).lostRec = false
  desc : (s.sorHead stop slot r.cpy).2 = d
  crop : d.cropEn = false
  room : ((s.engAt stop).recs.filter fun x => !x.kept).length + r.kept.length < 240
  flags : fl = s.recFlags stop slot r.frame + r.flags ((s.jobAt stop slot).stampFor r.frame)

/-- R283: the type 1 record of box b, number i of region r, for given flags. -/
def boxData (s : State) (stop slot : Nat) (r : Region) (d : SorDesc) (i : Nat) (b : Box) (flags : Nat) : Payload :=
  type1 (s.jobPipe stop slot) flags r ((s.jobAt stop slot).stampFor r.frame) d (s.jobAt stop slot).regSeq
    (seqAfter (s.jobAt stop slot).recSeq i) i b

/-- R283: the type 1 record of a box and its number as it stands in the engine's buffer. -/
def boxRec (s : State) (stop slot : Nat) (r : Region) (d : SorDesc) (fl : Nat) (b : Box × Nat) : EngRec :=
  { slot := slot, kept := false, ring := d.ring, data := boxData s stop slot r d b.2 b.1 fl }

/-- R281: region r after i of its type 1 records. -/
def reportedRegion (r : Region) (fl i : Nat) : Region := { r with next := i, fl := if i = 0 then 0 else fl }

/-- R281: the job after i type 1 records of its oldest region r. -/
def reportedJob (j : EJob) (r : Region) (rest : List Region) (fl i : Nat) : EJob :=
  { j with regions := reportedRegion r fl i :: rest, recSeq := seqAfter j.recSeq i }

/-- From s to t the first i type 1 records of the job's oldest region have been written. -/
structure BoxesReported (s t : State) (stop slot : Nat) (r : Region) (rest : List Region) (d : SorDesc) (fl i : Nat) : Prop where
  work : JobWork s t stop slot
  job : t.jobAt stop slot = reportedJob (s.jobAt stop slot) r rest fl i
  recs : (t.engAt stop).recs = (s.engAt stop).recs ++ (r.kept.take i).zipIdx.map (boxRec s stop slot r d fl)

section

variable {s t : State} {stop slot : Nat} {r : Region} {rest : List Region} {d : SorDesc} {fl : Nat}

theorem reportedRegion_zero (hnext : r.next = 0) (hfl : r.fl = 0) : reportedRegion r fl 0 = r := by
  cases r
  cases hnext
  cases hfl
  rfl

theorem boxesReported_zero (h : Reportable s stop slot r rest d fl) : BoxesReported s s stop slot r rest d fl 0 where
  work := .refl h.form stop slot
  job := by rw [reportedJob, reportedRegion_zero h.next h.unflagged, ← h.regions, seqAfter, if_pos rfl]
  recs := by simp

/-- While boxes are left the buffer has room: no more than they stand in it beside what was there (R282). -/
theorem BoxesReported.room {i : Nat} (h : BoxesReported s t stop slot r rest d fl i) (hs : Reportable s stop slot r rest d fl) :
    (t.engAt stop).room = true := by
  have hnew : ((r.kept.take i).zipIdx.map (boxRec s stop slot r d fl)).filter (fun x => !x.kept) =
      (r.kept.take i).zipIdx.map (boxRec s stop slot r d fl) :=
    List.filter_eq_self.mpr fun x hx => by
      obtain ⟨b, -, rfl⟩ := List.mem_map.mp hx
      rfl
  have hroom := hs.room
  rw [Engine.room, h.recs, List.filter_append, hnew, List.length_append, List.length_map, List.length_zipIdx, List.length_take,
    decide_eq_true_eq]
  omega

theorem BoxesReported.lost {i : Nat} (h : BoxesReported s t stop slot r rest d fl i) (hs : Reportable s stop slot r rest d fl) :
    lostBit (t.jobAt stop slot) = 0 := by
  simp [h.job, reportedJob, lostBit, hs.lost, boolNat]

/-- The flags of the region's records are the same while they are written. -/
theorem BoxesReported.flags {i : Nat} (h : BoxesReported s t stop slot r rest d fl i) (hs : Reportable s stop slot r rest d fl) :
    t.recFlags stop slot r.frame + r.flags ((s.jobAt stop slot).stampFor r.frame) = fl := by
  rw [h.work.recFlags hs.bound, hs.flags]

theorem BoxesReported.desc {i : Nat} (h : BoxesReported s t stop slot r rest d fl i) (hs : Reportable s stop slot r rest d fl) :
    (t.sorHead stop slot r.cpy).2 = d := by
  rw [h.work.sorHead hs.bound, hs.desc]

theorem modRegion_eq (hregs : (t.jobAt stop slot).regions = r :: rest) (f : Region → Region) :
    t.modRegion stop slot f = t.setJob stop slot { t.jobAt stop slot with regions := f r :: rest } := by
  rw [State.modRegion, hregs]

/-- R281: the state after the type 1 record of box b, which is number i of its region and asks for no crop. -/
def withBoxRecord (t : State) (stop slot : Nat) (r : Region) (i : Nat) (b : Box) : State :=
  let j := t.jobAt stop slot
  let d := (t.sorHead stop slot r.cpy).2
  let fl := t.recFlags stop slot r.frame + r.flags (j.stampFor r.frame)
  (t.modRegion stop slot fun x => { x with next := x.next + 1, fl := x.fl ||| (fl + lostBit j) }).emitRec stop slot d.ring 10 fl
    fun f => type1 (t.jobPipe stop slot) f r (j.stampFor r.frame) d j.regSeq j.recSeq i b

theorem boxRecords_succ {i : Nat} {b : Box} (hnext : ((t.jobAt stop slot).regions.head?.map (·.next)).getD 0 = i)
    (hb : r.kept[i]? = some b) (hcrop : (t.sorHead stop slot r.cpy).2.cropEn = false) (n : Nat) :
    t.boxRecords stop slot r (n + 1) = (withBoxRecord t stop slot r i b).boxRecords stop slot r n := by
  simp only [State.boxRecords, hnext, hb, hcrop, Bool.false_and, Bool.false_eq_true, if_false, withBoxRecord]

/-- R281: the job when the type 1 record number i of its oldest region r is about to enter the buffer. -/
def boxCounted (j : EJob) (r : Region) (rest : List Region) (fl i : Nat) : EJob :=
  { j with regions := reportedRegion r fl (i + 1) :: rest }

theorem boxCounted_ne_default (j : EJob) (r : Region) (rest : List Region) (fl i : Nat) : boxCounted j r rest fl i ≠ {} :=
  job_ne_default_of_regions (List.cons_ne_nil _ _)

/-- The OR of the flags of a region's type 1 records, the same for every box, brings no other flags. -/
theorem or_flagsUpTo (fl i : Nat) : (fl ||| if i = 0 then 0 else fl) = fl := by
  split
  · exact Nat.or_zero fl
  · exact Nat.or_self fl

theorem reportedRegion_succ (r : Region) (fl i : Nat) :
    reportedRegion r fl (i + 1) = { reportedRegion r fl i with next := i + 1, fl := (reportedRegion r fl i).fl ||| fl } := by
  simp [reportedRegion, Nat.or_comm _ fl, or_flagsUpTo]

theorem withBoxRecord_eq {i : Nat} (h : BoxesReported s t stop slot r rest d fl i) (hs : Reportable s stop slot r rest d fl) (b : Box) :
    withBoxRecord t stop slot r i b = (t.setJob stop slot (boxCounted (t.jobAt stop slot) r rest fl i)).emitRec stop slot d.ring 10 fl
      (boxData s stop slot r d i b) := by
  have hregs : (t.jobAt stop slot).regions = reportedRegion r fl i :: rest := by rw [h.job]; rfl
  have hregSeq : (t.jobAt stop slot).regSeq = (s.jobAt stop slot).regSeq := by rw [h.job]; rfl
  have hrecSeq : (t.jobAt stop slot).recSeq = seqAfter (s.jobAt stop slot).recSeq i := by rw [h.job]; rfl
  rw [boxCounted, reportedRegion_succ]
  simp only [withBoxRecord, h.work.jobPipe hs.bound, h.work.stampFor, h.flags hs, h.desc hs, h.lost hs, Nat.add_zero, modRegion_eq hregs,
    hregSeq, hrecSeq]
  rfl

theorem BoxesReported.succ {i : Nat} {b : Box} (h : BoxesReported s t stop slot r rest d fl i) (hs : Reportable s stop slot r rest d fl)
    (hb : r.kept[i]? = some b) : BoxesReported s (withBoxRecord t stop slot r i b) stop slot r rest d fl (i + 1) := by
  have hne := boxCounted_ne_default (t.jobAt stop slot) r rest fl i
  have hjob := jobAt_setJob h.work.eng stop slot hne
  have heng := engAt_setJob h.work.eng stop slot (boxCounted (t.jobAt stop slot) r rest fl i)
  have hrecs := recs_setJob h.work.eng stop slot (boxCounted (t.jobAt stop slot) r rest fl i)
  have hroom := (congrArg Engine.room heng).trans (h.room hs)
  have hlost : lostBit (boxCounted (t.jobAt stop slot) r rest fl i) = 0 := h.lost hs
  obtain ⟨hwork, hrec⟩ := emitRec_effect (h.work.setJob hne rfl rfl rfl) hroom
    (by rw [hjob]; exact job_ne_default_of_regions (List.cons_ne_nil _ _)) d.ring 10 fl (boxData s stop slot r d i b)
  rw [withBoxRecord_eq h hs]
  refine ⟨hwork, ?_, ?_⟩
  · rw [hrec.job, hjob, h.job, reportedJob, reportedJob, seqAfter_succ]
    simp only [recorded, boxCounted, hs.lost]
  · have hlen : min i r.kept.length = i := Nat.min_eq_left (Nat.le_of_lt (List.getElem?_eq_some_iff.mp hb).1)
    rw [hrec.recs, hrecs, h.recs, hjob, hlost, List.take_add_one, hb, List.zipIdx_append, List.map_append, List.append_assoc]
    simp [hlen, boxRec]

/-- R281: all type 1 records of the region are written. -/
theorem boxRecords_effect (hs : Reportable s stop slot r rest d fl) (n : Nat) {i : Nat} (h : BoxesReported s t stop slot r rest d fl i)
    (hn : i + n = r.kept.length) : BoxesReported s (t.boxRecords stop slot r n) stop slot r rest d fl r.kept.length := by
  induction n generalizing t i with
  | zero => exact hn ▸ h
  | succ n ih =>
    have hnext : ((t.jobAt stop slot).regions.head?.map (·.next)).getD 0 = i := by rw [h.job]; rfl
    have hcrop : (t.sorHead stop slot r.cpy).2.cropEn = false := by rw [h.desc hs, hs.crop]
    have hb : r.kept[i]? = some r.kept[i] := List.getElem?_eq_getElem (by omega)
    rw [boxRecords_succ hnext hb hcrop]
    exact ih (h.succ hs hb) (by omega)

theorem exec_regionRecords (hv : s.jobValid stop slot = true) (hk : kindOf stop = .sor) :
    exec (.regionRecords stop slot) s = .next (s.regionRecords stop slot) :=
  congrArg Host.Outcome.next (if_pos (isJob_of_kind hv hk))

/-- R281, R283: the state after the type 2 record of region r, with flags `fl`, in a state in which all its type 1 records are written. -/
def withRegionRecord (u : State) (stop slot : Nat) (r : Region) (ring fl : Nat) : State :=
  let j := u.jobAt stop slot
  let v := (u.pushRec stop slot ring false (type2 (u.jobPipe stop slot) fl r (j.stampFor r.frame) j.regSeq j.recSeq)).tally
    (u.jobPipe stop slot) 11
  v.setJob stop slot ((v.jobAt stop slot).usedFrame r.frame)

theorem regionRecords_eq {c : Nat} (hs : Reportable s stop slot r rest d fl) (hno : NoStamps s stop slot) (hclosed : r.closed = some c)
    (hgap : c + s.gap (s.jobPipe stop slot) ≤ s.ck) (hstamp : ((s.jobAt stop slot).stampFor r.frame).isSome = true)
    (h : BoxesReported s t stop slot r rest d fl r.kept.length) (ht : s.boxRecords stop slot r r.kept.length = t) :
    s.regionRecords stop slot = withRegionRecord t stop slot r d.ring fl := by
  have hnone : ((s.jobAt stop slot).stampFor r.frame).isNone = false := by simp [Option.isNone_eq_false_iff, hstamp]
  have hnext : ((t.jobAt stop slot).regions.head?.map (·.next)).getD 0 = r.kept.length := by rw [h.job]; rfl
  have hmade : (t.jobAt stop slot).regions.head?.elim 0 (·.fl) = if r.kept.length = 0 then 0 else fl := by rw [h.job]; rfl
  simp only [State.regionRecords, stamps_of_noStamps hno, hs.regions, hclosed, Nat.not_lt.mpr hgap, if_false, hnone, Bool.false_eq_true,
    hs.next, Nat.sub_zero, ht, hnext, hmade, h.room hs, Nat.lt_irrefl, Bool.not_true, false_and, or_self, h.flags hs, h.lost hs,
    Nat.add_zero, h.desc hs, or_flagsUpTo, withRegionRecord, h.work.jobPipe hs.bound, h.work.stampFor]

/-- R281: the records of a region enter the engine's buffer, and beside registers, counters and engines nothing changes. -/
theorem withRegionRecord_effect (hs : Reportable s stop slot r rest d fl) (h : BoxesReported s t stop slot r rest d fl r.kept.length) :
    EngineWork s (withRegionRecord t stop slot r d.ring fl) stop ∧
      ((withRegionRecord t stop slot r d.ring fl).engAt stop).recs = (s.engAt stop).recs ++
        r.kept.zipIdx.map (boxRec s stop slot r d fl) ++
        [{ slot := slot, kept := false, ring := d.ring,
           data := type2 (s.jobPipe stop slot) fl r ((s.jobAt stop slot).stampFor r.frame) (s.jobAt stop slot).regSeq
             (seqAfter (s.jobAt stop slot).recSeq r.kept.length) }] := by
  have hne : recorded (t.jobAt stop slot) ≠ {} := by rw [h.job]; exact job_ne_default_of_regions (List.cons_ne_nil _ _)
  obtain ⟨hwork, hrec⟩ := pushRec_effect h.work hne d.ring false (type2 (t.jobPipe stop slot) fl r
    ((t.jobAt stop slot).stampFor r.frame) (t.jobAt stop slot).regSeq (t.jobAt stop slot).recSeq)
  have htally := hwork.tally (t.jobPipe stop slot) 11
  refine ⟨htally.toEngineWork.setJob _ _, ?_⟩
  refine (recs_setJob htally.eng _ _ _).trans (hrec.recs.trans ?_)
  rw [h.recs, List.take_length, h.work.jobPipe hs.bound, h.work.stampFor, h.job, reportedJob]

end

/-! ## The obligation -/

/-- Settles O39: the close of a region (R276, R279), and its records after a quiet gap (R281, R283), as log 22 reads them. -/
theorem regionsCloseAndReport : Obligations.RegionsCloseAndReport := by
  unfold Obligations.RegionsCloseAndReport
  refine ⟨?close, ?records⟩
  case close =>
    intro s stop slot r u rest hf hv hk hno hregs hopen _ hne hrest hown
    obtain ⟨hregions, hkept, hframe⟩ := regionClose_effect hf (regionClose_eq hno hregs hopen hne hrest hown)
    exact ⟨_, _, exec_regionClose hv hk, rfl, hregions, hkept, hframe⟩
  case records =>
    intro s stop slot c r rest j d fl hf hv hk hno hj hregs hclosed hgap hnext hnone hlost hd hcrop hstamp hroom hfl
    subst hj
    have hs : Reportable s stop slot r rest d fl := ⟨hf, slot_lt_of_jobValid hv, hregs, hnext, hnone, hlost, hd, hcrop, hroom, hfl⟩
    have hboxes := boxRecords_effect hs r.kept.length (boxesReported_zero hs) (Nat.zero_add _)
    obtain ⟨hwork, hrecs⟩ := withRegionRecord_effect hs hboxes
    rw [← regionRecords_eq hs hno hclosed hgap hstamp hboxes rfl] at hwork hrecs
    refine ⟨_, exec_regionRecords hv hk, ?_, ?_, ?_, ?_⟩
    · rw [hrecs]
      simp only [seqAfter, List.length_eq_zero_iff]
      rfl
    all_goals rw [hwork.beside]

end Sys2Proof.Proofs

/-! # Units of Sorus jobs (O38) -/

namespace Sys2Proof.Proofs

open Sys2Proof.Machine Sys2Proof.Claims Sys2Proof.Laws

section

variable {s t : State} {stop slot : Nat}

/-! ## A job in its turn -/

theorem jobValid_of_jobRuns (h : s.jobRuns stop slot = true) : s.jobValid stop slot = true := by
  simp only [State.jobRuns, Bool.and_eq_true] at h
  exact h.1.1

/-- R264: nothing is shed from a queue whose flits are all of the job's epoch. -/
theorem engShed_of_fresh {q : Nat} (h : ∀ f ∈ (s.lqAt stop q).q, f.epoch = s.jobTagEpoch stop slot) : s.engShed stop slot q = s := by
  have hkeep : (s.lqAt stop q).q.filter (fun f => f.epoch == s.jobTagEpoch stop slot) = (s.lqAt stop q).q :=
    List.filter_eq_self.mpr fun f hf => by simp [h f hf]
  simp only [State.engShed, hkeep, Nat.sub_self, if_true]

/-- R263: a job whose turn it is runs its unit. -/
theorem inTurn_of_turn (h : Turn s stop slot) (unit : State → State) : s.inTurn stop slot unit = unit s := by
  have hcredits : (s.unitSends stop slot).find? (fun x => !(s.jobAt stop slot).mayFor x.1 x.2.2.1 x.2.2.2) = none :=
    List.find?_eq_none.mpr fun x hx => by simp [List.all_eq_true.mp h.credits x hx]
  simp only [State.inTurn, h.runs, engShed_of_fresh h.fresh, h.ready, hcredits, h.next, h.kept, Bool.not_true, Bool.not_false,
    Bool.false_eq_true, if_false, and_self, if_true]

theorem sorHead_of_single {n c : Nat} {d : SorDesc} (h : s.sorDescs stop slot c = [(n, d)]) : s.sorHead stop slot c = (n, d) := by
  simp [State.sorHead, h]

theorem jobLq_of_single {n : Nat} {d : SorDesc} (hk : kindOf stop = .sor) (h : s.sorDescs stop slot (s.jobCpy stop slot) = [(n, d)]) :
    s.jobLq stop slot = d.lqIn := by
  simp [State.jobLq, hk, sorHead_of_single h]

theorem exec_sorusDetect (h : Turn s stop slot) (hk : kindOf stop = .sor) (hfn : s.sorFn stop slot = 0) :
    exec (.sorusDetect stop slot) s = .next (s.detectUnit stop slot) :=
  congrArg Host.Outcome.next ((if_pos ⟨isJob_of_kind (jobValid_of_jobRuns h.runs) hk, hfn⟩).trans (inTurn_of_turn h _))

theorem exec_sorusPass (h : Turn s stop slot) (hk : kindOf stop = .sor) (hfn : s.sorFn stop slot = 1) :
    exec (.sorusPass stop slot) s = .next (s.passUnit stop slot) :=
  congrArg Host.Outcome.next ((if_pos ⟨isJob_of_kind (jobValid_of_jobRuns h.runs) hk, hfn⟩).trans (inTurn_of_turn h _))

/-! ## The last flit of a block leaves its queue -/

/-- R164, R240: the state in which flit f has left landing queue q, with `rest` behind it, and its credit is still to be given. -/
def flitRemoved (s : State) (stop q : Nat) (f : LFlit) (rest : List LFlit) : State :=
  s.setLq stop q { q := rest, last := f, pops := (s.lqAt stop q).pops + 1 }

/-- R224: the state in which flit f has left landing queue q, with `rest` behind it. -/
def inputTaken (s : State) (stop q : Nat) (f : LFlit) (rest : List LFlit) : State := (flitRemoved s stop q f rest).lqCredit stop q 1

/-- R224: a credit goes on its way where the queue's credits are enabled. -/
theorem inputTaken_eq (s : State) (stop q : Nat) (f : LFlit) (rest : List LFlit) :
    inputTaken s stop q f rest = if s.flag (reg stop (0x0400 + 16 * q)) 0
      then (flitRemoved s stop q f rest).sync1 (.signal (s.rf (reg stop (0x0400 + 16 * q)) 16 16) 1 stop)
      else flitRemoved s stop q f rest := by
  rw [inputTaken, State.lqCredit, State.credit, bne_iff_ne.mpr Nat.one_ne_zero, Bool.and_true]
  rfl

theorem inputTaken_frame (s : State) (stop q : Nat) (f : LFlit) (rest : List LFlit) :
    inputTaken s stop q f rest = { s with lq := (inputTaken s stop q f rest).lq, mesh := (inputTaken s stop q f rest).mesh } := by
  rw [inputTaken_eq]
  split <;> rfl

theorem form_inputTaken (h : Form s) (stop q : Nat) (f : LFlit) (rest : List LFlit) : Form (inputTaken s stop q f rest) := by
  rw [inputTaken_eq]
  split
  all_goals exact { h with lq := tput_wf h.lq }

theorem popped_inputTaken (h : Form s) (stop q : Nat) (f : LFlit) (rest : List LFlit) :
    Popped s (inputTaken s stop q f rest) stop q f rest := by
  have hlq : (flitRemoved s stop q f rest).lqAt stop q = { q := rest, last := f, pops := (s.lqAt stop q).pops + 1 } :=
    tget_tput_same h.lq _ _
  rw [inputTaken_eq, Popped]
  split
  · exact ⟨hlq, List.filter_append _ _⟩
  · exact ⟨hlq, (List.append_nil _).symm⟩

theorem jobAt_inputTaken (s : State) (stop slot q : Nat) (f : LFlit) (rest : List LFlit) :
    (inputTaken s stop q f rest).jobAt stop slot = s.jobAt stop slot := by
  rw [inputTaken_frame]
  rfl

theorem engAt_inputTaken (s : State) (stop q : Nat) (f : LFlit) (rest : List LFlit) :
    (inputTaken s stop q f rest).engAt stop = s.engAt stop := by
  rw [inputTaken_frame]
  rfl

theorem cross_inputTaken (s : State) (stop q : Nat) (f : LFlit) (rest : List LFlit) :
    (inputTaken s stop q f rest).mesh.cross = s.mesh.cross := by
  rw [inputTaken_eq]
  split <;> rfl

theorem jobTagEpoch_inputTaken (s : State) (stop slot q : Nat) (f : LFlit) (rest : List LFlit) :
    (inputTaken s stop q f rest).jobTagEpoch stop slot = s.jobTagEpoch stop slot := by
  rw [inputTaken_frame]
  rfl

theorem sameJob_inputTaken (s : State) (stop slot q : Nat) (f : LFlit) (rest : List LFlit) :
    SameJob s (inputTaken s stop q f rest) stop slot := by
  rw [inputTaken_frame]
  exact ⟨kept_refl _ _, rfl, rfl, rfl, rfl, rfl, rfl, fun _ => rfl⟩

/-- R224, R264: a flit of the job's epoch and block, and no abort mark, leaves the queue. -/
theorem engPop_of_head {q : Nat} {f : LFlit} {rest : List LFlit} (hq : (s.lqAt stop q).q = f :: rest)
    (hepoch : f.epoch = s.jobTagEpoch stop slot) (htag : (s.jobAt stop slot).tag = some f.tag) (hop : f.op ≠ 2) :
    s.engPop stop slot q true = (inputTaken s stop q f rest, some f) := by
  have hepoch' := hepoch.trans (jobTagEpoch_inputTaken s stop slot q f rest).symm
  have hblock : (inputTaken s stop q f rest).engBlock stop slot f.tag = inputTaken s stop q f rest := by
    rw [State.engBlock, jobAt_inputTaken, if_pos htag]
  simp only [inputTaken, flitRemoved] at hepoch' hblock
  simp only [State.engPop, hq, ← hepoch', ne_eq, not_true_eq_false, if_false, if_true, hblock, hop, inputTaken, flitRemoved]

/-- R262: a block whose last flit stands at the head of the queue is taken with it. -/
theorem takeBlock_of_last {q : Nat} {f : LFlit} {rest : List LFlit} (hq : (s.lqAt stop q).q = f :: rest)
    (hepoch : f.epoch = s.jobTagEpoch stop slot) (htag : (s.jobAt stop slot).tag = some f.tag) (hop : f.op = 1)
    (use : State → LFlit → State) :
    s.takeBlock stop slot q use (s.lqAt stop q).q.length = (use (inputTaken s stop q f rest) f, true) := by
  simp [hq, State.takeBlock, engPop_of_head hq hepoch htag (by omega), hop]

theorem engTouch_of_clean (hue : (s.engAt stop).lmUe = []) (hce : (s.engAt stop).lmCe = []) (ranges : List (Nat × Nat)) :
    s.engTouch stop slot ranges = s := by
  simp [State.engTouch, hue, hce]

/-! ## The end of a unit -/

theorem bitsOf_word (w : Word) : bitsOf w 0 32 = w.toNat := by simp [bitsOf]

theorem rd_wrap_word (h : regWf s.regs = true) (a : Nat) : (s.wrap a 0 32).rd a = s.rd a + 1 := by
  apply BitVec.eq_of_toNat_eq
  have hfield := rf_wf_same h a 0 32 (s.rf a 0 32 + 1) (by omega)
  simp only [State.rf, bitsOf_word] at hfield
  rw [State.wrap, State.rf, bitsOf_word, hfield, BitVec.toNat_add]
  rfl

/-- R263: the job when its unit is completed. -/
def unitOver (j : EJob) : EJob := { j with inUnit := false }

/-- R263: the end of a unit is counted, and of the job changes only that no unit is under way. -/
theorem unitEnd_effect (hregs : regWf t.regs = true) (heng : twf {} t.eng = true) (hne : unitOver (t.jobAt stop slot) ≠ {})
    (hrd : t.rd (jobReg stop slot 8) = s.rd (jobReg stop slot 8)) :
    UnitDone s (t.unitEnd stop slot true) stop slot ∧
      (t.unitEnd stop slot true).jobAt stop slot = unitOver (t.jobAt stop slot) ∧
      ((t.unitEnd stop slot true).engAt stop).recs = (t.engAt stop).recs ∧
      t.unitEnd stop slot true =
        { t with regs := (t.unitEnd stop slot true).regs, eng := (t.unitEnd stop slot true).eng } := by
  have hu := setJob_wf heng stop slot (unitOver (t.jobAt stop slot))
  have hfin : (t.unitEnd stop slot true).engAt stop =
      { (t.setJob stop slot (unitOver (t.jobAt stop slot))).engAt stop with last := slot } := engAt_setEng hu stop _
  have hrecs := recs_setJob heng stop slot (unitOver (t.jobAt stop slot))
  refine ⟨⟨congrArg Engine.last hfin, ?_⟩, ?_, (congrArg Engine.recs hfin).trans hrecs, rfl⟩
  · exact (rd_wrap_word (s := (t.setJob stop slot (unitOver (t.jobAt stop slot))).setEng stop _) hregs _).trans (congrArg (· + 1) hrd)
  · rw [State.jobAt, hfin]
    exact jobAt_setJob heng stop slot hne

/-- What has left a queue in u has left it in a later state with the same queues and the same flits under way. -/
theorem popped_congr {u : State} {q : Nat} {f : LFlit} {rest : List LFlit} (h : Popped s u stop q f rest) (hlq : t.lq = u.lq)
    (hmesh : t.mesh = u.mesh) : Popped s t stop q f rest := by
  unfold Popped SendsOps opsOf State.lqAt at h ⊢
  rw [hlq, hmesh]
  exact h

/-- R262, R263: a unit that has taken one flit, worked in its engine up to v, and ends there. -/
theorem unitEnd_afterInput {v : State} {q : Nat} {f : LFlit} {rest : List LFlit} (h : Form s) (hslot : slot < 8)
    (hv : EngineWork (inputTaken s stop q f rest) v stop) (hne : unitOver (v.jobAt stop slot) ≠ {}) (ht : v.unitEnd stop slot true = t) :
    UnitDone s t stop slot ∧ Popped s t stop q f rest ∧ t.jobAt stop slot = unitOver (v.jobAt stop slot) ∧
      (t.engAt stop).recs = (v.engAt stop).recs ∧ t.mesh.cross = s.mesh.cross := by
  have hinput := (sameJob_inputTaken s stop slot q f rest).rd_jobReg hslot (show 8 < 16 by omega)
  have hrd : v.rd (jobReg stop slot 8) = s.rd (jobReg stop slot 8) :=
    (hv.kept _ (jobReg_not_mem_sorRegs stop hslot (by omega))).trans hinput
  obtain ⟨hdone, hjob, hrecs, hframe⟩ := unitEnd_effect hv.regs hv.eng hne hrd
  rw [ht] at hdone hjob hrecs hframe
  have hlq : t.lq = (inputTaken s stop q f rest).lq := by rw [hframe, hv.beside]
  have hmesh : t.mesh = (inputTaken s stop q f rest).mesh := by rw [hframe, hv.beside]
  exact ⟨hdone, popped_congr (popped_inputTaken h stop q f rest) hlq hmesh, hjob, hrecs,
    (congrArg Mesh.cross hmesh).trans (cross_inputTaken s stop q f rest)⟩

/-! ## DETECT -/

theorem openRegion_of_open {r : Region} {tag : Tag} (hregs : (s.jobAt stop slot).regions = [r]) (hframe : r.frame = tag.toNat / 4096)
    (hopen : r.closed = none) : s.openRegion stop slot tag = s := by
  simp [State.openRegion, hregs, hframe, hopen]

/-- R274, R276: the job after a flit of DETECT whose candidates have joined its only region, which is now r. -/
def detected (j : EJob) (r : Region) : EJob := { j with x := j.x + 1, regions := [r] }

theorem detected_ne_default (j : EJob) (r : Region) : detected j r ≠ {} := job_ne_default_of_regions (List.cons_ne_nil _ _)

theorem detectFlit_effect {n : Nat} {d : SorDesc} {r : Region} {f : LFlit} (h : Form s)
    (hregs : (s.jobAt stop slot).regions = [r]) (hframe : r.frame = f.tag.toNat / 4096) (hopen : r.closed = none)
    (hdesc : s.sorDescs stop slot r.cpy = [(n, d)]) :
    JobWork s (s.detectFlit stop slot f) stop slot ∧
      (s.detectFlit stop slot f).jobAt stop slot = detected (s.jobAt stop slot)
        (d.decode (s.engAt stop) f.payload (s.jobAt stop slot).x (f.tag.toNat % 4096) r) := by
  have hne := detected_ne_default (s.jobAt stop slot) (d.decode (s.engAt stop) f.payload (s.jobAt stop slot).x (f.tag.toNat % 4096) r)
  have hwork := (JobWork.refl h stop slot).setJob hne rfl rfl rfl
  have hjob := jobAt_setJob h.eng stop slot hne
  simp only [State.detectFlit, openRegion_of_open hregs hframe hopen, hregs, List.getLast?_singleton, hdesc, List.foldl_cons,
    List.foldl_nil, List.dropLast_singleton, List.nil_append]
  refine ⟨?_, ?_⟩
  · exact JobWork.ite (hwork.ite (hwork.wf (by simp [sorRegs]) _ _ _) _)
      ((hwork.ite (hwork.wf (by simp [sorRegs]) _ _ _) _).wf (by simp [sorRegs]) _ _ _) _
  · split <;> split <;> exact hjob

/-- R262, R274: a unit of a DETECT job whose block's last flit stands at the head of its queue. -/
theorem detectUnit_eq {f : LFlit} {rest : List LFlit} (h : Turn s stop slot)
    (hq : (s.lqAt stop (s.jobLq stop slot)).q = f :: rest) (hop : f.op = 1) (hepoch : f.epoch = s.jobTagEpoch stop slot)
    (htag : (s.jobAt stop slot).tag = some f.tag) {u : State}
    (hu : u = (inputTaken s stop (s.jobLq stop slot) f rest).detectFlit stop slot f)
    (hwork : JobWork (inputTaken s stop (s.jobLq stop slot) f rest) u stop slot) :
    s.detectUnit stop slot = u.unitEnd stop slot true := by
  have hsame := sameJob_inputTaken s stop slot (s.jobLq stop slot) f rest
  have hue : (u.engAt stop).lmUe = [] := by rw [hwork.ue, hsame.ue, h.ue]
  have hce : (u.engAt stop).lmCe = [] := by rw [hwork.ce, hsame.ce, h.ce]
  simp only [State.detectUnit, takeBlock_of_last hq hepoch htag hop, ← hu, engTouch_of_clean hue hce, ite_self]

/-! ## PASS -/

/-- R283: the job once the first flit of a packet has come, whose payload is p. -/
def withHead (j : EJob) (p : Payload) : EJob := { j with head := some p }

theorem passFlit_eq {f : LFlit} (h : (s.jobAt stop slot).head = none) :
    s.passFlit stop slot f = s.setJob stop slot (withHead (s.jobAt stop slot) f.payload) := by
  simp [State.passFlit, h, withHead]

/-- R283: a packet of the frame of the one before leaves the job's region sequence. -/
theorem passFrame_of_sameTag {j : EJob} {tag : Tag} (h : j.tag = some tag) : j.passFrame (some tag) ((j.tag.getD 0).toNat / 4096) = j := by
  simp [EJob.passFrame, h]

/-- R283: the type 4 record of a packet with tag `tag` whose first flit has payload p, for given flags. -/
def packetData (s : State) (stop slot : Nat) (tag : Tag) (p : Payload) (flags : Nat) : Payload :=
  type4 (s.jobPipe stop slot) flags (s.jobTagEpoch stop slot) (s.rf (jobReg stop slot 4) 16 8) (tag.toNat / 4096)
    (((s.jobAt stop slot).stampFor (tag.toNat / 4096)).elim 0 (·.time)) (s.jobAt stop slot).regSeq (s.jobAt stop slot).recSeq p

/-- R283: the flags of a packet's record, beside `rec_lost`. -/
def packetFlags (s : State) (stop slot : Nat) (tag : Tag) : Nat :=
  s.recFlags stop slot (tag.toNat / 4096) + 2 ^ 25 * boolNat ((s.jobAt stop slot).stampFor (tag.toNat / 4096)).isNone

/-- R283: the record of a packet as it stands in the engine's buffer. -/
def packetRec (s : State) (stop slot ring : Nat) (tag : Tag) (p : Payload) : EngRec :=
  { slot := slot, kept := false, ring := ring,
    data := packetData s stop slot tag p (packetFlags s stop slot tag + lostBit (s.jobAt stop slot)) }

theorem packetRec_congr {ring : Nat} {tag : Tag} {p : Payload} (h : SameJob s t stop slot) (hslot : slot < 8)
    (hjob : t.jobAt stop slot = s.jobAt stop slot) : packetRec t stop slot ring tag p = packetRec s stop slot ring tag p := by
  simp only [packetRec, packetData, packetFlags, h.jobPipe hslot, h.recFlags hslot, hjob, h.jobTagEpoch hslot,
    h.rf_jobReg hslot (show 4 < 16 by omega)]

/-- R280: the state in which a stamp that is missing has been flagged. -/
def stampChecked (t : State) (stop : Nat) (missing : Bool) : State := if missing then t.setFlag (reg stop 0x0200) 5 else t

theorem stampChecked_effect (h : JobWork s t stop slot) (missing : Bool) :
    JobWork s (stampChecked t stop missing) stop slot ∧ (stampChecked t stop missing).eng = t.eng := by
  rw [stampChecked]
  split
  · exact ⟨h.wf (by simp [sorRegs]) _ _ _, rfl⟩
  · exact ⟨h, rfl⟩

/-- R283: the state u in which a packet's record has entered the buffer, with the job done with the packet. -/
def packetOver (u : State) (stop slot frame : Nat) : State :=
  u.setJob stop slot { (u.jobAt stop slot).since frame with head := none }

theorem passRecord_eq {tag : Tag} {p : Payload} {u : State} (h : JobWork s u stop slot) (hslot : slot < 8)
    (hjob : t.jobAt stop slot = withHead (s.jobAt stop slot) p) (htag : (s.jobAt stop slot).tag = some tag)
    (hu : stampChecked t stop ((s.jobAt stop slot).stampFor (tag.toNat / 4096)).isNone = u) :
    t.passRecord stop slot = packetOver (u.emitRec stop slot (s.sorHead stop slot (s.jobCpy stop slot)).2.ring 13
      (packetFlags s stop slot tag) (packetData s stop slot tag p)) stop slot (tag.toNat / 4096) := by
  have hstamp : (withHead (s.jobAt stop slot) p).stampFor = (s.jobAt stop slot).stampFor := rfl
  have htag' : (withHead (s.jobAt stop slot) p).tag = some tag := htag
  rw [stampChecked] at hu
  simp only [State.passRecord, hjob, hstamp, htag', Option.getD_some, hu, h.jobPipe hslot, h.jobTagEpoch hslot, h.jobCpy hslot,
    h.sorHead hslot, h.recFlags hslot, h.rf_jobReg hslot (show 4 < 16 by omega)]
  rfl

/-- R283: a PASS job's record enters the buffer. -/
theorem passRecord_effect {tag : Tag} {p : Payload} (h : JobWork s t stop slot) (hslot : slot < 8)
    (hjob : t.jobAt stop slot = withHead (s.jobAt stop slot) p) (htag : (s.jobAt stop slot).tag = some tag)
    (hrecs : (t.engAt stop).recs = (s.engAt stop).recs) (hroom : (s.engAt stop).room = true) :
    EngineWork s (t.passRecord stop slot) stop ∧
      ((t.passRecord stop slot).jobAt stop slot).tag = some tag ∧
      ((t.passRecord stop slot).engAt stop).recs = (s.engAt stop).recs ++
        [packetRec s stop slot (s.sorHead stop slot (s.jobCpy stop slot)).2.ring tag p] := by
  obtain ⟨hu, heng⟩ := stampChecked_effect h ((s.jobAt stop slot).stampFor (tag.toNat / 4096)).isNone
  rw [passRecord_eq hu hslot hjob htag rfl]
  generalize stampChecked t stop _ = u at hu heng ⊢
  have huEng : u.engAt stop = t.engAt stop := by rw [State.engAt, heng, State.engAt]
  have huJob : u.jobAt stop slot = withHead (s.jobAt stop slot) p := by rw [State.jobAt, huEng]; exact hjob
  have huRoom : (u.engAt stop).room = true := by rw [Engine.room, huEng, hrecs]; exact hroom
  have hne : recorded (u.jobAt stop slot) ≠ {} := job_ne_default_of_tag (by simp [huJob, recorded, withHead, htag])
  obtain ⟨hv, hrec⟩ := emitRec_effect hu huRoom hne (s.sorHead stop slot (s.jobCpy stop slot)).2.ring 13
    (packetFlags s stop slot tag) (packetData s stop slot tag p)
  generalize u.emitRec stop slot _ _ _ _ = v at hv hrec ⊢
  have hvTag : (v.jobAt stop slot).tag = some tag := by rw [hrec.job, huJob]; exact htag
  have hvNe : { (v.jobAt stop slot).since (tag.toNat / 4096) with head := none } ≠ ({} : EJob) :=
    job_ne_default_of_tag (by simp [EJob.since, hvTag])
  refine ⟨hv.toEngineWork.setJob _ _, ?_, ?_⟩
  · rw [packetOver, jobAt_setJob hv.eng stop slot hvNe]
    exact hvTag
  · refine (recs_setJob hv.eng stop slot _).trans (hrec.recs.trans ?_)
    rw [huEng, hrecs, huJob]
    rfl

/-- R283: the state u, in which a packet's only flit with payload p has left its queue, with p kept as the packet's head. -/
def headKept (u : State) (stop slot : Nat) (p : Payload) : State :=
  (u.setJob stop slot (withHead (u.jobAt stop slot) p)).setJob stop slot (withHead (u.jobAt stop slot) p)

theorem headKept_effect {p : Payload} {tag : Tag} (h : Form s) (htag : (s.jobAt stop slot).tag = some tag) :
    JobWork s (headKept s stop slot p) stop slot ∧ (headKept s stop slot p).jobAt stop slot = withHead (s.jobAt stop slot) p ∧
      ((headKept s stop slot p).engAt stop).recs = (s.engAt stop).recs := by
  have hne : withHead (s.jobAt stop slot) p ≠ {} := job_ne_default_of_tag (by simp [withHead, htag])
  have hw := (JobWork.refl h stop slot).setJob hne rfl rfl rfl
  have hjob := jobAt_setJob h.eng stop slot hne
  refine ⟨hw.setJob hne (by rw [hjob]) (by rw [hjob]) (by rw [hjob]), jobAt_setJob hw.eng stop slot hne, ?_⟩
  exact (recs_setJob hw.eng stop slot _).trans (recs_setJob h.eng stop slot _)

/-- R262, R283: a unit of a PASS job whose packet is one flit, which stands at the head of its queue. -/
theorem passUnit_eq {f : LFlit} {rest : List LFlit} (h : Turn s stop slot) (hno : NoStamps s stop slot)
    (hq : (s.lqAt stop (s.jobLq stop slot)).q = f :: rest) (hop : f.op = 1) (hepoch : f.epoch = s.jobTagEpoch stop slot)
    (htag : (s.jobAt stop slot).tag = some f.tag) (hhead : (s.jobAt stop slot).head = none) :
    s.passUnit stop slot =
      ((headKept (inputTaken s stop (s.jobLq stop slot) f rest) stop slot f.payload).passRecord stop slot).unitEnd stop slot true := by
  have hform := form_inputTaken h.form stop (s.jobLq stop slot) f rest
  have hujob := jobAt_inputTaken s stop slot (s.jobLq stop slot) f rest
  have hsame := sameJob_inputTaken s stop slot (s.jobLq stop slot) f rest
  have hue := hsame.ue.trans h.ue
  have hce := hsame.ce.trans h.ce
  have hutag := (congrArg EJob.tag hujob).trans htag
  have huse := passFlit_eq (f := f) ((congrArg EJob.head hujob).trans hhead)
  simp only [State.passUnit, stamps_of_noStamps hno, takeBlock_of_last hq hepoch htag hop, huse]
  generalize inputTaken s stop (s.jobLq stop slot) f rest = u at *
  have hne : withHead (u.jobAt stop slot) f.payload ≠ {} := job_ne_default_of_tag (by simp [withHead, hutag])
  have hw := (JobWork.refl hform stop slot).setJob hne rfl rfl rfl
  have hframe := passFrame_of_sameTag (j := withHead (u.jobAt stop slot) f.payload) hutag
  rw [engTouch_of_clean (hw.ue.trans hue) (hw.ce.trans hce), ite_self, jobAt_setJob hform.eng stop slot hne, htag, hframe, headKept]
  rfl

/-! ## Notices -/

theorem noticeArrives_eq {k a b : Nat} {n : Notice} (hn : s.notices[k]? = some n)
    (hjobs : (s.jobsOf n.pipe).filter (fun j => j.1 = n.dst) = [(a, b)]) :
    s.noticeArrives k = { s with notices := s.notices.eraseIdx k }.setJob a b
      { s.jobAt a b with notices := (s.jobAt a b).notices ++ [n] } := by
  have hjobs' : (({ s with notices := s.notices.eraseIdx k } : State).jobsOf n.pipe).filter (fun j => j.1 = n.dst) = [(a, b)] := hjobs
  simp only [State.noticeArrives, takeAt, hn, Option.map_some, hjobs', List.foldl_cons, List.foldl_nil]
  rfl

end

/-! ## The obligation -/

/-- Settles O38: a unit of DETECT (R274) and of PASS (R283), and the arrival of a notice (R281). -/
theorem sorusUnits : Obligations.SorusUnits := by
  unfold Obligations.SorusUnits
  refine ⟨?detect, ?pass, ?notice⟩
  case detect =>
    intro s stop slot n d f rest r h hk hdesc hfn hq hop hepoch htag hregs hframe hopen hcpy
    have hslot := slot_lt_of_jobValid (jobValid_of_jobRuns h.runs)
    rw [← jobLq_of_single hk hdesc] at hq ⊢
    obtain ⟨hwork, hjob⟩ := detectFlit_effect (f := f) (form_inputTaken h.form stop (s.jobLq stop slot) f rest)
      ((congrArg EJob.regions (jobAt_inputTaken _ _ _ _ _ _)).trans hregs) hframe hopen
      (((sameJob_inputTaken _ _ _ _ _ _).sorDescs hslot _).trans (hcpy ▸ hdesc))
    have heq := detectUnit_eq h hq hop hepoch htag rfl hwork
    obtain ⟨hdone, hpop, hjobEnd, -, hcross⟩ := unitEnd_afterInput h.form hslot hwork.toEngineWork
      (job_ne_default_of_regions (by rw [hjob]; exact List.cons_ne_nil _ _)) heq.symm
    rw [hjob, jobAt_inputTaken, engAt_inputTaken] at hjobEnd
    exact ⟨_, exec_sorusDetect h hk (by rw [State.sorFn, sorHead_of_single hdesc, hfn]), hdone, hpop, congrArg EJob.regions hjobEnd,
      congrArg EJob.x hjobEnd, hcross⟩
  case pass =>
    intro s stop slot n d f rest h hk hdesc hfn hno hq hop hepoch htag hhead hroom
    have hslot := slot_lt_of_jobValid (jobValid_of_jobRuns h.runs)
    rw [← jobLq_of_single hk hdesc] at hq ⊢
    have hform := form_inputTaken h.form stop (s.jobLq stop slot) f rest
    have hsame := sameJob_inputTaken s stop slot (s.jobLq stop slot) f rest
    have hutag := (congrArg EJob.tag (jobAt_inputTaken s stop slot (s.jobLq stop slot) f rest)).trans htag
    have huroom := (congrArg Engine.room (engAt_inputTaken s stop (s.jobLq stop slot) f rest)).trans hroom
    obtain ⟨hkept, hjob, hrecs⟩ := headKept_effect (p := f.payload) hform hutag
    obtain ⟨hwork, htagEnd, hrecsEnd⟩ := passRecord_effect hkept hslot hjob hutag hrecs huroom
    obtain ⟨hdone, hpop, -, hlast, -⟩ := unitEnd_afterInput h.form hslot hwork
      (job_ne_default_of_tag (by simp [unitOver, htagEnd])) (passUnit_eq h hno hq hop hepoch htag hhead).symm
    refine ⟨_, exec_sorusPass h hk (by rw [State.sorFn, sorHead_of_single hdesc, hfn]), hdone, hpop, ?_⟩
    rw [hlast, hrecsEnd, packetRec_congr hsame hslot (jobAt_inputTaken _ _ _ _ _ _), hsame.jobCpy hslot, hsame.sorHead hslot,
      sorHead_of_single hdesc, engAt_inputTaken]
    rfl
  case notice =>
    intro s k a b n hf hn hjobs
    have hne : { s.jobAt a b with notices := (s.jobAt a b).notices ++ [n] } ≠ ({} : EJob) := fun h0 =>
      List.append_ne_nil_of_right_ne_nil _ (List.cons_ne_nil n []) (congrArg EJob.notices h0)
    have hjob := jobAt_setJob (s := { s with notices := s.notices.eraseIdx k }) hf.eng a b hne
    refine ⟨_, (congrArg Host.Outcome.next (noticeArrives_eq hn hjobs) : exec (.notice k) s = _), rfl, congrArg EJob.notices hjob, rfl⟩

end Sys2Proof.Proofs
